-- ==== Sys2Proof/Word.lean ====
section
/-! DEFINITION. The two bit-vector types of the part: a byte of the station link and a value of the station clock. -/

namespace Sys2Proof

/-- One byte of a frame (10.2, R177) or of a profile group (9.1). -/
abbrev Byte := BitVec 8

/-- A value of the station clock: an unsigned 32-bit count of seconds that wraps (1.7, R18). Deadlines are
values of this clock. -/
abbrev Clk := BitVec 32

end Sys2Proof
end

