-- ==== Sys2Proof/Config.lean ====
section
/-! DEFINITION. What the implementation fixes: the limits the manual gives by number, and the free values, which
have no body, for what it leaves open. -/

namespace Sys2Proof.Config

/-- Greatest rate, permit and capacity, in kWh/h (00, Units and ranges). -/
def maxRate : Nat := 99999999

/-- Greatest inventory, space right and fuel charged, in kWh (00, Units and ranges). -/
def maxInventory : Nat := 4000000000

/-- Places of the request queue (R178). -/
def queuePlaces : Nat := 4

/-- Entries of one list of a notification channel (8.2, R149). -/
def noticePlaces : Nat := 8

/-- Closes due that the start-up entry of missed boundaries may fill (R136). -/
def closesDuePlaces : Nat := 48

/-- Missed boundaries of one start that an UNLOADED book takes singly (R139). -/
def missedSingly : Nat := 48

/-- Period records of the history ring (R135). -/
def ringPlaces : Nat := 24

/-- Ceiling of the unvalued volume of a run, in 0.1 m³ (R15). -/
def maxUnvalued : Nat := 999999999999

/-- Ceiling of the saturating 32-bit counters and of a bed's loading (R58, 4.1). -/
def max32 : Nat := 4294967295

/-- Gas-day start hour while SITE is INVALID (R163). -/
def startHourInvalid : Nat := 6

/-- Settle interval while SITE is INVALID, in seconds (R163). -/
def settleInvalid : Nat := 5

/-- Link rate code while SITE is INVALID: 57,600 baud (R163, R176). -/
def linkRateInvalid : Nat := 1

/-- Lead time while SITE is INVALID. DEDUCED: 5.3 gives the field "default 2" and R163 names no other value.
Unsafe: log entry 8. -/
def leadTimeInvalid : Nat := 2

/-- Catch-up floor while SITE is INVALID. DEDUCED from "default 300" of R111. Unsafe: log entry 8. -/
def catchUpFloorInvalid : Nat := 300

/-- Maximum trim while SITE is INVALID. DEDUCED from "default 30" of R19. Unsafe: log entry 8. -/
def maxTrimInvalid : Nat := 30

/-- Free value: the settlement tolerance while SITE is INVALID, of which the manual says nothing (log entry 7).
Safe. -/
opaque freeTolerance : Nat

/-- Free value: the OBA limit while SITE is INVALID, of which the manual says nothing (log entry 7). Safe. -/
opaque freeObaLimit : Nat

/-- Free value: the part code that IDENTIFY reports (R182 gives no number; log entry 7). Safe. -/
opaque partCode : Nat

/-- Free value: the revision number that IDENTIFY reports (R182 gives no number; log entry 7). Safe. -/
opaque revision : Nat

/-- The settlement tolerance while SITE is INVALID, within the field's range 0..1,000,000 (9.1). -/
def toleranceInvalid : Nat := min freeTolerance 1000000

/-- The OBA limit while SITE is INVALID, within the field's range 0..100,000,000 (9.1). -/
def obaLimitInvalid : Nat := min freeObaLimit 100000000

end Sys2Proof.Config
end

