-- ==== Sys2Proof/Syntax.lean ====
section
/-! DEFINITION. The commands: one constructor for each of the 107 rows of spec/opcode_table.json. The first 62 are the
host's requests, each with the tag of its frame and the fields of its body in the order of its rule (11.2, 11.5);
the rest are events of the plant, the link, the supply and time. -/

namespace Sys2Proof

/-- The two duties of a compressor unit (3.1). -/
inductive Duty where
  | inject | boost
deriving DecidableEq, Repr

/-- The two towers of a drying train (4.1). -/
inductive TowerId where
  | a | b
deriving DecidableEq, Repr

/-- The commands of the part. A request's operands are the numbers its body carries, before any judging; indices
count from 0 (R185). An event's operands are what the plant or the supply brings with it. -/
inductive Instr where
  -- Measurement Unit
  | readChannel (tag channel : Nat)
  | loopCheckBegin (tag channel current : Nat)
  | loopCheckEnd (tag channel : Nat)
  | readMeter (tag run : Nat)
  | setGasQuality (tag run cv : Nat)
  | setClock (tag value : Nat)
  -- Cavern Controller; `dir` of CAVERN_SERVICE(out) is the body's second byte, 1 for out (0 is the row before)
  | cavernServiceIn (tag cavern : Nat)
  | cavernServiceOut (tag cavern dir : Nat)
  | cavernEnable (tag cavern : Nat)
  | cavernShut (tag cavern : Nat)
  | setMeritOrder (tag dir : Nat) (caverns : List Nat)
  | readMeritOrder (tag dir : Nat)
  | readCavern (tag cavern : Nat)
  -- Compressor Duty Manager
  | unitMaintenance (tag unit : Nat)
  | unitAvailable (tag unit : Nat)
  | resetLockout (tag unit : Nat)
  | setDuty (tag unit duty : Nat)
  | setDutyOrder (tag duty : Nat) (units : List Nat)
  | readUnit (tag unit : Nat)
  | readDuty (tag : Nat)
  -- Drying Train Controller
  | trainOnline (tag train : Nat)
  | trainOffline (tag train : Nat)
  | forceSwitchover (tag train : Nat)
  | resetTower (tag train tower : Nat)
  | readTrain (tag train : Nat)
  -- Account Book
  | accountsReady (tag : Nat)
  | openAccount (tag account code cls space rin rwd : Nat)
  | loadInventory (tag account inventory : Nat)
  | suspendAccount (tag account : Nat)
  | resumeAccount (tag account : Nat)
  | closeAccount (tag account : Nat)
  | setRights (tag account space rin rwd : Nat)
  | transfer (tag source dest quantity : Nat)
  | nominate (tag account slot : Nat) (n : Int)
  | declareCapacity (tag slot inj wd : Nat)
  | readCapacity (tag first count : Nat)
  | readChanged (tag : Nat)
  | readAccount (tag account : Nat)
  | readBook (tag account first count : Nat)
  -- Flow Planner
  | dispatchEnable (tag : Nat)
  | dispatchHold (tag : Nat)
  | readPlan (tag : Nat)
  -- Settlement Unit; a READ_PERIOD body may leave the position out (11.4)
  | obaAdjust (tag account : Nat) (quantity : Int)
  | readOba (tag : Nat)
  | readPeriod (tag number : Nat) (position : Option Nat)
  -- Watch and Notice Unit; a READ_NOTICE_STATE body may be empty (11.4)
  | setWatch (tag watch sourceKind sourceIndex event filter condition : Nat) (threshold : Int)
      (hysteresis channel action hostCode mode : Nat)
  | clearWatch (tag watch : Nat)
  | readWatches (tag : Nat)
  | readWatch (tag watch : Nat)
  | awaitFlags (tag mask timeout : Nat)
  | ackNotice (tag channel : Nat) (rearm : List Nat)
  | holdNotices (tag : Nat)
  | releaseNotices (tag : Nat)
  | discardNotice (tag channel : Nat)
  | testNotice (tag channel : Nat)
  | readNoticeState (tag : Nat) (channel : Option Nat)
  -- Trip Unit
  | clearTrip (tag : Nat)
  | readTrip (tag : Nat)
  -- Profile Store
  | writeProfile (tag group segment last : Nat) (contents : List Byte)
  | readProfile (tag group segment : Nat)
  -- Station Link Unit
  | identify (tag : Nat)
  | resetController (tag : Nat)
  -- link events
  | frameReceived
  | frameGapTimeout
  | framingError
  | replyGrant
  | noticeSent
  | telegramComplete
  -- supply, reset and start
  | mainSupplyUp
  | mainSupplyLost
  | resetInputAsserted
  | resetInputReleased
  | startComplete
  -- measurement; `current` is the loop current in µA
  | channelReading (channel current : Nat)
  | holdExpiry (channel : Nat)
  | recalibrationBegin
  | recalibrationComplete
  | meterPulse (run : Nat)
  | zeroFlowExpiry (run : Nat)
  | clockSecond
  | crystalStop
  | crystalResume
  -- `rotateFirst`: whether the day's rotation (R47) is taken before the close's planner step; the manual allows both
  | periodBoundary (rotateFirst : Bool)
  | closeComplete
  -- caverns
  | valveLimitChange (cavern : Nat) (openMade closedMade : Bool)
  | travelDeadlineExpiry (cavern : Nat)
  | dwellExpiry (cavern : Nat)
  | dispatchIntervalExpiry
  -- compressors
  | startPendingExpiry (duty : Duty)
  | stopPendingExpiry (duty : Duty)
  | minimumRunExpiry (unit : Nat)
  | unitRunningInputChange (unit : Nat) (present : Bool)
  | startDeadlineExpiry (unit : Nat)
  | stopDeadlineExpiry (unit : Nat)
  | restDeadlineExpiry (unit : Nat)
  | startHistoryAgeOut (unit : Nat)
  -- drying
  | towerFeedbackChange (train : Nat) (tower : TowerId) (made : Bool)
  | switchDeadlineExpiry (train : Nat)
  | towerStepExpiry (train : Nat) (tower : TowerId)
  | offSpecExpiry (train : Nat)
  -- trips, watches, profiles; `arrival` names the waiting request by its arrival order
  | esdInputChange (asserted : Bool)
  | awaitFlagsTimeout (arrival : Nat)
  | commitComplete (verified : Bool)
  | profileToProfileExpiry
  | settleExpiry
  | byteReceived (byte : Byte)
  | backupSupplyLost
deriving DecidableEq, Repr

end Sys2Proof
end

