-- ==== Sys2Proof/WellFormed.lean ====
section
/-! DEFINITION. Which commands can be sent at all: a request's operands fit the widths of their bodies (11.2, 11.5) and
an event names something the part has. A bad value that fits its width is well formed: the owning block answers it
(R178). -/

namespace Sys2Proof

/-- Fits one byte of a body. -/
def fits1 (n : Nat) : Bool := n < 256

/-- Fits two bytes of a body. -/
def fits2 (n : Nat) : Bool := n < 65536

/-- Fits three bytes of a body: the mask of AWAIT_FLAGS (11.5). -/
def fits3 (n : Nat) : Bool := n < 16777216

/-- Fits four bytes of a body. -/
def fits4 (n : Nat) : Bool := n < 4294967296

/-- Fits four bytes in two's complement (R185). -/
def fitsSigned4 (n : Int) : Bool := -2147483648 ≤ n && n < 2147483648

/-- Fits eight bytes in two's complement: OBA_ADJUST and the threshold of SET_WATCH (11.5). -/
def fitsSigned8 (n : Int) : Bool := -9223372036854775808 ≤ n && n < 9223372036854775808

/-- The operands of a command fit what carries them. -/
def Instr.wellFormed : Instr → Bool
  | .readChannel t c => fits1 t && fits1 c
  | .loopCheckBegin t c i => fits1 t && fits1 c && fits2 i
  | .loopCheckEnd t c => fits1 t && fits1 c
  | .readMeter t r => fits1 t && fits1 r
  | .setGasQuality t r cv => fits1 t && fits1 r && fits2 cv
  | .setClock t v => fits1 t && fits4 v
  | .cavernServiceIn t c => fits1 t && fits1 c
  | .cavernServiceOut t c d => fits1 t && fits1 c && fits1 d && d != 0
  | .cavernEnable t c => fits1 t && fits1 c
  | .cavernShut t c => fits1 t && fits1 c
  | .setMeritOrder t d l => fits1 t && fits1 d && l.length ≤ 8 && l.all fits1
  | .readMeritOrder t d => fits1 t && fits1 d
  | .readCavern t c => fits1 t && fits1 c
  | .unitMaintenance t u => fits1 t && fits1 u
  | .unitAvailable t u => fits1 t && fits1 u
  | .resetLockout t u => fits1 t && fits1 u
  | .setDuty t u d => fits1 t && fits1 u && fits1 d
  | .setDutyOrder t d l => fits1 t && fits1 d && l.length ≤ 6 && l.all fits1
  | .readUnit t u => fits1 t && fits1 u
  | .readDuty t => fits1 t
  | .trainOnline t n => fits1 t && fits1 n
  | .trainOffline t n => fits1 t && fits1 n
  | .forceSwitchover t n => fits1 t && fits1 n
  | .resetTower t n w => fits1 t && fits1 n && fits1 w
  | .readTrain t n => fits1 t && fits1 n
  | .accountsReady t => fits1 t
  | .openAccount t a code cls sp rin rwd =>
    fits1 t && fits1 a && fits2 code && fits1 cls && fits4 sp && fits4 rin && fits4 rwd
  | .loadInventory t a i => fits1 t && fits1 a && fits4 i
  | .suspendAccount t a => fits1 t && fits1 a
  | .resumeAccount t a => fits1 t && fits1 a
  | .closeAccount t a => fits1 t && fits1 a
  | .setRights t a sp rin rwd => fits1 t && fits1 a && fits4 sp && fits4 rin && fits4 rwd
  | .transfer t a b q => fits1 t && fits1 a && fits1 b && fits4 q
  | .nominate t a sl n => fits1 t && fits1 a && fits1 sl && fitsSigned4 n
  | .declareCapacity t sl i w => fits1 t && fits1 sl && fits4 i && fits4 w
  | .readCapacity t f c => fits1 t && fits1 f && fits1 c
  | .readChanged t => fits1 t
  | .readAccount t a => fits1 t && fits1 a
  | .readBook t a f c => fits1 t && fits1 a && fits1 f && fits1 c
  | .dispatchEnable t => fits1 t
  | .dispatchHold t => fits1 t
  | .readPlan t => fits1 t
  | .obaAdjust t a q => fits1 t && fits1 a && fitsSigned8 q
  | .readOba t => fits1 t
  | .readPeriod t n p => fits1 t && fits4 n && p.all fits1
  | .setWatch t w sk si e f c th h ch a code m =>
    fits1 t && fits1 w && fits1 sk && fits1 si && fits1 e && fits1 f && fits1 c && fitsSigned8 th && fits4 h &&
      fits1 ch && fits1 a && fits2 code && fits1 m
  | .clearWatch t w => fits1 t && fits1 w
  | .readWatches t => fits1 t
  | .readWatch t w => fits1 t && fits1 w
  | .awaitFlags t m d => fits1 t && fits3 m && fits2 d
  | .ackNotice t c l => fits1 t && fits1 c && l.length ≤ 24 && l.all fits1
  | .holdNotices t => fits1 t
  | .releaseNotices t => fits1 t
  | .discardNotice t c => fits1 t && fits1 c
  | .testNotice t c => fits1 t && fits1 c
  | .readNoticeState t c => fits1 t && c.all fits1
  | .clearTrip t => fits1 t
  | .readTrip t => fits1 t
  | .writeProfile t g s l b => fits1 t && fits1 g && fits1 s && fits1 l && 1 ≤ b.length && b.length ≤ 224
  | .readProfile t g s => fits1 t && fits1 g && fits1 s
  | .identify t => fits1 t
  | .resetController t => fits1 t
  | .frameReceived | .frameGapTimeout | .framingError | .replyGrant | .noticeSent | .telegramComplete
  | .mainSupplyUp | .mainSupplyLost | .resetInputAsserted | .resetInputReleased | .startComplete => true
  | .channelReading c i => c < 16 && i ≤ 25000
  | .holdExpiry c => c < 16
  | .recalibrationBegin | .recalibrationComplete => true
  | .meterPulse r => r < 7
  | .zeroFlowExpiry r => r < 7
  | .clockSecond | .crystalStop | .crystalResume | .periodBoundary _ | .closeComplete => true
  | .valveLimitChange c _ _ => c < 8
  | .travelDeadlineExpiry c => c < 8
  | .dwellExpiry c => c < 8
  | .dispatchIntervalExpiry | .startPendingExpiry _ | .stopPendingExpiry _ => true
  | .minimumRunExpiry u => u < 6
  | .unitRunningInputChange u _ => u < 6
  | .startDeadlineExpiry u => u < 6
  | .stopDeadlineExpiry u => u < 6
  | .restDeadlineExpiry u => u < 6
  | .startHistoryAgeOut u => u < 6
  | .towerFeedbackChange t _ _ => t < 4
  | .switchDeadlineExpiry t => t < 4
  | .towerStepExpiry t _ => t < 4
  | .offSpecExpiry t => t < 4
  | .esdInputChange _ | .awaitFlagsTimeout _ | .commitComplete _ | .profileToProfileExpiry | .settleExpiry
  | .byteReceived _ | .backupSupplyLost => true

end Sys2Proof
end

