-- ==== Sys2Proof/Decode.lean ====
section
/-! DEFINITION. Telegrams: the frame with its CRC (10.2, 11.1, R177), the kinds (11.5), and the reading of a request's
body into a command and back (11.2, R185, R186). The opcode table gives no row any bits, so `decodeTableWord`
answers none. -/

namespace Sys2Proof

/-- No row of spec/opcode_table.json gives bits: no word spells a command. -/
def decodeTableWord (_nbits _w : Nat) : Option Instr := none

/-! ### Numbers in bytes (R185) -/

/-- A number in `w` bytes, big-endian; the number is taken modulo 256 to the `w`. -/
def bytesOfNat : Nat → Nat → List Byte
  | 0, _ => []
  | w + 1, n => BitVec.ofNat 8 (n / 256 ^ w) :: bytesOfNat w (n % 256 ^ w)

/-- The unsigned number that bytes carry, big-endian. -/
def natOfBytes (l : List Byte) : Nat := l.foldl (fun acc b => acc * 256 + b.toNat) 0

/-- A signed number in `w` bytes, in two's complement. -/
def bytesOfInt (w : Nat) (v : Int) : List Byte := bytesOfNat w (v % (256 ^ w : Nat)).toNat

/-- The number that `w` bytes carry in two's complement. -/
def signedOfNat (w n : Nat) : Int := if 2 * n < 256 ^ w then n else (n : Int) - (256 ^ w : Nat)

/-- The signed number that bytes carry. -/
def intOfBytes (l : List Byte) : Int := signedOfNat l.length (natOfBytes l)

/-- Bytes `at` .. `at + w - 1` of a body, as an unsigned number. -/
def field (l : List Byte) (start w : Nat) : Nat := natOfBytes ((l.drop start).take w)

/-- The same bytes as a signed number. -/
def sfield (l : List Byte) (start w : Nat) : Int := intOfBytes ((l.drop start).take w)

/-! ### The frame -/

/-- One bit of the CRC register: shift left, and divide by the polynomial 0x1021 when a one falls out (R177). -/
def crcBit (c : BitVec 16) : BitVec 16 := if c.msb then (c <<< 1) ^^^ 0x1021#16 else c <<< 1

/-- One byte into the CRC, most significant bit first. -/
def crcByte (c : BitVec 16) (b : Byte) : BitVec 16 :=
  crcBit (crcBit (crcBit (crcBit (crcBit (crcBit (crcBit (crcBit (c ^^^ (b.zeroExtend 16 <<< 8)))))))))

/-- CRC-16, polynomial 0x1021, initial value 0xFFFF, no reflection and no final XOR (R177). -/
def crc16 (l : List Byte) : BitVec 16 := l.foldl crcByte 0xFFFF#16

/-- The start byte of every frame (10.2). -/
def startByte : Byte := 0x5A#8

/-- A frame: start byte, body length, kind, tag, body, CRC over all but the start byte (11.1). -/
def frameBytes (kind tag : Nat) (body : List Byte) : List Byte :=
  let inner := BitVec.ofNat 8 body.length :: BitVec.ofNat 8 kind :: BitVec.ofNat 8 tag :: body
  startByte :: inner ++ bytesOfNat 2 (crc16 inner).toNat

/-- The bytes of a frame after its start byte are whole: 5 more than the body length (R177 counts 6 with the start
byte). The list leaves the start byte out. -/
def frameWhole (l : List Byte) : Bool :=
  match l with
  | [] => false
  | len :: _ => l.length == len.toNat + 5

/-- The kind, tag and body of a whole frame whose CRC matches (R177); none where it does not. -/
def frameParts (l : List Byte) : Option (Nat × Nat × List Byte) :=
  match l with
  | len :: kind :: tag :: rest =>
    let body := rest.take len.toNat
    if natOfBytes (rest.drop len.toNat) = (crc16 (len :: kind :: tag :: body)).toNat then
      some (kind.toNat, tag.toNat, body)
    else none
  | _ => none

/-! ### Kinds (11.5) -/

/-- The kind of each request; an event has none. -/
def Instr.kind : Instr → Option Nat
  | .readChannel .. => some 0x01 | .loopCheckBegin .. => some 0x02 | .loopCheckEnd .. => some 0x03
  | .readMeter .. => some 0x04 | .setGasQuality .. => some 0x05 | .setClock .. => some 0x06
  | .cavernServiceIn .. => some 0x10 | .cavernServiceOut .. => some 0x10 | .cavernEnable .. => some 0x11
  | .cavernShut .. => some 0x12 | .setMeritOrder .. => some 0x13 | .readMeritOrder .. => some 0x14
  | .readCavern .. => some 0x15
  | .unitMaintenance .. => some 0x18 | .unitAvailable .. => some 0x19 | .resetLockout .. => some 0x1A
  | .setDuty .. => some 0x1B | .setDutyOrder .. => some 0x1C | .readUnit .. => some 0x1D | .readDuty .. => some 0x1E
  | .trainOnline .. => some 0x20 | .trainOffline .. => some 0x21 | .forceSwitchover .. => some 0x22
  | .resetTower .. => some 0x23 | .readTrain .. => some 0x24
  | .accountsReady .. => some 0x28 | .openAccount .. => some 0x29 | .loadInventory .. => some 0x2A
  | .suspendAccount .. => some 0x2B | .resumeAccount .. => some 0x2C | .closeAccount .. => some 0x2D
  | .setRights .. => some 0x2E | .transfer .. => some 0x2F | .nominate .. => some 0x30
  | .declareCapacity .. => some 0x31 | .readCapacity .. => some 0x32 | .readChanged .. => some 0x33
  | .readAccount .. => some 0x34 | .readBook .. => some 0x35
  | .dispatchEnable .. => some 0x38 | .dispatchHold .. => some 0x39 | .readPlan .. => some 0x3A
  | .obaAdjust .. => some 0x3C | .readOba .. => some 0x3D | .readPeriod .. => some 0x3E
  | .setWatch .. => some 0x40 | .clearWatch .. => some 0x41 | .readWatches .. => some 0x42
  | .readWatch .. => some 0x43 | .awaitFlags .. => some 0x44 | .ackNotice .. => some 0x45
  | .holdNotices .. => some 0x46 | .releaseNotices .. => some 0x47 | .discardNotice .. => some 0x48
  | .testNotice .. => some 0x49 | .readNoticeState .. => some 0x4A
  | .clearTrip .. => some 0x4C | .readTrip .. => some 0x4D
  | .writeProfile .. => some 0x50 | .readProfile .. => some 0x51
  | .identify .. => some 0x58 | .resetController .. => some 0x59
  | .frameReceived | .frameGapTimeout | .framingError | .replyGrant | .noticeSent | .telegramComplete
  | .mainSupplyUp | .mainSupplyLost | .resetInputAsserted | .resetInputReleased | .startComplete
  | .channelReading .. | .holdExpiry .. | .recalibrationBegin | .recalibrationComplete | .meterPulse ..
  | .zeroFlowExpiry .. | .clockSecond | .crystalStop | .crystalResume | .periodBoundary .. | .closeComplete
  | .valveLimitChange .. | .travelDeadlineExpiry .. | .dwellExpiry .. | .dispatchIntervalExpiry
  | .startPendingExpiry .. | .stopPendingExpiry .. | .minimumRunExpiry .. | .unitRunningInputChange ..
  | .startDeadlineExpiry .. | .stopDeadlineExpiry .. | .restDeadlineExpiry .. | .startHistoryAgeOut ..
  | .towerFeedbackChange .. | .switchDeadlineExpiry .. | .towerStepExpiry .. | .offSpecExpiry ..
  | .esdInputChange .. | .awaitFlagsTimeout .. | .commitComplete .. | .profileToProfileExpiry | .settleExpiry
  | .byteReceived .. | .backupSupplyLost => none

/-- The shortest and the longest body each kind allows (11.5); none for a byte that is no request's kind. -/
def kindLengths (k : Nat) : Option (Nat × Nat) :=
  if 0x01 ≤ k ∧ k ≤ 0x06 then ([(1, 1), (3, 3), (1, 1), (1, 1), (3, 3), (4, 4)] : List (Nat × Nat))[k - 0x01]?
  else if 0x10 ≤ k ∧ k ≤ 0x15 then
    ([(2, 2), (1, 1), (1, 1), (1, 9), (1, 1), (1, 1)] : List (Nat × Nat))[k - 0x10]?
  else if 0x18 ≤ k ∧ k ≤ 0x1E then
    ([(1, 1), (1, 1), (1, 1), (2, 2), (1, 7), (1, 1), (0, 0)] : List (Nat × Nat))[k - 0x18]?
  else if 0x20 ≤ k ∧ k ≤ 0x24 then ([(1, 1), (1, 1), (1, 1), (2, 2), (1, 1)] : List (Nat × Nat))[k - 0x20]?
  else if 0x28 ≤ k ∧ k ≤ 0x35 then
    ([(0, 0), (16, 16), (5, 5), (1, 1), (1, 1), (1, 1), (13, 13), (6, 6), (6, 6), (9, 9), (2, 2), (0, 0), (1, 1),
      (3, 3)] : List (Nat × Nat))[k - 0x28]?
  else if 0x38 ≤ k ∧ k ≤ 0x3A then some (0, 0)
  else if 0x3C ≤ k ∧ k ≤ 0x3E then ([(9, 9), (0, 0), (4, 5)] : List (Nat × Nat))[k - 0x3C]?
  else if 0x40 ≤ k ∧ k ≤ 0x4A then
    ([(23, 23), (1, 1), (0, 0), (1, 1), (5, 5), (1, 25), (0, 0), (0, 0), (1, 1), (1, 1),
      (0, 1)] : List (Nat × Nat))[k - 0x40]?
  else if 0x4C ≤ k ∧ k ≤ 0x4D then some (0, 0)
  else if 0x50 ≤ k ∧ k ≤ 0x51 then ([(4, 227), (2, 2)] : List (Nat × Nat))[k - 0x50]?
  else if 0x58 ≤ k ∧ k ≤ 0x59 then some (0, 0)
  else none

/-- The kind allows this body length (R178). -/
def lengthAllowed (k len : Nat) : Bool :=
  match kindLengths k with
  | some (lo, hi) => lo ≤ len && len ≤ hi
  | none => false

/-! ### Bodies -/

/-- Every byte of a body as an index. -/
def indices (l : List Byte) : List Nat := l.map BitVec.toNat

/-- The request that a frame of kind `k`, tag `t` and body `b` carries; the body has a length the kind allows. -/
def decodeRequest (k t : Nat) (b : List Byte) : Option Instr :=
  match k with
  | 0x01 => some (.readChannel t (field b 0 1))
  | 0x02 => some (.loopCheckBegin t (field b 0 1) (field b 1 2))
  | 0x03 => some (.loopCheckEnd t (field b 0 1))
  | 0x04 => some (.readMeter t (field b 0 1))
  | 0x05 => some (.setGasQuality t (field b 0 1) (field b 1 2))
  | 0x06 => some (.setClock t (field b 0 4))
  | 0x10 =>
    if field b 1 1 = 0 then some (.cavernServiceIn t (field b 0 1))
    else some (.cavernServiceOut t (field b 0 1) (field b 1 1))
  | 0x11 => some (.cavernEnable t (field b 0 1))
  | 0x12 => some (.cavernShut t (field b 0 1))
  | 0x13 => some (.setMeritOrder t (field b 0 1) (indices (b.drop 1)))
  | 0x14 => some (.readMeritOrder t (field b 0 1))
  | 0x15 => some (.readCavern t (field b 0 1))
  | 0x18 => some (.unitMaintenance t (field b 0 1))
  | 0x19 => some (.unitAvailable t (field b 0 1))
  | 0x1A => some (.resetLockout t (field b 0 1))
  | 0x1B => some (.setDuty t (field b 0 1) (field b 1 1))
  | 0x1C => some (.setDutyOrder t (field b 0 1) (indices (b.drop 1)))
  | 0x1D => some (.readUnit t (field b 0 1))
  | 0x1E => some (.readDuty t)
  | 0x20 => some (.trainOnline t (field b 0 1))
  | 0x21 => some (.trainOffline t (field b 0 1))
  | 0x22 => some (.forceSwitchover t (field b 0 1))
  | 0x23 => some (.resetTower t (field b 0 1) (field b 1 1))
  | 0x24 => some (.readTrain t (field b 0 1))
  | 0x28 => some (.accountsReady t)
  | 0x29 => some (.openAccount t (field b 0 1) (field b 1 2) (field b 3 1) (field b 4 4) (field b 8 4) (field b 12 4))
  | 0x2A => some (.loadInventory t (field b 0 1) (field b 1 4))
  | 0x2B => some (.suspendAccount t (field b 0 1))
  | 0x2C => some (.resumeAccount t (field b 0 1))
  | 0x2D => some (.closeAccount t (field b 0 1))
  | 0x2E => some (.setRights t (field b 0 1) (field b 1 4) (field b 5 4) (field b 9 4))
  | 0x2F => some (.transfer t (field b 0 1) (field b 1 1) (field b 2 4))
  | 0x30 => some (.nominate t (field b 0 1) (field b 1 1) (sfield b 2 4))
  | 0x31 => some (.declareCapacity t (field b 0 1) (field b 1 4) (field b 5 4))
  | 0x32 => some (.readCapacity t (field b 0 1) (field b 1 1))
  | 0x33 => some (.readChanged t)
  | 0x34 => some (.readAccount t (field b 0 1))
  | 0x35 => some (.readBook t (field b 0 1) (field b 1 1) (field b 2 1))
  | 0x38 => some (.dispatchEnable t)
  | 0x39 => some (.dispatchHold t)
  | 0x3A => some (.readPlan t)
  | 0x3C => some (.obaAdjust t (field b 0 1) (sfield b 1 8))
  | 0x3D => some (.readOba t)
  | 0x3E => some (.readPeriod t (field b 0 4) (if b.length = 4 then none else some (field b 4 1)))
  | 0x40 =>
    some (.setWatch t (field b 0 1) (field b 1 1) (field b 2 1) (field b 3 1) (field b 4 1) (field b 5 1)
      (sfield b 6 8) (field b 14 4) (field b 18 1) (field b 19 1) (field b 20 2) (field b 22 1))
  | 0x41 => some (.clearWatch t (field b 0 1))
  | 0x42 => some (.readWatches t)
  | 0x43 => some (.readWatch t (field b 0 1))
  | 0x44 => some (.awaitFlags t (field b 0 3) (field b 3 2))
  | 0x45 => some (.ackNotice t (field b 0 1) (indices (b.drop 1)))
  | 0x46 => some (.holdNotices t)
  | 0x47 => some (.releaseNotices t)
  | 0x48 => some (.discardNotice t (field b 0 1))
  | 0x49 => some (.testNotice t (field b 0 1))
  | 0x4A => some (.readNoticeState t (if b.length = 0 then none else some (field b 0 1)))
  | 0x4C => some (.clearTrip t)
  | 0x4D => some (.readTrip t)
  | 0x50 => some (.writeProfile t (field b 0 1) (field b 1 1) (field b 2 1) (b.drop 3))
  | 0x51 => some (.readProfile t (field b 0 1) (field b 1 1))
  | 0x58 => some (.identify t)
  | 0x59 => some (.resetController t)
  | _ => none

/-- The tag of a request; 0 for an event. -/
def Instr.tag : Instr → Nat
  | .readChannel t _ | .loopCheckBegin t _ _ | .loopCheckEnd t _ | .readMeter t _ | .setGasQuality t _ _
  | .setClock t _ | .cavernServiceIn t _ | .cavernServiceOut t _ _ | .cavernEnable t _ | .cavernShut t _
  | .setMeritOrder t _ _ | .readMeritOrder t _ | .readCavern t _ | .unitMaintenance t _ | .unitAvailable t _
  | .resetLockout t _ | .setDuty t _ _ | .setDutyOrder t _ _ | .readUnit t _ | .readDuty t | .trainOnline t _
  | .trainOffline t _ | .forceSwitchover t _ | .resetTower t _ _ | .readTrain t _ | .accountsReady t
  | .openAccount t _ _ _ _ _ _ | .loadInventory t _ _ | .suspendAccount t _ | .resumeAccount t _
  | .closeAccount t _ | .setRights t _ _ _ _ | .transfer t _ _ _ | .nominate t _ _ _ | .declareCapacity t _ _ _
  | .readCapacity t _ _ | .readChanged t | .readAccount t _ | .readBook t _ _ _ | .dispatchEnable t
  | .dispatchHold t | .readPlan t | .obaAdjust t _ _ | .readOba t | .readPeriod t _ _
  | .setWatch t _ _ _ _ _ _ _ _ _ _ _ _ | .clearWatch t _ | .readWatches t | .readWatch t _ | .awaitFlags t _ _
  | .ackNotice t _ _ | .holdNotices t | .releaseNotices t | .discardNotice t _ | .testNotice t _
  | .readNoticeState t _ | .clearTrip t | .readTrip t | .writeProfile t _ _ _ _ | .readProfile t _ _ | .identify t
  | .resetController t => t
  | .frameReceived | .frameGapTimeout | .framingError | .replyGrant | .noticeSent | .telegramComplete
  | .mainSupplyUp | .mainSupplyLost | .resetInputAsserted | .resetInputReleased | .startComplete
  | .channelReading .. | .holdExpiry .. | .recalibrationBegin | .recalibrationComplete | .meterPulse ..
  | .zeroFlowExpiry .. | .clockSecond | .crystalStop | .crystalResume | .periodBoundary .. | .closeComplete
  | .valveLimitChange .. | .travelDeadlineExpiry .. | .dwellExpiry .. | .dispatchIntervalExpiry
  | .startPendingExpiry .. | .stopPendingExpiry .. | .minimumRunExpiry .. | .unitRunningInputChange ..
  | .startDeadlineExpiry .. | .stopDeadlineExpiry .. | .restDeadlineExpiry .. | .startHistoryAgeOut ..
  | .towerFeedbackChange .. | .switchDeadlineExpiry .. | .towerStepExpiry .. | .offSpecExpiry ..
  | .esdInputChange .. | .awaitFlagsTimeout .. | .commitComplete .. | .profileToProfileExpiry | .settleExpiry
  | .byteReceived .. | .backupSupplyLost => 0

/-- The body of a request: its fields in the order of its rule, in the widths of 11.5 (R185, R186). An event has an
empty body. -/
def Instr.body : Instr → List Byte
  | .readChannel _ c => bytesOfNat 1 c
  | .loopCheckBegin _ c i => bytesOfNat 1 c ++ bytesOfNat 2 i
  | .loopCheckEnd _ c => bytesOfNat 1 c
  | .readMeter _ r => bytesOfNat 1 r
  | .setGasQuality _ r cv => bytesOfNat 1 r ++ bytesOfNat 2 cv
  | .setClock _ v => bytesOfNat 4 v
  | .cavernServiceIn _ c => bytesOfNat 1 c ++ bytesOfNat 1 0
  | .cavernServiceOut _ c d => bytesOfNat 1 c ++ bytesOfNat 1 d
  | .cavernEnable _ c => bytesOfNat 1 c
  | .cavernShut _ c => bytesOfNat 1 c
  | .setMeritOrder _ d l => bytesOfNat 1 d ++ l.map (BitVec.ofNat 8)
  | .readMeritOrder _ d => bytesOfNat 1 d
  | .readCavern _ c => bytesOfNat 1 c
  | .unitMaintenance _ u => bytesOfNat 1 u
  | .unitAvailable _ u => bytesOfNat 1 u
  | .resetLockout _ u => bytesOfNat 1 u
  | .setDuty _ u d => bytesOfNat 1 u ++ bytesOfNat 1 d
  | .setDutyOrder _ d l => bytesOfNat 1 d ++ l.map (BitVec.ofNat 8)
  | .readUnit _ u => bytesOfNat 1 u
  | .readDuty _ => []
  | .trainOnline _ n => bytesOfNat 1 n
  | .trainOffline _ n => bytesOfNat 1 n
  | .forceSwitchover _ n => bytesOfNat 1 n
  | .resetTower _ n w => bytesOfNat 1 n ++ bytesOfNat 1 w
  | .readTrain _ n => bytesOfNat 1 n
  | .accountsReady _ => []
  | .openAccount _ a code cls sp rin rwd =>
    bytesOfNat 1 a ++ bytesOfNat 2 code ++ bytesOfNat 1 cls ++ bytesOfNat 4 sp ++ bytesOfNat 4 rin ++
      bytesOfNat 4 rwd
  | .loadInventory _ a i => bytesOfNat 1 a ++ bytesOfNat 4 i
  | .suspendAccount _ a => bytesOfNat 1 a
  | .resumeAccount _ a => bytesOfNat 1 a
  | .closeAccount _ a => bytesOfNat 1 a
  | .setRights _ a sp rin rwd => bytesOfNat 1 a ++ bytesOfNat 4 sp ++ bytesOfNat 4 rin ++ bytesOfNat 4 rwd
  | .transfer _ a b q => bytesOfNat 1 a ++ bytesOfNat 1 b ++ bytesOfNat 4 q
  | .nominate _ a sl n => bytesOfNat 1 a ++ bytesOfNat 1 sl ++ bytesOfInt 4 n
  | .declareCapacity _ sl i w => bytesOfNat 1 sl ++ bytesOfNat 4 i ++ bytesOfNat 4 w
  | .readCapacity _ f c => bytesOfNat 1 f ++ bytesOfNat 1 c
  | .readChanged _ => []
  | .readAccount _ a => bytesOfNat 1 a
  | .readBook _ a f c => bytesOfNat 1 a ++ bytesOfNat 1 f ++ bytesOfNat 1 c
  | .dispatchEnable _ | .dispatchHold _ | .readPlan _ => []
  | .obaAdjust _ a q => bytesOfNat 1 a ++ bytesOfInt 8 q
  | .readOba _ => []
  | .readPeriod _ n none => bytesOfNat 4 n
  | .readPeriod _ n (some p) => bytesOfNat 4 n ++ bytesOfNat 1 p
  | .setWatch _ w sk si e f c th h ch a code m =>
    bytesOfNat 1 w ++ bytesOfNat 1 sk ++ bytesOfNat 1 si ++ bytesOfNat 1 e ++ bytesOfNat 1 f ++ bytesOfNat 1 c ++
      bytesOfInt 8 th ++ bytesOfNat 4 h ++ bytesOfNat 1 ch ++ bytesOfNat 1 a ++ bytesOfNat 2 code ++ bytesOfNat 1 m
  | .clearWatch _ w => bytesOfNat 1 w
  | .readWatches _ => []
  | .readWatch _ w => bytesOfNat 1 w
  | .awaitFlags _ m d => bytesOfNat 3 m ++ bytesOfNat 2 d
  | .ackNotice _ c l => bytesOfNat 1 c ++ l.map (BitVec.ofNat 8)
  | .holdNotices _ | .releaseNotices _ => []
  | .discardNotice _ c => bytesOfNat 1 c
  | .testNotice _ c => bytesOfNat 1 c
  | .readNoticeState _ none => []
  | .readNoticeState _ (some c) => bytesOfNat 1 c
  | .clearTrip _ | .readTrip _ => []
  | .writeProfile _ g s l b => bytesOfNat 1 g ++ bytesOfNat 1 s ++ bytesOfNat 1 l ++ b
  | .readProfile _ g s => bytesOfNat 1 g ++ bytesOfNat 1 s
  | .identify _ | .resetController _ => []
  | .frameReceived | .frameGapTimeout | .framingError | .replyGrant | .noticeSent | .telegramComplete
  | .mainSupplyUp | .mainSupplyLost | .resetInputAsserted | .resetInputReleased | .startComplete
  | .channelReading .. | .holdExpiry .. | .recalibrationBegin | .recalibrationComplete | .meterPulse ..
  | .zeroFlowExpiry .. | .clockSecond | .crystalStop | .crystalResume | .periodBoundary .. | .closeComplete
  | .valveLimitChange .. | .travelDeadlineExpiry .. | .dwellExpiry .. | .dispatchIntervalExpiry
  | .startPendingExpiry .. | .stopPendingExpiry .. | .minimumRunExpiry .. | .unitRunningInputChange ..
  | .startDeadlineExpiry .. | .stopDeadlineExpiry .. | .restDeadlineExpiry .. | .startHistoryAgeOut ..
  | .towerFeedbackChange .. | .switchDeadlineExpiry .. | .towerStepExpiry .. | .offSpecExpiry ..
  | .esdInputChange .. | .awaitFlagsTimeout .. | .commitComplete .. | .profileToProfileExpiry | .settleExpiry
  | .byteReceived .. | .backupSupplyLost => []

end Sys2Proof
end

