-- ==== Sys2Proof/Machine/State.lean ====
section
/-! DEFINITION. The state of the part, block by block (00, Block overview), as plain data, and its value right after a
COLD START with an empty store. Field defaults are the reset values; INVENTORY.md names the rule of each. -/

namespace Sys2Proof.Machine

/-! ### Measurement Unit (01) -/

/-- Mode of an analog channel (1.1). -/
inductive ChanMode where
  | live | check
deriving DecidableEq, Repr

/-- Quality of an analog value (1.1), in the order of the table. -/
inductive Quality where
  | good | held | lost
deriving DecidableEq, Repr

/-- Check result of a channel in CHECK (1.1, R7). -/
inductive CheckResult where
  | value (v : Int)
  | outOfRange
deriving DecidableEq, Repr

/-- Live state of an analog channel (1.1); defaults are the values after any reset (R11). `passHeld` marks a channel
that the recalibration pass put into HELD (R9). -/
structure Channel where
  mode : ChanMode := .live
  raw : Option Nat := none
  value : Int := 0
  quality : Quality := .lost
  hold : Option Clk := none
  good : Nat := 0
  test : Option Nat := none
  check : Option CheckResult := none
  passHeld : Bool := false
deriving DecidableEq, Repr

/-- Live state of a meter run (1.6); defaults are the COLD START values (R17). `last` is on the millisecond counter. -/
structure Run where
  cv : Nat := 0
  acc : Nat := 0
  unvalued : Nat := 0
  last : Option Nat := none
  rate : Nat := 0
  zero : Option Clk := none
deriving DecidableEq, Repr

/-- Source of the station clock (1.7). -/
inductive ClockSource where
  | crystal | internal
deriving DecidableEq, Repr

/-- A recalibration pass (R9). -/
inductive Pass where
  | none | pending | running
deriving DecidableEq, Repr

/-- A period boundary raised and not yet taken, with its clock value and whether it is a day boundary (R20). -/
structure Boundary where
  clk : Clk
  day : Bool
deriving DecidableEq, Repr

/-- The Measurement Unit. `ms` is the millisecond counter of 1.6. -/
structure Mu where
  channels : List Channel := List.replicate 16 {}
  runs : List Run := List.replicate 7 {}
  pass : Pass := .none
  clock : Clk := 0#32
  set : Bool := false
  source : ClockSource := .crystal
  ms : Nat := 0
  boundaries : List Boundary := []
deriving DecidableEq, Repr

/-! ### Cavern Controller (02) -/

/-- The ten cavern states, in the order of 2.2. -/
inductive CavernState where
  | outOfService | shut | opening | idle | injecting | withdrawing | dwell | closing | tripped | valveFault
deriving DecidableEq, Repr

/-- Closing target (2.1). -/
inductive Target where
  | shut | tripped
deriving DecidableEq, Repr

/-- Which of the two well valve command outputs is driven (2.1). -/
inductive ValveCommand where
  | driveOpen | driveClose
deriving DecidableEq, Repr

/-- Well valve position (2.1, R22). -/
inductive Position where
  | opened | closed | travel | unknown
deriving DecidableEq, Repr

/-- Last direction (2.1). -/
inductive LastDir where
  | none | inject | withdraw
deriving DecidableEq, Repr

/-- Envelope status (2.1, R31). -/
inductive Envelope where
  | inside | above | below
deriving DecidableEq, Repr

/-- Live record of a cavern (2.1); defaults are the COLD START values of an absent cavern (R39). `openLimit` and
`closedLimit` are the two limit inputs of R22. -/
structure Cavern where
  present : Bool := false
  state : CavernState := .outOfService
  target : Option Target := none
  command : ValveCommand := .driveClose
  openLimit : Bool := false
  closedLimit : Bool := true
  last : LastDir := .none
  dwell : Option Clk := none
  travel : Option Clk := none
  injPermit : Nat := 0
  wdPermit : Nat := 0
  setpoint : Int := 0
  pressure : Int := 0
  quality : Quality := .lost
  envelope : Envelope := .inside
deriving DecidableEq, Repr

/-- The Cavern Controller: caverns C1..C8 and the two merit lists (R37). -/
structure Cvc where
  caverns : List Cavern := List.replicate 8 {}
  injMerit : List Nat := []
  wdMerit : List Nat := []
deriving DecidableEq, Repr

/-! ### Compressor Duty Manager (03) -/

/-- The eight unit states, in the order of 3.2. -/
inductive UnitState where
  | off | starting | running | stopping | resting | failed | lockedOut | maintenance
deriving DecidableEq, Repr

/-- Level of a unit's start/stop command output (3.1). -/
inductive UnitCommand where
  | run | stop
deriving DecidableEq, Repr

/-- Live record of a unit (3.1); defaults are the COLD START values of an absent unit (R60). `minRunTaken`: the
minimum run deadline has passed and its expiry has been taken; the deadline itself stays until the unit leaves
RUNNING (3.1). -/
structure CompUnit where
  present : Bool := false
  state : UnitState := .maintenance
  duty : Duty := .inject
  command : UnitCommand := .stop
  feedback : Bool := false
  start : Option Clk := none
  stop : Option Clk := none
  minRun : Option Clk := none
  minRunTaken : Bool := false
  rest : Option Clk := none
  failures : Nat := 0
  history : List Clk := []
  runSeconds : Nat := 0
  startCount : Nat := 0
deriving DecidableEq, Repr

/-- A start-pending or stop-pending deadline with its candidate (3.6). `taken`: the deadline has passed and a review
has found it so and left it in place (R50, R53). -/
structure PendingTimer where
  deadline : Clk
  candidate : Option Nat
  taken : Bool := false
deriving DecidableEq, Repr

/-- What the CDM keeps for one duty: duty list, running order, demand last handed, pending timers (3.4, 3.6). -/
structure DutyRec where
  order : List Nat := []
  running : List Nat := []
  demand : Nat := 0
  startPending : Option PendingTimer := none
  stopPending : Option PendingTimer := none
deriving DecidableEq, Repr

/-- The Compressor Duty Manager. -/
structure Cdm where
  units : List CompUnit := List.replicate 6 {}
  inject : DutyRec := {}
  boost : DutyRec := {}
deriving DecidableEq, Repr

/-! ### Drying Train Controller (04) -/

/-- Tower states, in the order of 4.1. -/
inductive TowerState where
  | standby | adsorbing | regenerating | cooling | fault
deriving DecidableEq, Repr

/-- Train states, in the order of 4.1; computed from the rest of the record by R62. -/
inductive TrainState where
  | offline | online | switching | saturated | offSpec
deriving DecidableEq, Repr

/-- Live record of a tower (4.1); defaults are the COLD START values (R80). `inletOpen`: inlet command OPEN;
`feedback`: open feedback MADE. -/
structure Tower where
  state : TowerState := .regenerating
  loading : Nat := 0
  residue : Nat := 0
  step : Option Clk := none
  inletOpen : Bool := false
  feedback : Bool := false
deriving DecidableEq, Repr

/-- A switch in flight (4.1). -/
structure Switch where
  incoming : TowerId
  deadline : Clk
deriving DecidableEq, Repr

/-- Live record of a train (4.1); its state is computed by R62. -/
structure Train where
  present : Bool := false
  inService : Bool := false
  offSpec : Bool := false
  offSpecDeadline : Option Clk := none
  switch : Option Switch := none
  towerA : Tower := {}
  towerB : Tower := {}
deriving DecidableEq, Repr

/-- The Drying Train Controller: trains T1..T4. -/
structure Dtc where
  trains : List Train := List.replicate 4 {}
deriving DecidableEq, Repr

/-! ### Account Book (05) -/

/-- Account states, in the order of 5.2. -/
inductive AccountState where
  | closed | opened | suspended
deriving DecidableEq, Repr

/-- Account classes (5.2). -/
inductive AccountClass where
  | firm | interruptible
deriving DecidableEq, Repr

/-- Reasons of a confirmed quantity, in the order of 5.3. -/
inductive Reason where
  | none | rate | space | inventory | station | suspended
deriving DecidableEq, Repr

/-- A slot record of a nomination book (5.3). -/
structure Slot where
  n : Int := 0
  nominated : Bool := false
  c : Int := 0
  reason : Reason := .none
deriving DecidableEq, Repr

/-- An account record (5.2); defaults are the COLD START values (R102). -/
structure Account where
  state : AccountState := .closed
  code : Nat := 0
  cls : AccountClass := .firm
  space : Nat := 0
  rin : Nat := 0
  rwd : Nat := 0
  inventory : Int := 0
  fuel : Nat := 0
  mark : Bool := false
  book : List Slot := List.replicate 48 {}
deriving DecidableEq, Repr

/-- A capacity slot (5.3, R91): capacities and whether its source is DECLARED. -/
structure CapSlot where
  inj : Nat := 0
  wd : Nat := 0
  declared : Bool := false
deriving DecidableEq, Repr

/-- The Account Book. -/
structure Acb where
  loaded : Bool := false
  running : Nat := 0
  accounts : List Account := List.replicate 32 {}
  caps : List CapSlot := List.replicate 48 {}
deriving DecidableEq, Repr

/-! ### Flow Planner (06) -/

/-- Causes of a planner step, in the order of 6.1. -/
inductive StepCause where
  | start | enable | hold | trip | interval | restep
deriving DecidableEq, Repr

/-- The period figures of a step (6.1, R109 to R111). -/
structure Figures where
  slot : Nat
  target : Int
  soFar : Int
  timeLeft : Nat
  effective : Nat
  required : Int
deriving DecidableEq, Repr

/-- The planner record (6.1). -/
structure Fpl where
  active : Bool := false
  dispatch : Option Clk := none
  figures : Option Figures := none
  injSum : Nat := 0
  wdSum : Nat := 0
  injLimit : Nat := 0
  wdLimit : Nat := 0
  setpoint : Int := 0
  injDemand : Nat := 0
  boostDemand : Nat := 0
  poolLeft : Nat := 0
  placed : Nat := 0
  lastStep : Option (Clk × StepCause) := none
  header : Int := 0
  headerQuality : Quality := .lost
deriving DecidableEq, Repr

/-! ### Settlement Unit (07) -/

/-- Direction of a meter run (1.6), in the order of the table. -/
inductive RunDir where
  | inject | withdraw | unused
deriving DecidableEq, Repr

/-- A snapshot (7.1): the whole kWh of M1..M6 with the direction each had, and of FUEL. -/
structure Snapshot where
  runs : List (RunDir × Nat)
  fuel : Nat
deriving DecidableEq, Repr

/-- A period entered for closing (7.1): number, start clock, and the snapshot of a METERED one (none: UNMETERED). -/
structure Due where
  number : Nat
  start : Clk
  snapshot : Option Snapshot
deriving DecidableEq, Repr

/-- The close in flight (7.1): the period and the slot closed. -/
structure Close where
  due : Due
  slot : Nat
deriving DecidableEq, Repr

/-- Allocation cases, in the order of R134. -/
inductive Case where
  | tolerance | shortInject | shortWithdraw | oba
deriving DecidableEq, Repr

/-- One entry of a period record's shipper list (R134). -/
structure ShipperEntry where
  account : Nat
  c : Int
  a : Int
  f : Nat
deriving DecidableEq, Repr

/-- A period record (R134). -/
structure PeriodRecord where
  number : Nat
  start : Clk
  slot : Nat
  metered : Bool
  c : Int
  eIn : Nat
  eOut : Nat
  d : Int
  f : Nat
  obaAlloc : Int
  obaFuel : Nat
  case : Case
  shippers : List ShipperEntry
deriving DecidableEq, Repr

/-- The Settlement Unit (7.1). The close-in-progress state is IN_FLIGHT exactly when there is a current close.
`missedTaken`: how many missed boundaries the start in progress has taken singly, entered for closing (R136) or handed to
an UNLOADED book (R139). -/
structure Su where
  balance : Int := 0
  lastNumber : Nat := 0
  openStart : Option Clk := none
  current : Option Close := none
  due : List Due := []
  skipped : Nat := 0
  missedTaken : Nat := 0
  ring : List PeriodRecord := []
deriving DecidableEq, Repr

/-! ### Watch and Notice Unit (08) -/

/-- The internal events a watch may name, in the order of R144. -/
inductive EventName where
  | periodClosed | dayRolled | sensorLost | startDeferred | startFailed | unitLockedOut | trainSaturated
  | trainOffSpec | wetGas | clockDegraded | obaLimit | profileCommitted | curtailment
deriving DecidableEq, Repr

/-- Causes of a lock-out (R41, R52, R55). -/
inductive LockoutCause where
  | uncommanded | start | runLost
deriving DecidableEq, Repr

/-- What an internal event carries beside the index its filter passes (R52, R55, R92, R125, R131). -/
inductive EventData where
  | none
  | failures (n : Nat)
  | cause (c : LockoutCause)
  | slot (k : Nat)
  | closed (number : Nat) (case : Case)
  | balance (b : Int)
deriving DecidableEq, Repr

/-- An occurrence of an internal event: its name, the index it carries, and what else it carries. -/
structure Occurrence where
  name : EventName
  index : Option Nat
  data : EventData
deriving DecidableEq, Repr

/-- A watch's source (8.1); an EVENT source carries its filter, none for ANY. -/
inductive WatchSource where
  | channel (i : Nat)
  | cavernPressure (i : Nat)
  | trainLoading (i : Nat)
  | obaBalance
  | accountInventory (i : Nat)
  | meterRate (i : Nat)
  | event (name : EventName) (filter : Option Nat)
deriving DecidableEq, Repr

/-- Watch conditions, in the order of 8.1. -/
inductive WatchCondition where
  | risesAbove | fallsBelow | crosses | isAbove | isBelow | occurs
deriving DecidableEq, Repr

/-- Watch actions, in the order of 8.1. -/
inductive WatchAction where
  | notify | tripCavern | tripStation
deriving DecidableEq, Repr

/-- Watch states, in the order of 8.1. -/
inductive WatchState where
  | empty | disarmed | armed | fired
deriving DecidableEq, Repr

/-- The latch of an edge condition (8.1). -/
inductive Latch where
  | high | low
deriving DecidableEq, Repr

/-- What the host writes into a watch (8.1). -/
structure WatchDef where
  source : WatchSource
  condition : WatchCondition
  threshold : Int
  hysteresis : Nat
  channel : Option Nat
  action : WatchAction
  hostCode : Nat
  oneShot : Bool
deriving DecidableEq, Repr

/-- A watch record (8.1); an EMPTY watch holds no definition. -/
structure Watch where
  defn : Option WatchDef := none
  state : WatchState := .empty
  fired : Bool := false
  latch : Option Latch := none
deriving DecidableEq, Repr

/-- The source of a notice entry (8.2). -/
inductive NoticeSource where
  | watch (i : Nat)
  | trip (code : Nat)
  | test
deriving DecidableEq, Repr

/-- An entry of a channel's list (8.2). -/
structure NoticeEntry where
  source : NoticeSource
  code : Nat
  first : Clk
  count : Nat
deriving DecidableEq, Repr

/-- A list of a channel with its OVERFLOW marker (8.2). -/
structure NoticeList where
  entries : List NoticeEntry := []
  overflow : Bool := false
deriving DecidableEq, Repr

/-- States of a notification channel, in the order of 8.2. -/
inductive NoticeState where
  | idle | pending | outstanding
deriving DecidableEq, Repr

/-- A notification channel (8.2). -/
structure NoticeChannel where
  state : NoticeState := .idle
  held : Bool := false
  list : NoticeList := {}
  late : NoticeList := {}
deriving DecidableEq, Repr

/-- The Watch and Notice Unit: watches W0..W23 and channels N1..N3. -/
structure Wnu where
  watches : List Watch := List.replicate 24 {}
  channels : List NoticeChannel := List.replicate 3 {}
deriving DecidableEq, Repr

/-! ### Trip Unit (08) -/

/-- The snapshot of a trip record (R155); nothing is recorded of a cavern or unit that is absent at the launch. -/
structure TripSnapshot where
  tripped : Bool
  active : Bool
  setpoint : Int
  caverns : List (Option (CavernState × Int × Quality × Int))
  units : List (Option UnitState)
  trains : List TrainState
  soFar : Int
  balance : Int
deriving DecidableEq, Repr

/-- A trip record (R155): scope none is STATION; `watch` is the watch index and host code; second failures are caverns
with the clock of the failure, their code 0x050 not stored. -/
structure TripRecord where
  code : Nat
  scope : Option Nat
  clock : Clk
  watch : Option (Nat × Nat)
  acknowledged : Bool
  secondFailures : List (Nat × Clk)
  snapshot : TripSnapshot
deriving DecidableEq, Repr

/-- The Trip Unit (8.3). `esd`: the ESD level is ASSERTED; `headerAbove`: header status ABOVE. -/
structure Tru where
  tripped : Bool := false
  esd : Bool := false
  headerAbove : Bool := false
  current : Option TripRecord := none
  prior : Option TripRecord := none
  cascade : Nat := 0
deriving DecidableEq, Repr

/-! ### Profile Store (09) -/

/-- Roles of a channel, in the order of 1.1. -/
inductive Role where
  | pressure | temperature | dewpoint | generic
deriving DecidableEq, Repr

/-- Definition of a channel (1.1). -/
structure ChanDef where
  role : Role
  zero : Int
  span : Int
  hold : Nat
deriving DecidableEq, Repr

/-- Definition of a run (1.6); FUEL has no direction and no bound train. -/
structure RunDef where
  dir : Option RunDir
  weight : Nat
  train : Option Nat
  timeout : Nat
deriving DecidableEq, Repr

/-- The SITE group (9.1). Its recalibrate field is `Mu.pass` (R9). -/
structure Site where
  linkRate : Nat
  scanPeriod : Nat
  startHour : Nat
  leadTime : Nat
  catchUpFloor : Nat
  dispatchInterval : Nat
  maxTrim : Nat
  settleInterval : Nat
  tolerance : Nat
  obaLimit : Nat
  nomInj : Nat
  nomWd : Nat
  injRatchet : List (Int × Int)
  wdRatchet : List (Int × Int)
  header : Option Nat
  headerLimit : Nat
  channels : List ChanDef
  runs : List RunDef
deriving DecidableEq, Repr

/-- Definition of a cavern (2.1); the defaults are those of an absent cavern, whose fields are carried as 0 (R186). -/
structure CavernDef where
  present : Bool := false
  channel : Option Nat := none
  pMin : Nat := 0
  pMax : Nat := 0
  margin : Nat := 0
  taper : Nat := 0
  ramp : Nat := 0
  k : Nat := 0
  qInj : Nat := 0
  qWd : Nat := 0
  boost : Nat := 0
  dwell : Nat := 0
  travel : Nat := 0
deriving DecidableEq, Repr

/-- Definition of a unit (3.1). -/
structure UnitDef where
  present : Bool := false
  rated : Nat := 0
  duty : Duty := .inject
  budget : Nat := 0
  minRun : Nat := 0
  minRest : Nat := 0
  startTimeout : Nat := 0
  stopTimeout : Nat := 0
  startDelay : Nat := 0
  stopDelay : Nat := 0
deriving DecidableEq, Repr

/-- Definition of a train (4.1). -/
structure TrainDef where
  present : Bool := false
  capacity : Nat := 0
  water : Nat := 0
  fraction : Nat := 0
  regen : Nat := 0
  cool : Nat := 0
  dewChannel : Nat := 0
  dewLimit : Int := 0
  hysteresis : Nat := 0
  dwell : Nat := 0
  inletChannel : Nat := 0
  travel : Nat := 0
deriving DecidableEq, Repr

/-- The PLANT group (9.1): units, trains and the water table's points. -/
structure Plant where
  units : List UnitDef
  trains : List TrainDef
  water : List (Int × Int)
deriving DecidableEq, Repr

/-- The three profile groups, in the order of 9.1. -/
inductive Group where
  | site | caverns | plant
deriving DecidableEq, Repr

/-- Commit states, in the order of 9.1. -/
inductive CommitState where
  | committed | committing | failed
deriving DecidableEq, Repr

/-- A stored image: the contents and whether they match the check value stored with them (R170, R173). -/
structure Image (α : Type) where
  contents : α
  checked : Bool
deriving DecidableEq, Repr

/-- What the PST holds of one group (9.1): the live contents (none: INVALID), the commit state and the stored image. -/
structure GroupRec (α : Type) where
  live : Option α := none
  commit : Option CommitState := none
  image : Option (Image α) := none
deriving DecidableEq, Repr

/-- The staging record of a write in progress (R164). -/
structure Staging where
  group : Group
  next : Nat
  bytes : List Byte
deriving DecidableEq, Repr

/-- The reset kinds (00, Reset kinds). -/
inductive StartKind where
  | cold | retained | controller
deriving DecidableEq, Repr

/-- The Profile Store (9.1), with the retention domain's mark and check (R174). -/
structure Pst where
  site : GroupRec Site := {}
  caverns : GroupRec (List CavernDef) := {}
  plant : GroupRec Plant := {}
  staging : Option Staging := none
  profile : Option Clk := none
  settle : Option Clk := none
  queue : List Group := []
  writing : Option Group := none
  startKind : StartKind := .cold
  mark : Bool := true
  checkMatches : Bool := true
deriving DecidableEq, Repr

/-! ### Station Link Unit (10) -/

/-- Statuses in the order of their codes (11.6). -/
inductive Status where
  | ok | busy | queueFull | unknownKind | badLength | badField | noSuch | wrongState | notAtRest | settling | tooLate
  | insufficient | noSpace | tripped | unloaded | clockUnset | notReady
deriving DecidableEq, Repr

/-- Detail subjects in the order of their codes (11.1). -/
inductive Subject where
  | none | field | cavern | unit | train | group | condition | slot | kind
deriving DecidableEq, Repr

/-- Detail of a reply: subject and value (11.1). -/
structure Detail where
  subject : Subject := .none
  value : Nat := 0
deriving DecidableEq, Repr

/-- One number of a reply's body and the bytes it takes (R185). -/
structure Fld where
  width : Nat
  value : Int
deriving DecidableEq, Repr

/-- Where a reply comes from: an entry of the request queue, by its arrival order, or the refusal record (R181). -/
inductive Origin where
  | entry (arrival : Nat)
  | refusal
deriving DecidableEq, Repr

/-- A reply (R180): the kind byte as sent, the tag, the head and the body. -/
structure Reply where
  origin : Origin
  kind : Nat
  tag : Nat
  status : Status
  detail : Detail
  body : List Fld
deriving DecidableEq, Repr

/-- What the transmitter may be sending: a reply, or the notice of a channel with its list at the grant (R150). -/
inductive Telegram where
  | reply (r : Reply)
  | notice (channel : Nat) (list : NoticeList)
deriving DecidableEq, Repr

/-- The owning blocks of requests (10.8). -/
inductive Block where
  | mu | cvc | cdm | dtc | acb | fpl | su | wnu | tru | pst | slu
deriving DecidableEq, Repr

/-- States of a queue entry (10.3). WAITING is split by what is waited for. -/
inductive EntryState where
  | inTurn
  | waitingClose
  | waitingFlags (mask : Nat) (deadline : Clk)
  | answered
deriving DecidableEq, Repr

/-- An entry of the request queue (10.3): the request its frame carries, its owning block, arrival order and state. -/
structure QEntry where
  request : Instr
  block : Block
  arrival : Nat
  state : EntryState
deriving DecidableEq, Repr

/-- The frame receiver (10.2): HUNTING, or IN_FRAME with the bytes after the start byte and the time of the last
byte. -/
inductive Receiver where
  | hunting
  | inFrame (bytes : List Byte) (lastByte : Nat)
deriving DecidableEq, Repr

/-- The Station Link Unit (10). `newRates` holds the link rates that applied SITE writes have set and that wait for
the last byte of their replies (R176); `resetReply` is the arrival order of the RESET_CONTROLLER taken (R183). -/
structure Slu where
  rate : Nat := Config.linkRateInvalid
  newRates : List (Nat × Nat) := []
  receiver : Receiver := .hunting
  queue : List QEntry := []
  arrivals : Nat := 0
  refusal : Option Reply := none
  order : List Reply := []
  sending : Option Telegram := none
  resetPending : Bool := false
  resetReply : Option Nat := none
deriving DecidableEq, Repr

/-! ### The part -/

/-- Where the part stands as a whole (R172): without main supply, held by the reset input, in a start, or running.
`power`: the start to be made, or in progress, is that of the main supply coming up. -/
inductive Phase where
  | off
  | held (power : Bool)
  | starting (power : Bool)
  | running
deriving DecidableEq, Repr

/-- The state of the part: its eleven blocks, its phase, the level of the reset input, and the queue of the commands
that wait. -/
structure State where
  pending : List Instr := []
  phase : Phase := .running
  resetInput : Bool := false
  mu : Mu := {}
  cvc : Cvc := {}
  cdm : Cdm := {}
  dtc : Dtc := {}
  acb : Acb := {}
  fpl : Fpl := {}
  su : Su := {}
  wnu : Wnu := {}
  tru : Tru := {}
  pst : Pst := {}
  slu : Slu := {}
deriving DecidableEq, Repr

/-- Faults of the part: none. Every row of the opcode table is given an effect by its rule, a request that cannot be
done is answered with a refusal status (R180), and a protective condition is a trip (R156); all are next states. -/
inductive Fault where
deriving DecidableEq, Repr

/-- Refusals of the model. -/
inductive Refusal where
  /-- Raised only by an arm of `exec` for a command that has no meaning yet; no arm does. Safe. -/
  | notModelled (mnemonic : String)
deriving DecidableEq, Repr

/-- The part right after a COLD START with an empty store, its start completed: every group INVALID, the clock at 0
and UNSET, the book UNLOADED, the planner HELD after its START step (R11, R17, R18, R39, R60, R80, R102, R121, R140,
R161, R162, R173, R184; log entry 5). -/
def State.reset : State := { fpl := { lastStep := some (0#32, .start) } }

end Sys2Proof.Machine
end

