-- ==== Sys2Proof/Machine/Ops.lean ====
section
/-! DEFINITION. The shared operations: the record of one event (`Ev`), clock and deadline tests, accessors of the
profile groups and of each block's records, and the arithmetic the chapters share. -/

namespace Sys2Proof.Machine

/-! ### One event -/

/-- A trip handed to the Trip Unit: code, cavern scope (none: station), watch index and host code (R154, R156), and the
index of the unit that has failed to stop (R54). A trip record has no field for that unit (R155), so it is carried as far
as the launch. -/
structure Launch where
  code : Nat
  scope : Option Nat := none
  watch : Option (Nat × Nat) := none
  unit : Option Nat := none
deriving DecidableEq, Repr

/-- An event in progress: the state so far, whether the planner has been handed a change (R108), the trips handed
to the Trip Unit and not yet launched (R156), and the internal events raised to the Watch and Notice Unit, oldest first,
each with what it carries (R144); the unit keeps no record of them, so none goes into the state. -/
structure Ev where
  s : State
  restep : Bool := false
  launches : List Launch := []
  raised : List Occurrence := []
deriving DecidableEq, Repr

/-- Change the state of an event. -/
def Ev.map (ev : Ev) (f : State → State) : Ev := { ev with s := f ev.s }

/-- Hand the planner a change when `b` holds (R108). -/
def Ev.hand (ev : Ev) (b : Bool) : Ev := { ev with restep := ev.restep || b }

/-- Hand a trip to the Trip Unit (R156). -/
def Ev.launch (ev : Ev) (l : Launch) : Ev := { ev with launches := ev.launches ++ [l] }

/-- An event that begins at a state. -/
def State.ev (s : State) : Ev := { s := s }

/-! ### Clock and deadlines (00, Time) -/

/-- The station clock. -/
def State.clock (s : State) : Clk := s.mu.clock

/-- A clock value has been reached: the top bit of clock − deadline is 0 (00, Time). -/
def passed (clock d : Clk) : Bool := (clock - d).msb == false

/-- A deadline that is running has passed. -/
def due (clock : Clk) (d : Option Clk) : Bool := d.any (passed clock)

/-- The clock plus a span in seconds. -/
def State.after (s : State) (n : Nat) : Clk := s.clock + BitVec.ofNat 32 n

/-- Seconds left to a deadline; 0 once it has passed. -/
def left (clock d : Clk) : Nat := if passed clock d then 0 else (d - clock).toNat

/-! ### Arithmetic -/

/-- Bring a value into a range. -/
def clamp (lo hi v : Int) : Int := max lo (min hi v)

/-- Sum of a list of integers. -/
def sumInt (l : List Int) : Int := l.foldl (· + ·) 0

/-- Sum of a list of naturals. -/
def sumNat (l : List Nat) : Nat := l.foldl (· + ·) 0

/-- Value at `x` on the segments between points: the first value below the first point, the last at or above the last,
and otherwise v + (v' − v) × (x − p) / (p' − p), the quotient truncated toward zero (R64, R94). -/
def interpolate : List (Int × Int) → Int → Int
  | [], _ => 0
  | [(_, v)], _ => v
  | (p, v) :: (p', v') :: rest, x =>
    if x < p then v
    else if x < p' then v + ((v' - v) * (x - p)).tdiv (p' - p)
    else interpolate ((p', v') :: rest) x

/-- Proportional reduction (R96): the shares of total `q` by the weights, largest remainder first, the lower index
first among equal remainders. A party of weight 0 gets nothing, so the whole list of accounts may be given. -/
def proportional (q : Nat) (weights : List Nat) : List Nat :=
  let w := sumNat weights
  let base := weights.map fun x => q * x / w
  let rem := weights.map fun x => q * x % w
  let leftover := q - sumNat base
  (List.range weights.length).map fun i =>
    let r := rem.getD i 0
    let before := (List.range weights.length).countP fun j =>
      r < rem.getD j 0 || (rem.getD j 0 == r && j < i)
    base.getD i 0 + if before < leftover ∧ r ≠ 0 then 1 else 0

/-- Remove an index from a list, the others keeping their order. -/
def without (l : List Nat) (x : Nat) : List Nat := l.filter (· != x)

/-! ### Profile groups -/

/-- The SITE group in force. -/
def State.site (s : State) : Option Site := s.pst.site.live

/-- The gas-day start hour in force (R163). -/
def State.startHour (s : State) : Nat := (s.site.map Site.startHour).getD Config.startHourInvalid

/-- The lead time in force (5.3; log entry 8). -/
def State.leadTime (s : State) : Nat := (s.site.map Site.leadTime).getD Config.leadTimeInvalid

/-- The catch-up floor in force (R111; log entry 8). -/
def State.catchUpFloor (s : State) : Nat := (s.site.map Site.catchUpFloor).getD Config.catchUpFloorInvalid

/-- The maximum trim in force (R19; log entry 8). -/
def State.maxTrim (s : State) : Nat := (s.site.map Site.maxTrim).getD Config.maxTrimInvalid

/-- The settle interval in force (R169). -/
def State.settleInterval (s : State) : Nat := (s.site.map Site.settleInterval).getD Config.settleInvalid

/-- The settlement tolerance T in force (R126; log entry 7). -/
def State.tolerance (s : State) : Nat := (s.site.map Site.tolerance).getD Config.toleranceInvalid

/-- The OBA limit L in force (R126; log entry 7). -/
def State.obaLimit (s : State) : Nat := (s.site.map Site.obaLimit).getD Config.obaLimitInvalid

/-- The nominal injection capacity in force, 0 while SITE is INVALID (R91). -/
def State.nomInj (s : State) : Nat := (s.site.map Site.nomInj).getD 0

/-- The nominal withdrawal capacity in force, 0 while SITE is INVALID (R91). -/
def State.nomWd (s : State) : Nat := (s.site.map Site.nomWd).getD 0

/-- The header channel of a VALID SITE (R154). -/
def State.headerChannel (s : State) : Option Nat := s.site.bind Site.header

/-- Definition of a channel while SITE is VALID. -/
def State.chanDef (s : State) (c : Nat) : Option ChanDef := s.site.bind (·.channels[c]?)

/-- Definition of a run while SITE is VALID. -/
def State.runDef (s : State) (r : Nat) : Option RunDef := s.site.bind (·.runs[r]?)

/-- Definition of a present cavern; none for an absent one and while CAVERNS is INVALID (R21). -/
def State.cavDef (s : State) (c : Nat) : Option CavernDef :=
  (s.pst.caverns.live.bind (·[c]?)).filter (·.present)

/-- Definition of a present unit; none for an absent one and while PLANT is INVALID (R40). -/
def State.unitDef (s : State) (u : Nat) : Option UnitDef :=
  (s.pst.plant.live.bind (·.units[u]?)).filter (·.present)

/-- Definition of a present train; none for an absent one and while PLANT is INVALID (R61). -/
def State.trainDef (s : State) (t : Nat) : Option TrainDef :=
  (s.pst.plant.live.bind (·.trains[t]?)).filter (·.present)

/-! ### Records -/

/-- Record of a channel. -/
def State.chan (s : State) (c : Nat) : Channel := s.mu.channels.getD c {}

/-- Record of a run. -/
def State.run (s : State) (r : Nat) : Run := s.mu.runs.getD r {}

/-- Record of a cavern. -/
def State.cav (s : State) (c : Nat) : Cavern := s.cvc.caverns.getD c {}

/-- Record of a unit. -/
def State.unit (s : State) (u : Nat) : CompUnit := s.cdm.units.getD u {}

/-- Record of a train. -/
def State.train (s : State) (t : Nat) : Train := s.dtc.trains.getD t {}

/-- Record of an account. -/
def State.account (s : State) (a : Nat) : Account := s.acb.accounts.getD a {}

/-- Capacity slot. -/
def State.capSlot (s : State) (k : Nat) : CapSlot := s.acb.caps.getD k {}

/-- Record of a watch. -/
def State.watch (s : State) (w : Nat) : Watch := s.wnu.watches.getD w {}

/-- Record of a notification channel. -/
def State.notice (s : State) (n : Nat) : NoticeChannel := s.wnu.channels.getD n {}

/-- What the CDM keeps for a duty. -/
def State.duty (s : State) : Duty → DutyRec
  | .inject => s.cdm.inject
  | .boost => s.cdm.boost

/-- Slot record of an account's book. -/
def Account.slot (a : Account) (k : Nat) : Slot := a.book.getD k {}

/-- Tower of a train. -/
def Train.tower (t : Train) : TowerId → Tower
  | .a => t.towerA
  | .b => t.towerB

/-- The other tower (4.1). -/
def otherTower : TowerId → TowerId
  | .a => .b
  | .b => .a

/-- Change a channel's record. -/
def State.updChan (s : State) (c : Nat) (f : Channel → Channel) : State :=
  { s with mu := { s.mu with channels := s.mu.channels.modify c f } }

/-- Change a run's record. -/
def State.updRun (s : State) (r : Nat) (f : Run → Run) : State :=
  { s with mu := { s.mu with runs := s.mu.runs.modify r f } }

/-- Change a cavern's record. -/
def State.updCav (s : State) (c : Nat) (f : Cavern → Cavern) : State :=
  { s with cvc := { s.cvc with caverns := s.cvc.caverns.modify c f } }

/-- Change a unit's record. -/
def State.updUnit (s : State) (u : Nat) (f : CompUnit → CompUnit) : State :=
  { s with cdm := { s.cdm with units := s.cdm.units.modify u f } }

/-- Change what the CDM keeps for a duty. -/
def State.updDuty (s : State) (d : Duty) (f : DutyRec → DutyRec) : State :=
  match d with
  | .inject => { s with cdm := { s.cdm with inject := f s.cdm.inject } }
  | .boost => { s with cdm := { s.cdm with boost := f s.cdm.boost } }

/-- Change a train's record. -/
def State.updTrain (s : State) (t : Nat) (f : Train → Train) : State :=
  { s with dtc := { s.dtc with trains := s.dtc.trains.modify t f } }

/-- Change a tower of a train. -/
def Train.updTower (t : Train) (w : TowerId) (f : Tower → Tower) : Train :=
  match w with
  | .a => { t with towerA := f t.towerA }
  | .b => { t with towerB := f t.towerB }

/-- Change an account's record. -/
def State.updAccount (s : State) (a : Nat) (f : Account → Account) : State :=
  { s with acb := { s.acb with accounts := s.acb.accounts.modify a f } }

/-- Change a watch's record. -/
def State.updWatch (s : State) (w : Nat) (f : Watch → Watch) : State :=
  { s with wnu := { s.wnu with watches := s.wnu.watches.modify w f } }

/-- Change a notification channel's record. -/
def State.updNotice (s : State) (n : Nat) (f : NoticeChannel → NoticeChannel) : State :=
  { s with wnu := { s.wnu with channels := s.wnu.channels.modify n f } }

/-! ### Periods and slots (00, R20, R82) -/

/-- Start of the period a clock value is in. -/
def periodStart (c : Clk) : Clk := BitVec.ofNat 32 (c.toNat / 3600 * 3600)

/-- The first period boundary after a clock value: the next multiple of 3,600, or 0 at the wrap (R20). -/
def nextBoundary (c : Clk) : Clk := BitVec.ofNat 32 ((c.toNat / 3600 + 1) * 3600 % 4294969200)

/-- A boundary is a day boundary: clock mod 86,400 is the start hour, or 0 at the wrap (R20). -/
def isDay (hour : Nat) (c : Clk) : Bool := c.toNat % 86400 == hour * 3600 || c == 0#32

/-- The slot of the period a clock value is in, counted from the most recent day boundary; the wrap at 0 is one, so
before the first start hour after it the count is from 0 (R82; log entry 25). -/
def slotOfClock (hour : Nat) (c : Clk) : Nat :=
  if hour * 3600 ≤ c.toNat then (c.toNat - hour * 3600) % 86400 / 3600 else c.toNat / 3600

/-- Whether the period that starts at a clock value ends at a day boundary, by the start hour in force now (for a close
kept over a start, the model's choice, log entry 43). -/
def State.endsDay (s : State) (start : Clk) : Bool := isDay s.startHour (nextBoundary start)

/-- The slot after the running slot, or the running slot under an UNLOADED book: where R99's runs begin. -/
def State.firstOpen (s : State) : Nat := if s.acb.loaded then s.acb.running + 1 else s.acb.running

/-- A close is in flight (7.1). -/
def State.inFlight (s : State) : Bool := s.su.current.isSome

/-- The settle interval is running (R169): its deadline has not been removed by its expiry. -/
def State.settling (s : State) : Bool := s.pst.settle.isSome

end Sys2Proof.Machine
end

