-- ==== Sys2Proof/Machine/Operands.lean ====
section
/-! DEFINITION. Operands and answers: how a request's field is judged, the codes of named values (R185), and the fields
replies are built from (R185, R186; widths without a layout are those of log entry 9). -/

namespace Sys2Proof.Machine

/-! ### Answers -/

/-- What the taking of a request comes to: OK with a body, a refusal with its detail, or the wait of an AWAIT_FLAGS
(R180, R148). -/
inductive Answer where
  | ok (body : List Fld)
  | no (status : Status) (detail : Detail)
  | wait (mask : Nat) (deadline : Clk)
deriving DecidableEq, Repr

/-- A refusal without detail. -/
def Answer.refuse (st : Status) : Answer := .no st {}

/-- BAD_FIELD naming a field's ordinal; an ordinal above 255 is carried as 255 (11.1). -/
def Answer.badField (ordinal : Nat) : Answer := .no .badField ⟨.field, min ordinal 255⟩

/-- The ordinal of the first field that fails, of a list of ordinals with their verdicts. -/
def firstBad (l : List (Nat × Bool)) : Option Nat := (l.find? fun p => !p.2).map Prod.fst

/-- Refuse by the first failing field, or go on. -/
def judged (s : State) (l : List (Nat × Bool)) (go : Ev × Answer) : Ev × Answer :=
  match firstBad l with
  | some k => (s.ev, .badField k)
  | none => go

/-- Refuse with a status when a condition holds, or go on. -/
def refuseIf (s : State) (b : Bool) (a : Answer) (go : Ev × Answer) : Ev × Answer :=
  if b then (s.ev, a) else go

/-- Answer OK from a state, nothing changed. -/
def answerOnly (s : State) (body : List Fld) : Ev × Answer := (s.ev, .ok body)

/-! ### Fields of replies -/

/-- A one-byte field. -/
def b1 (n : Nat) : Fld := ⟨1, n⟩

/-- A two-byte field. -/
def b2 (n : Nat) : Fld := ⟨2, n⟩

/-- A four-byte field. -/
def b4 (n : Nat) : Fld := ⟨4, n⟩

/-- An eight-byte field. -/
def b8 (n : Nat) : Fld := ⟨8, n⟩

/-- A signed four-byte field. -/
def i4 (v : Int) : Fld := ⟨4, v⟩

/-- A signed eight-byte field. -/
def i8 (v : Int) : Fld := ⟨8, v⟩

/-- A yes/no field: 1 for yes, 0 otherwise (R185). -/
def yn (b : Bool) : Fld := ⟨1, if b then 1 else 0⟩

/-- A field that may be absent: all ones in its width when it is (R185). -/
def optU (w : Nat) : Option Nat → Fld
  | some n => ⟨w, n⟩
  | none => ⟨w, -1⟩

/-- A signed field that may be absent: the most negative value of its width when it is (R185). -/
def optI (w : Nat) : Option Int → Fld
  | some v => ⟨w, v⟩
  | none => ⟨w, -(256 ^ w / 2 : Nat)⟩

/-- A clock value in four bytes. -/
def clk4 (c : Clk) : Fld := ⟨4, c.toNat⟩

/-- A number that may be absent and whose range reaches all ones: a presence byte, and four bytes that are 0 when it is
absent (R185; log entry 9). -/
def marked4 (n : Option Nat) : List Fld := [yn n.isSome, b4 (n.getD 0)]

/-- A clock value that may be absent. -/
def optClk (c : Option Clk) : List Fld := marked4 (c.map BitVec.toNat)

/-- Two nibbles in one byte, the first named high (R185). -/
def nibbles (hi lo : Nat) : Fld := ⟨1, hi * 16 + lo⟩

/-- The bytes of a field: big-endian, two's complement (R185). -/
def Fld.bytes (f : Fld) : List Byte := bytesOfInt f.width f.value

/-- The bytes of a body. -/
def fldBytes (l : List Fld) : List Byte := l.flatMap Fld.bytes

/-! ### Codes of named values: their position in the chapter's table or list (R185) -/

def ChanMode.code : ChanMode → Nat
  | .live => 0 | .check => 1

def Quality.code : Quality → Nat
  | .good => 0 | .held => 1 | .lost => 2

def Role.code : Role → Nat
  | .pressure => 0 | .temperature => 1 | .dewpoint => 2 | .generic => 3

def RunDir.code : RunDir → Nat
  | .inject => 0 | .withdraw => 1 | .unused => 2

def CavernState.code : CavernState → Nat
  | .outOfService => 0 | .shut => 1 | .opening => 2 | .idle => 3 | .injecting => 4 | .withdrawing => 5 | .dwell => 6
  | .closing => 7 | .tripped => 8 | .valveFault => 9

def Target.code : Target → Nat
  | .shut => 0 | .tripped => 1

def ValveCommand.code : ValveCommand → Nat
  | .driveOpen => 0 | .driveClose => 1

def Position.code : Position → Nat
  | .opened => 0 | .closed => 1 | .travel => 2 | .unknown => 3

def LastDir.code : LastDir → Nat
  | .none => 0 | .inject => 1 | .withdraw => 2

def Envelope.code : Envelope → Nat
  | .inside => 0 | .above => 1 | .below => 2

def UnitState.code : UnitState → Nat
  | .off => 0 | .starting => 1 | .running => 2 | .stopping => 3 | .resting => 4 | .failed => 5 | .lockedOut => 6
  | .maintenance => 7

def UnitCommand.code : UnitCommand → Nat
  | .run => 0 | .stop => 1

def dutyCode : Duty → Nat
  | .inject => 0 | .boost => 1

def towerCode : TowerId → Nat
  | .a => 0 | .b => 1

def TowerState.code : TowerState → Nat
  | .standby => 0 | .adsorbing => 1 | .regenerating => 2 | .cooling => 3 | .fault => 4

/-- The states of a train by their place in the list of 4.1; that this list numbers them, and not the table of R62, which
has another order, is the model's choice (log entry 10). -/
def TrainState.code : TrainState → Nat
  | .offline => 0 | .online => 1 | .switching => 2 | .saturated => 3 | .offSpec => 4

def AccountState.code : AccountState → Nat
  | .closed => 0 | .opened => 1 | .suspended => 2

def AccountClass.code : AccountClass → Nat
  | .firm => 0 | .interruptible => 1

def Reason.code : Reason → Nat
  | .none => 0 | .rate => 1 | .space => 2 | .inventory => 3 | .station => 4 | .suspended => 5

def StepCause.code : StepCause → Nat
  | .start => 0 | .enable => 1 | .hold => 2 | .trip => 3 | .interval => 4 | .restep => 5

def Case.code : Case → Nat
  | .tolerance => 0 | .shortInject => 1 | .shortWithdraw => 2 | .oba => 3

def EventName.code : EventName → Nat
  | .periodClosed => 0 | .dayRolled => 1 | .sensorLost => 2 | .startDeferred => 3 | .startFailed => 4
  | .unitLockedOut => 5 | .trainSaturated => 6 | .trainOffSpec => 7 | .wetGas => 8 | .clockDegraded => 9
  | .obaLimit => 10 | .profileCommitted => 11 | .curtailment => 12

def WatchCondition.code : WatchCondition → Nat
  | .risesAbove => 0 | .fallsBelow => 1 | .crosses => 2 | .isAbove => 3 | .isBelow => 4 | .occurs => 5

def WatchAction.code : WatchAction → Nat
  | .notify => 0 | .tripCavern => 1 | .tripStation => 2

def WatchState.code : WatchState → Nat
  | .empty => 0 | .disarmed => 1 | .armed => 2 | .fired => 3

def Latch.code : Latch → Nat
  | .high => 0 | .low => 1

def NoticeState.code : NoticeState → Nat
  | .idle => 0 | .pending => 1 | .outstanding => 2

def Group.code : Group → Nat
  | .site => 0 | .caverns => 1 | .plant => 2

def CommitState.code : CommitState → Nat
  | .committed => 0 | .committing => 1 | .failed => 2

def StartKind.code : StartKind → Nat
  | .cold => 0 | .retained => 1 | .controller => 2

/-- The status codes of 11.6. -/
def Status.code : Status → Nat
  | .ok => 0x00 | .busy => 0x01 | .queueFull => 0x02 | .unknownKind => 0x03 | .badLength => 0x04 | .badField => 0x05
  | .noSuch => 0x06 | .wrongState => 0x07 | .notAtRest => 0x08 | .settling => 0x09 | .tooLate => 0x0A
  | .insufficient => 0x0B | .noSpace => 0x0C | .tripped => 0x0D | .unloaded => 0x0E | .clockUnset => 0x0F
  | .notReady => 0x10

/-- The detail subjects of 11.1. -/
def Subject.code : Subject → Nat
  | .none => 0 | .field => 1 | .cavern => 2 | .unit => 3 | .train => 4 | .group => 5 | .condition => 6 | .slot => 7
  | .kind => 8

/-- Clock state as reported (1.7): UNSET, NORMAL or DEGRADED. -/
def State.clockStateCode (s : State) : Nat :=
  if s.mu.set then (match s.mu.source with | .crystal => 1 | .internal => 2) else 0

/-! ### Codes read from a request -/

/-- A duty from its code. -/
def dutyOfCode : Nat → Option Duty
  | 0 => some .inject | 1 => some .boost | _ => none

/-- A tower from its code. -/
def towerOfCode : Nat → Option TowerId
  | 0 => some .a | 1 => some .b | _ => none

/-- A group from its code. -/
def groupOfCode : Nat → Option Group
  | 0 => some .site | 1 => some .caverns | 2 => some .plant | _ => none

/-- A class from its code. -/
def classOfCode : Nat → Option AccountClass
  | 0 => some .firm | 1 => some .interruptible | _ => none

/-- A watch condition from its code. -/
def conditionOfCode : Nat → Option WatchCondition
  | 0 => some .risesAbove | 1 => some .fallsBelow | 2 => some .crosses | 3 => some .isAbove | 4 => some .isBelow
  | 5 => some .occurs | _ => none

/-- A watch action from its code. -/
def actionOfCode : Nat → Option WatchAction
  | 0 => some .notify | 1 => some .tripCavern | 2 => some .tripStation | _ => none

/-- An event's name from its code. -/
def eventOfCode : Nat → Option EventName
  | 0 => some .periodClosed | 1 => some .dayRolled | 2 => some .sensorLost | 3 => some .startDeferred
  | 4 => some .startFailed | 5 => some .unitLockedOut | 6 => some .trainSaturated | 7 => some .trainOffSpec
  | 8 => some .wetGas | 9 => some .clockDegraded | 10 => some .obaLimit | 11 => some .profileCommitted
  | 12 => some .curtailment | _ => none

/-- How many indices an event's filter may name; 0 for an event that carries none (R144). -/
def EventName.indices : EventName → Nat
  | .periodClosed | .dayRolled | .clockDegraded | .obaLimit => 0
  | .sensorLost => 16
  | .startDeferred => 2
  | .startFailed | .unitLockedOut => 6
  | .trainSaturated | .trainOffSpec | .wetGas => 4
  | .profileCommitted => 3
  | .curtailment => 32

/-- A role from its code. -/
def roleOfCode : Int → Role
  | 0 => .pressure | 1 => .temperature | 2 => .dewpoint | _ => .generic

/-- A run's direction from its code. -/
def runDirOfCode : Int → RunDir
  | 0 => .inject | 1 => .withdraw | _ => .unused

end Sys2Proof.Machine
end

