-- ==== Sys2Proof/Machine/Flags.lean ====
section
/-! DEFINITION. The Watch and Notice Unit inside an event (08): replies joining the reply order, events joining a
notification channel, watches evaluated and fired, waiting AWAIT_FLAGS answered. -/

namespace Sys2Proof.Machine

/-! ### Replies (R179, R180) -/

/-- The entry of the request queue with this arrival order becomes ANSWERED. -/
def State.setEntry (s : State) (arrival : Nat) (st : EntryState) : State :=
  { s with slu := { s.slu with
      queue := s.slu.queue.map fun e => if e.arrival = arrival then { e with state := st } else e } }

/-- Form the reply of a queue entry: the request's kind with 0x80 added and its tag; it joins the reply order and the
entry becomes ANSWERED (R180, 11.1). -/
def State.formReply (s : State) (e : QEntry) (st : Status) (d : Detail) (body : List Fld) : State :=
  let r : Reply :=
    { origin := .entry e.arrival, kind := e.request.kind.getD 0 + 0x80, tag := e.request.tag, status := st, detail := d,
      body := body }
  { (s.setEntry e.arrival .answered) with
    slu := { (s.setEntry e.arrival .answered).slu with order := s.slu.order ++ [r] } }

/-! ### Fired flags (R147, R148) -/

/-- The 24 fired flags as a mask like that of AWAIT_FLAGS, W0 in the least significant bit (11.5). -/
def State.flags (s : State) : Nat :=
  ((List.range 24).map fun w => if (s.watch w).fired then 2 ^ w else 0).foldl (· + ·) 0

/-- Clear every fired flag. -/
def State.clearFlags (s : State) : State :=
  { s with wnu := { s.wnu with watches := s.wnu.watches.map fun w => { w with fired := false } } }

/-- An entry waits for a flag of this watch. -/
def QEntry.awaits (e : QEntry) (w : Nat) : Bool :=
  match e.state with
  | .waitingFlags mask _ => mask.testBit w
  | .inTurn | .waitingClose | .answered => false

/-- The fired flags in a reply, from W0 on: each is a set/clear field of one byte (R147, R185). -/
def State.flagFields (s : State) : List Fld := s.wnu.watches.map fun w => yn w.fired

/-- The body of the reply to an AWAIT_FLAGS that waited: the 24 flags and timed_out (R148; log entry 30). -/
def State.awaitBody (s : State) (timedOut : Bool) : List Fld := s.flagFields ++ [yn timedOut]

/-- A firing that set the flag of `w` answers every waiting AWAIT_FLAGS whose mask holds it, in arrival order, all
with the same flags, and then clears the flags once (R148). -/
def State.answerAwaits (s : State) (w : Nat) : State :=
  let waiting := s.slu.queue.filter (·.awaits w)
  if waiting.isEmpty then s
  else
    (waiting.foldl (fun t e => t.formReply e .ok {} (s.awaitBody false)) s).clearFlags

/-! ### Joining a channel (R149) -/

/-- An event joins a list: a known source counts up to 255, a new one is appended, a full list sets OVERFLOW. -/
def NoticeList.join (l : NoticeList) (src : NoticeSource) (code : Nat) (now : Clk) : NoticeList :=
  if l.entries.any (fun e => e.source == src) then
    { l with entries := l.entries.map fun e =>
        if e.source = src then { e with count := min (e.count + 1) 255 } else e }
  else if l.entries.length < Config.noticePlaces then
    { l with entries := l.entries ++ [{ source := src, code := code, first := now, count := 1 }] }
  else { l with overflow := true }

/-- An event reaches a channel (R149). -/
def NoticeChannel.join (c : NoticeChannel) (src : NoticeSource) (code : Nat) (now : Clk) : NoticeChannel :=
  match c.state with
  | .idle => { c with state := .pending, list := c.list.join src code now }
  | .pending => { c with list := c.list.join src code now }
  | .outstanding => { c with late := c.late.join src code now }

/-- An event reaches channel `n`. -/
def State.joinNotice (s : State) (n : Nat) (src : NoticeSource) (code : Nat) : State :=
  s.updNotice n fun c => c.join src code s.clock

/-! ### Watches -/

/-- A watch fires (R145): flag, waiting AWAIT_FLAGS, channel entry, action, and FIRED when it is ONE_SHOT. -/
def fireWatch (w : Nat) (d : WatchDef) (ev : Ev) : Ev :=
  let s1 := (ev.s.updWatch w fun r => { r with fired := true }).answerAwaits w
  let s2 := match d.channel with
    | some n => s1.joinNotice n (.watch w) d.hostCode
    | none => s1
  let ev1 : Ev := { ev with s := s2 }
  let ev2 := match d.action, d.source with
    | .notify, _ => ev1
    | .tripStation, _ => ev1.launch { code := 0x070, watch := some (w, d.hostCode) }
    | .tripCavern, .cavernPressure c => ev1.launch { code := 0x080, scope := some c, watch := some (w, d.hostCode) }
    | .tripCavern, _ => ev1
  if d.oneShot then ev2.map fun s => s.updWatch w fun r => { r with state := .fired, latch := none } else ev2

/-- The latch after a new value and whether the watch fires (R143). -/
def WatchDef.evaluate (d : WatchDef) (latch : Option Latch) (v : Int) : Option Latch × Bool :=
  match d.condition, latch with
  | .risesAbove, none => (some (if v > d.threshold then .high else .low), false)
  | .risesAbove, some .low => if v > d.threshold then (some .high, true) else (some .low, false)
  | .risesAbove, some .high => (some (if v ≤ d.threshold - d.hysteresis then .low else .high), false)
  | .fallsBelow, none => (some (if v < d.threshold then .low else .high), false)
  | .fallsBelow, some .low => (some (if v ≥ d.threshold + d.hysteresis then .high else .low), false)
  | .fallsBelow, some .high => if v < d.threshold then (some .low, true) else (some .high, false)
  | .crosses, none => (some (if v > d.threshold then .high else .low), false)
  | .crosses, some .low => if v > d.threshold then (some .high, true) else (some .low, false)
  | .crosses, some .high => if v < d.threshold - d.hysteresis then (some .low, true) else (some .high, false)
  | .isAbove, l => (l, v > d.threshold)
  | .isBelow, l => (l, v < d.threshold)
  | .occurs, l => (l, false)

/-- Evaluate watch `w` at a new value `v` when it is ARMED on a source that `on` accepts. -/
def evaluateWatch (on : WatchSource → Bool) (v : Int) (ev : Ev) (w : Nat) : Ev :=
  let r := ev.s.watch w
  match r.state, r.defn with
  | .armed, some d =>
    if on d.source then
      let (latch, fires) := d.evaluate r.latch v
      let ev1 := ev.map fun s => s.updWatch w fun x => { x with latch := latch }
      if fires then fireWatch w d ev1 else ev1
    else ev
  | _, _ => ev

/-- A source's new value: every ARMED watch on it is evaluated in ascending index (R142). -/
def newWatchValue (on : WatchSource → Bool) (v : Int) (ev : Ev) : Ev :=
  (List.range 24).foldl (evaluateWatch on v) ev

/-- A watch names this event and its filter passes the index (R144). -/
def WatchSource.hears (src : WatchSource) (name : EventName) (index : Option Nat) : Bool :=
  match src with
  | .event n filter => n == name && (filter.isNone || filter == index)
  | .channel _ | .cavernPressure _ | .trainLoading _ | .obaBalance | .accountInventory _ | .meterRate _ => false

/-- Offer an event to watch `w`. -/
def offerEvent (name : EventName) (index : Option Nat) (ev : Ev) (w : Nat) : Ev :=
  let r := ev.s.watch w
  match r.state, r.defn with
  | .armed, some d => if d.condition = .occurs ∧ d.source.hears name index then fireWatch w d ev else ev
  | _, _ => ev

/-- An internal event is raised with what it carries, and offered to the ARMED OCCURS watches in ascending index
(R144). -/
def raise (name : EventName) (index : Option Nat) (ev : Ev) (data : EventData := .none) : Ev :=
  (List.range 24).foldl (offerEvent name index) { ev with raised := ev.raised ++ [⟨name, index, data⟩] }

/-- A watch whose source has ceased to exist: an absent cavern or train, or a CLOSED account (R146). That the filter of
an EVENT source names nothing that can cease to exist is the model's choice (log entry 49). -/
def State.sourceGone (s : State) (src : WatchSource) : Bool :=
  match src with
  | .cavernPressure c => (s.cavDef c).isNone
  | .trainLoading t => (s.trainDef t).isNone
  | .accountInventory a => (s.account a).state == .closed
  | .channel _ | .obaBalance | .meterRate _ | .event _ _ => false

/-- Watches whose sources have ceased to exist become DISARMED, from ARMED or FIRED, keeping their flags (R146) and
their latches (the model's choice, log entry 48). -/
def State.disarm (s : State) : State :=
  { s with wnu := { s.wnu with watches := s.wnu.watches.map fun w =>
      match w.state, w.defn with
      | .armed, some d => if s.sourceGone d.source then { w with state := .disarmed } else w
      | .fired, some d => if s.sourceGone d.source then { w with state := .disarmed } else w
      | _, _ => w } }

end Sys2Proof.Machine
end

