-- ==== Sys2Proof/Machine/Caverns.lean ====
section
/-! DEFINITION. The Cavern Controller inside an event (02): valve position and supervision, permits, assignments and
dwell orders, trip commands, envelope, outputs, and the bringing into line with a CAVERNS group. -/

namespace Sys2Proof.Machine

/-- Valve position from the two limit inputs (R22). -/
def Cavern.position (r : Cavern) : Position :=
  match r.openLimit, r.closedLimit with
  | true, false => .opened
  | false, true => .closed
  | false, false => .travel
  | true, true => .unknown

/-- The open states: IDLE, INJECTING, WITHDRAWING and DWELL (2.2). -/
def CavernState.isOpen : CavernState → Bool
  | .idle | .injecting | .withdrawing | .dwell => true
  | .outOfService | .shut | .opening | .closing | .tripped | .valveFault => false

/-- The closed states: SHUT and TRIPPED (2.2). -/
def CavernState.isClosed : CavernState → Bool
  | .shut | .tripped => true
  | .outOfService | .opening | .idle | .injecting | .withdrawing | .dwell | .closing | .valveFault => false

/-- The states in which a cavern has permits (R32). -/
def CavernState.flows : CavernState → Bool
  | .idle | .injecting | .withdrawing => true
  | .outOfService | .shut | .opening | .dwell | .closing | .tripped | .valveFault => false

/-- The position expected in an open or closed state (R23). -/
def CavernState.expected (st : CavernState) : Option Position :=
  if st.isOpen then some .opened else if st.isClosed then some .closed else none

/-- Permit in one direction from its Qmax and headroom (R32). -/
def CavernDef.permit (d : CavernDef) (q : Nat) (h : Int) : Nat :=
  let base := min (min q (d.ramp * d.k)) Config.maxRate
  if h ≤ 0 then 0 else if h < d.taper then base * h.toNat / d.taper else base

/-- The injection permit of a cavern as its record stands (R32). -/
def CavernDef.injPermit (d : CavernDef) (r : Cavern) : Nat :=
  if r.state.flows && r.quality != .lost then d.permit d.qInj (d.pMax - r.pressure) else 0

/-- The withdrawal permit of a cavern as its record stands (R32). -/
def CavernDef.wdPermit (d : CavernDef) (r : Cavern) : Nat :=
  if r.state.flows && r.quality != .lost then d.permit d.qWd (r.pressure - d.pMin) else 0

/-- A setpoint above the permit of its direction is cut to it, keeping its sign (R33). -/
def cutSetpoint (inj wd : Nat) (sp : Int) : Int :=
  if sp > 0 then min sp inj else if sp < 0 then -(min (-sp) wd) else sp

/-- Recompute the permits of a record and cut its setpoint (R32, R33); an absent cavern has none. -/
def Cavern.recompute (d : Option CavernDef) (r : Cavern) : Cavern :=
  match d with
  | some d =>
    { r with
      injPermit := d.injPermit r, wdPermit := d.wdPermit r
      setpoint := cutSetpoint (d.injPermit r) (d.wdPermit r) r.setpoint }
  | none => { r with injPermit := 0, wdPermit := 0, setpoint := 0 }

/-- Valve supervision in the open and closed states (R23). -/
def Cavern.supervise (d : Option CavernDef) (s : State) (r : Cavern) : Cavern :=
  match r.state.expected, d with
  | some p, some d =>
    if r.position = p then { r with travel := none }
    else if r.travel.isNone then { r with travel := some (s.after d.travel) } else r
  | _, _ => r

/-- The low-pressure mark: the pressure value is below the boost threshold (R32). -/
def State.lowPressure (s : State) (c : Nat) : Bool :=
  (s.cavDef c).any fun d => (s.cav c).pressure < d.boost

/-- Change a cavern's record and follow it up: supervision (R23), permits and cut (R33). The planner is handed a change
of the state, of a permit or of the low-pressure mark (R108). -/
def changeCavern (c : Nat) (f : Cavern → Cavern) (ev : Ev) : Ev :=
  let before := ev.s.cav c
  let d := ev.s.cavDef c
  let ev1 := ev.map fun s => s.updCav c fun r => ((f r).supervise d s).recompute d
  let after := ev1.s.cav c
  ev1.hand (before.state != after.state || before.injPermit != after.injPermit || before.wdPermit != after.wdPermit ||
    ev.s.lowPressure c != ev1.s.lowPressure c)

/-- Begin a closure: setpoint 0, command CLOSE, a fresh travel deadline, closing target (R28, R30). -/
def Cavern.beginClosing (s : State) (d : CavernDef) (t : Target) (r : Cavern) : Cavern :=
  { r with
    state := .closing, target := some t, command := .driveClose, setpoint := 0
    travel := some (s.after d.travel) }

/-- A cavern goes to VALVE_FAULT: command CLOSE, setpoint 0, no closing target, travel deadline gone (R23, R27, R29). -/
def Cavern.toFault (r : Cavern) : Cavern :=
  { r with state := .valveFault, target := none, command := .driveClose, setpoint := 0, travel := none }

/-- What a trip command does to a cavern it reaches (R30). -/
def Cavern.trip (station : Bool) (s : State) (d : CavernDef) (r : Cavern) : Cavern :=
  match r.state with
  | .opening | .idle | .injecting | .withdrawing | .dwell => r.beginClosing s d .tripped
  | .closing => { r with target := some .tripped }
  | .shut =>
    if station then r
    else if r.position = .closed then { r with state := .tripped, travel := none } else r.beginClosing s d .tripped
  | .tripped | .valveFault | .outOfService => r

/-- A trip command at one cavern (R30). -/
def tripCavern (station : Bool) (c : Nat) (ev : Ev) : Ev :=
  match ev.s.cavDef c with
  | some d => changeCavern c (·.trip station ev.s d) ev
  | none => ev

/-- A station-scope trip command at every cavern (R30). -/
def tripAllCaverns (ev : Ev) : Ev := (List.range 8).foldl (fun e c => tripCavern true c e) ev

/-- Envelope status of a pressure value against the trip limits (R31). -/
def CavernDef.envelopeOf (d : CavernDef) (v : Int) : Envelope :=
  if v > d.pMax + d.margin then .above else if v < (d.pMin : Int) - d.margin then .below else .inside

/-- The report of a change of envelope status, if any (R31): code 0x020 for ABOVE, 0x030 for BELOW. -/
def reportEnvelope (c : Nat) (before after : Envelope) (ev : Ev) : Ev :=
  if before = after then ev
  else match after with
    | .above => ev.launch { code := 0x020, scope := some c }
    | .below => ev.launch { code := 0x030, scope := some c }
    | .inside => ev

/-- A new pressure value at a cavern: value, permits (R33) and, in service, the envelope check (R31). -/
def cavernNewValue (c : Nat) (v : Int) (ev : Ev) : Ev :=
  match ev.s.cavDef c with
  | some d =>
    let before := ev.s.cav c
    let after := if before.state = .outOfService then before.envelope else d.envelopeOf v
    reportEnvelope c before.envelope after
      (changeCavern c (fun r => { r with pressure := v, envelope := after }) ev)
  | none => ev

/-- A quality change of a cavern's pressure channel (R33). -/
def cavernQuality (c : Nat) (q : Quality) (v : Int) (ev : Ev) : Ev :=
  match ev.s.cavDef c with
  | some _ => changeCavern c (fun r => { r with pressure := v, quality := q }) ev
  | none => ev

/-! ### What the planner hands a cavern -/

/-- An assignment (R34): cut to the permit, 0 on a LOST signal; DWELL keeps its state. -/
def Cavern.assign (rate : Int) (r : Cavern) : Cavern :=
  if r.state.flows then
    let v := if r.quality = .lost then 0 else cutSetpoint r.injPermit r.wdPermit rate
    if v > 0 then { r with state := .injecting, setpoint := v, last := .inject, dwell := none }
    else if v < 0 then { r with state := .withdrawing, setpoint := v, last := .withdraw, dwell := none }
    else { r with state := .idle, setpoint := 0 }
  else r

/-- A dwell order (R35). -/
def Cavern.order (s : State) (d : CavernDef) (r : Cavern) : Cavern :=
  if r.state = .injecting ∨ r.state = .withdrawing ∨ (r.state = .idle ∧ r.last ≠ .none) then
    { r with
      state := .dwell, setpoint := 0
      dwell := if r.dwell.isNone then some (s.after d.dwell) else r.dwell }
  else r

/-! ### Outputs at the terminals (R22, R36, R172) -/

/-- The setpoint output of a cavern in µA. -/
def State.setpointOutput (s : State) (c : Nat) : Nat :=
  match s.phase, s.cavDef c with
  | .running, some d =>
    let r := s.cav c
    let q := if r.setpoint > 0 then d.qInj else d.qWd
    4000 + 16000 * r.setpoint.natAbs / q
  | _, _ => 4000

/-- The direction line of a cavern shows WITHDRAW. -/
def State.directionWithdraw (s : State) (c : Nat) : Bool :=
  s.phase == .running && (s.cav c).last == .withdraw

/-- The open command output and the close command output of a cavern's well valve are driven; outside running both
are released. -/
def State.valveOutputs (s : State) (c : Nat) : Bool × Bool :=
  (s.phase == .running && (s.cav c).command == .driveOpen, s.phase == .running && (s.cav c).command == .driveClose)

/-! ### Bringing into line with a CAVERNS group (R21, R39) -/

/-- The pressure value and quality of the channel a cavern names, as its record stands (R21); 0 and LOST where it names
none (the model's choice, log entry 36). -/
def State.pressureOf (s : State) (d : CavernDef) : Int × Quality :=
  match d.channel with
  | some ch => ((s.chan ch).value, (s.chan ch).quality)
  | none => (0, .lost)

/-- A cavern's record under a group in force (R21). `cold`: a COLD START, at which a present cavern with a channel
starts SHUT (R39). A cavern that becomes OUT_OF_SERVICE by it loses a travel deadline that runs (the model's choice, log
entry 36). -/
def Cavern.fit (s : State) (d : Option CavernDef) (cold : Bool) (r : Cavern) : Cavern :=
  match d with
  | none =>
    { r with
      present := false, state := .outOfService, target := none, command := .driveClose, setpoint := 0, travel := none
      envelope := .inside, injPermit := 0, wdPermit := 0, pressure := 0, quality := .lost }
  | some d =>
    let st : CavernState :=
      if d.channel.isNone then .outOfService
      else if cold then .shut
      else if r.present then r.state else .outOfService
    let (v, q) := s.pressureOf d
    let out := st == .outOfService
    Cavern.recompute (some d)
      { r with
        present := true, state := st
        target := if out then none else r.target
        command := if out then .driveClose else r.command
        setpoint := if out then 0 else r.setpoint
        travel := if out then none else r.travel
        envelope := .inside, pressure := v, quality := q }

/-- The merit lists under a group in force: absent caverns leave, caverns become present are appended in ascending
order (R21). -/
def fitMerit (s : State) (l : List Nat) : List Nat :=
  l.filter (fun c => (s.cavDef c).isSome) ++
    (List.range 8).filter fun c => (s.cavDef c).isSome && !(s.cav c).present && !l.contains c

/-- R21 at every cavern. -/
def State.fitCaverns (s : State) (cold : Bool) : State :=
  { s with cvc :=
      { caverns := s.cvc.caverns.mapIdx fun c r => r.fit s (s.cavDef c) cold
        injMerit := fitMerit s s.cvc.injMerit
        wdMerit := fitMerit s s.cvc.wdMerit } }

/-- The caverns at a start before R21 (R39): states by the start kind, everything not retained at its start value. -/
def Cavern.restart (cold : Bool) (r : Cavern) : Cavern :=
  { r with
    present := !cold && r.present
    state := match r.state with
      | .outOfService | .tripped | .valveFault => if cold then .shut else r.state
      | .shut | .opening | .idle | .injecting | .withdrawing | .dwell | .closing => .shut
    target := none, command := .driveClose
    last := if cold then .none else r.last
    dwell := none, travel := none, injPermit := 0, wdPermit := 0, setpoint := 0, pressure := 0, quality := .lost
    envelope := .inside }

/-- The Cavern Controller at a start (R39). -/
def State.startCvc (s : State) (cold : Bool) : State :=
  ({ s with cvc :=
      { caverns := s.cvc.caverns.map (·.restart cold)
        injMerit := if cold then [] else s.cvc.injMerit
        wdMerit := if cold then [] else s.cvc.wdMerit } } : State).fitCaverns cold

/-- When a start completes, supervision begins for every cavern (R23, R39). -/
def State.superviseAll (s : State) : State :=
  { s with cvc := { s.cvc with caverns := s.cvc.caverns.mapIdx fun c r => r.supervise (s.cavDef c) s } }

end Sys2Proof.Machine
end

