-- ==== Sys2Proof/Machine/Compressors.lean ====
section
/-! DEFINITION. The Compressor Duty Manager inside an event (03): running capacity, reviews with their start and stop
decisions, the ends of a unit's service, and the bringing into line with a PLANT group. -/

namespace Sys2Proof.Machine

/-- Counted towards a shortage: STARTING or RUNNING (3.2). -/
def UnitState.counts : UnitState → Bool
  | .starting | .running => true
  | .off | .stopping | .resting | .failed | .lockedOut | .maintenance => false

/-- Rated capacity of a present unit. -/
def State.rated (s : State) (u : Nat) : Nat := ((s.unitDef u).map UnitDef.rated).getD 0

/-- Running capacity of a duty: rated capacities of its RUNNING units (R56). -/
def State.runningCapacity (s : State) (d : Duty) : Nat :=
  sumNat (((s.duty d).order.filter fun u => (s.unit u).state == .running).map s.rated)

/-- A unit's command output asks it to run; outside running it has fallen to STOP (R41, R172). -/
def State.unitOutput (s : State) (u : Nat) : Bool := s.phase == .running && (s.unit u).command == .run

/-- Capacity of a duty's units that are STARTING or RUNNING (R49). -/
def State.comingCapacity (s : State) (d : Duty) : Nat :=
  sumNat (((s.duty d).order.filter fun u => (s.unit u).state.counts).map s.rated)

/-- The duty is short (R49). -/
def State.short (s : State) (d : Duty) : Bool := s.comingCapacity d < (s.duty d).demand

/-- A unit is within budget (R48). -/
def State.withinBudget (s : State) (u : Nat) : Bool :=
  (s.unitDef u).any fun d => (s.unit u).history.length < d.budget

/-- The first unit of the duty list that is OFF and within budget (R49, R50). -/
def State.eligible (s : State) (d : Duty) : Option Nat :=
  (s.duty d).order.find? fun u => (s.unit u).state == .off && s.withinBudget u

/-- A fresh start-pending deadline: the candidate's start delay from now, or now itself with no candidate (R49). -/
def State.freshStart (s : State) (d : Duty) : PendingTimer :=
  match s.eligible d with
  | some u => { deadline := s.after (((s.unitDef u).map UnitDef.startDelay).getD 0), candidate := some u }
  | none => { deadline := s.clock, candidate := none }

/-- A start attempt on an OFF unit (R51). -/
def State.attemptStart (s : State) (d : Duty) (u : Nat) : State :=
  (s.updUnit u fun r =>
    { r with
      command := .run, state := .starting, history := r.history ++ [s.clock]
      start := some (s.after (((s.unitDef u).map UnitDef.startTimeout).getD 0)) }).updDuty d
    fun q => { q with running := q.running ++ [u] }

/-- The start decision of a review whose duty is short and whose start-pending deadline has passed (R50). -/
def startDecision (d : Duty) (ev : Ev) : Ev :=
  match ev.s.eligible d with
  | some u =>
    let s1 := (ev.s.attemptStart d u).updDuty d fun q => { q with startPending := none }
    if s1.short d then { ev with s := s1.updDuty d fun q => { q with startPending := some (s1.freshStart d) } }
    else { ev with s := s1 }
  | none =>
    raise .startDeferred (some (dutyCode d))
      (ev.map fun s => s.updDuty d fun q =>
        { q with startPending := q.startPending.map fun t => { t with taken := true } })

/-- A pending deadline has passed; one whose expiry was taken stays passed (R19, R50). -/
def PendingTimer.expired (clock : Clk) (t : PendingTimer) : Bool := t.taken || passed clock t.deadline

/-- A unit's minimum run has passed; an expiry that was taken stays taken (R19, R53). -/
def CompUnit.hasRun (clock : Clk) (r : CompUnit) : Bool := r.minRunTaken || r.minRun.isNone || due clock r.minRun

/-- The start part of a review (R49). -/
def reviewStart (d : Duty) (ev : Ev) : Ev :=
  if ev.s.tru.tripped || !ev.s.short d then
    ev.map fun s => s.updDuty d fun q => { q with startPending := none }
  else
    let t := ((ev.s.duty d).startPending).getD (ev.s.freshStart d)
    let ev1 := ev.map fun s => s.updDuty d fun q => { q with startPending := some t }
    if t.expired ev.s.clock then startDecision d ev1 else ev1

/-- The stop candidate: the last unit of the running order, when it is RUNNING (R53). -/
def State.stopCandidate (s : State) (d : Duty) : Option Nat :=
  ((s.duty d).running.getLast?).filter fun u => (s.unit u).state == .running

/-- A stop is warranted (R53). -/
def State.stopWarranted (s : State) (d : Duty) : Option Nat :=
  (s.stopCandidate d).filter fun u => (s.duty d).demand + s.rated u ≤ s.runningCapacity d

/-- A unit's command goes to STOP and it is timed to rest (R53, R57). -/
def State.beginStop (s : State) (u : Nat) : State :=
  s.updUnit u fun r =>
    { r with
      command := .stop, state := .stopping, start := none, minRun := none, minRunTaken := false
      stop := some (s.after (((s.unitDef u).map UnitDef.stopTimeout).getD 0)) }

/-- A unit leaves its duty's running order (3.4). -/
def State.leaveOrder (s : State) (u : Nat) : State :=
  { s with cdm :=
      { s.cdm with
        inject := { s.cdm.inject with running := without s.cdm.inject.running u }
        boost := { s.cdm.boost with running := without s.cdm.boost.running u } } }

/-- A fresh stop-pending deadline: the candidate's stop delay from now (R53). -/
def State.freshStop (s : State) (u : Nat) : PendingTimer :=
  { deadline := s.after (((s.unitDef u).map UnitDef.stopDelay).getD 0), candidate := some u }

/-- A review stops a unit: it leaves the running order, and a further surplus is timed afresh, in the same review,
against the new last-started unit (R53). -/
def State.stopUnit (s : State) (d : Duty) (u : Nat) : State :=
  let s1 := (s.beginStop u).leaveOrder u
  s1.updDuty d fun q => { q with stopPending := (s1.stopWarranted d).map s1.freshStop }

/-- The stop part of a review (R53). The drop in running capacity is handed to the planner (R56). -/
def reviewStop (d : Duty) (ev : Ev) : Ev :=
  match ev.s.stopWarranted d with
  | none => ev.map fun s => s.updDuty d fun q => { q with stopPending := none }
  | some u =>
    let kept := ((ev.s.duty d).stopPending).filter fun t => t.candidate == some u
    let t := kept.getD (ev.s.freshStop u)
    if t.expired ev.s.clock then
      if (ev.s.unit u).hasRun ev.s.clock then (ev.map fun s => s.stopUnit d u).hand true
      else ev.map fun s => s.updDuty d fun q => { q with stopPending := some { t with taken := true } }
    else ev.map fun s => s.updDuty d fun q => { q with stopPending := some t }

/-- A review of a duty (R49, R53). -/
def review (d : Duty) (ev : Ev) : Ev := reviewStop d (reviewStart d ev)

/-- A unit rests its minimum rest (R52, R54). -/
def State.restUntil (s : State) (u : Nat) : Option Clk :=
  some (s.after (((s.unitDef u).map UnitDef.minRest).getD 0))

/-- A stop is complete: RESTING with a rest deadline (R54). -/
def State.completeStop (s : State) (u : Nat) : State :=
  s.updUnit u fun r => { r with state := .resting, stop := none, rest := s.restUntil u }

/-- A unit is locked out: command STOP, no deadline running, out of its running order (R41, R55). -/
def State.lockOut (s : State) (u : Nat) : State :=
  (s.updUnit u fun r =>
    { r with
      state := .lockedOut, command := .stop, start := none, stop := none, minRun := none, minRunTaken := false
      rest := none }).leaveOrder u

/-- Running feedback that appears on a unit no one asked to run (R41). -/
def uncommanded (u : Nat) (ev : Ev) : Ev := raise .unitLockedOut (some u) (ev.map (·.lockOut u)) (.cause .uncommanded)

/-- A RUNNING unit's feedback is lost (R55). -/
def runLost (u : Nat) (ev : Ev) : Ev :=
  let s1 := ev.s.lockOut u
  let drop (q : DutyRec) : DutyRec :=
    { q with stopPending := q.stopPending.filter fun t => t.candidate != some u }
  let s2 : State := { s1 with cdm := { s1.cdm with inject := drop s1.cdm.inject, boost := drop s1.cdm.boost } }
  raise .unitLockedOut (some u) (({ ev with s := s2 } : Ev).hand true) (.cause .runLost)

/-- Feedback appears in STARTING: the unit is RUNNING (R51). -/
def unitStarted (u : Nat) (ev : Ev) : Ev :=
  (ev.map fun s => s.updUnit u fun r =>
    { r with
      state := .running, start := none, failures := 0, startCount := min (r.startCount + 1) Config.max32
      minRun := some (s.after (((s.unitDef u).map UnitDef.minRun).getD 0)), minRunTaken := false }).hand true

/-- A station-scope trip command at a unit (R57). -/
def tripUnit (ev : Ev) (u : Nat) : Ev :=
  if (ev.s.unit u).state.counts then
    (ev.map fun s => (s.beginStop u).leaveOrder u).hand ((ev.s.unit u).state == .running)
  else ev

/-- A station-scope trip command at the CDM (R57). -/
def tripUnits (ev : Ev) : Ev :=
  let calm (q : DutyRec) : DutyRec := { q with demand := 0, startPending := none, stopPending := none }
  ((List.range 6).foldl tripUnit ev).map fun s =>
    { s with cdm := { s.cdm with inject := calm s.cdm.inject, boost := calm s.cdm.boost } }

/-- The demands handed by a planner step, and the reviews they bring (R49), that of INJECT before that of BOOST (the
model's choice, log entry 13). -/
def handDemands (inj boost : Nat) (ev : Ev) : Ev :=
  review .boost (review .inject (ev.map fun s =>
    (s.updDuty .inject fun q => { q with demand := inj }).updDuty .boost fun q => { q with demand := boost }))

/-- One second of the clock at a unit: run seconds (R58). -/
def CompUnit.second (r : CompUnit) : CompUnit :=
  if (r.state = .running ∨ r.state = .stopping) ∧ r.feedback then
    { r with runSeconds := min (r.runSeconds + 1) Config.max32 }
  else r

/-- Entries of a start history that have reached 3,600 s leave from the head (R48); one behind a younger entry, which a
backward trim can bring about, waits for it (log entry 37). -/
def ageHistory (clock : Clk) (h : List Clk) : List Clk := h.dropWhile fun t => passed clock (t + 3600#32)

/-- Each duty list rotated by one (R47). -/
def rotate (l : List Nat) : List Nat :=
  match l with
  | [] => []
  | x :: rest => rest ++ [x]

/-- The day's rotation of both duty lists (R47). -/
def State.rotateDuties (s : State) : State :=
  (s.updDuty .inject fun q => { q with order := rotate q.order }).updDuty .boost fun q =>
    { q with order := rotate q.order }

/-- Take a unit out of both duty lists. -/
def State.leaveDuty (s : State) (u : Nat) : State :=
  (s.updDuty .inject fun q => { q with order := without q.order u }).updDuty .boost fun q =>
    { q with order := without q.order u }

/-- A unit's record under a group in force (R40). `write`: by a WRITE_PROFILE, at which running feedback on a unit
that becomes present is uncommanded running. -/
def fitUnit (write : Bool) (ev : Ev) (u : Nat) : Ev :=
  let r := ev.s.unit u
  match ev.s.unitDef u with
  | none =>
    ev.map fun s => ((s.updUnit u fun r =>
      { r with
        present := false, state := .maintenance, command := .stop, start := none, stop := none, minRun := none
        minRunTaken := false, rest := none }).leaveDuty u).leaveOrder u
  | some d =>
    if r.present then ev
    else
      let ev1 := ev.map fun s => ((s.leaveDuty u).updUnit u fun r =>
        { r with present := true, state := .off, command := .stop, failures := 0, duty := d.duty }).updDuty d.duty
          fun q => { q with order := q.order ++ [u] }
      if write && r.feedback then uncommanded u ev1 else ev1

/-- R40 at every unit, in ascending index. -/
def fitUnits (write : Bool) (ev : Ev) : Ev := (List.range 6).foldl (fitUnit write) ev

/-- A unit at a start before R40 (R60): nothing that is not retained is kept. The duty of a unit that no group in force
makes present stays what it was (log entry 40). -/
def CompUnit.restart (cold : Bool) (clock : Clk) (r : CompUnit) : CompUnit :=
  { r with
    present := !cold && r.present
    state := if cold then .maintenance else r.state
    command := .stop, start := none, stop := none, minRun := none, minRunTaken := false, rest := none
    failures := if cold then 0 else r.failures
    history := if cold then [] else ageHistory clock r.history
    runSeconds := if cold then 0 else r.runSeconds
    startCount := if cold then 0 else r.startCount }

/-- The states of R60's table after R40: MAINTENANCE and LOCKED_OUT kept, every other RESTING, except at a COLD
START. -/
def CompUnit.settleState (cold : Bool) (r : CompUnit) : CompUnit :=
  if cold then r
  else match r.state with
    | .maintenance | .lockedOut => r
    | .off | .starting | .running | .stopping | .resting | .failed => { r with state := .resting }

/-- The Compressor Duty Manager at a start (R60). -/
def State.startCdm (s : State) (cold : Bool) : State :=
  let fresh (q : DutyRec) : DutyRec := { order := if cold then [] else q.order }
  let s1 : State :=
    { s with cdm :=
        { units := s.cdm.units.map (·.restart cold s.clock)
          inject := fresh s.cdm.inject, boost := fresh s.cdm.boost } }
  let s2 := (fitUnits false s1.ev).s
  { s2 with cdm := { s2.cdm with units := s2.cdm.units.map (·.settleState cold) } }

/-- A unit when the start completes (R60): feedback that is present makes a RESTING unit STOPPING, or, OFF after a COLD
START, is uncommanded running; a RESTING unit's rest begins. -/
def completeStartUnit (ev : Ev) (u : Nat) : Ev :=
  let r := ev.s.unit u
  match r.state with
  | .resting =>
    if r.feedback then ev.map fun s => s.beginStop u
    else ev.map fun s => s.updUnit u fun x => { x with rest := s.restUntil u }
  | .off => if r.feedback then uncommanded u ev else ev
  | .starting | .running | .stopping | .failed | .lockedOut | .maintenance => ev

end Sys2Proof.Machine
end

