-- ==== Sys2Proof/Machine/Drying.lean ====
section
/-! DEFINITION. The Drying Train Controller inside an event (04): train state, water loading, switches, dew-point
supervision, and the bringing into line with a PLANT group. -/

namespace Sys2Proof.Machine

/-! ### Computed figures (R62, R64, R78, R79) -/

/-- The tower that is ADSORBING. -/
def Train.adsorbing (t : Train) : Option TowerId :=
  if t.towerA.state = .adsorbing then some .a else if t.towerB.state = .adsorbing then some .b else none

/-- The switch point (4.1). -/
def TrainDef.switchPoint (d : TrainDef) : Nat := d.water * d.fraction / 1000

/-- The ADSORBING tower's loading has reached the tower water capacity (R62). -/
def Train.full (d : TrainDef) (t : Train) : Bool := t.adsorbing.any fun w => d.water ≤ (t.tower w).loading

/-- State of a train: the first line of the table of R62 that applies. -/
def Train.state (d : Option TrainDef) (t : Train) : TrainState :=
  match d with
  | none => .offline
  | some d =>
    if !t.inService then .offline
    else if t.offSpec then .offSpec
    else if t.full d then .saturated
    else if t.switch.isSome then .switching
    else .online

/-- State of train `t`. -/
def State.trainState (s : State) (t : Nat) : TrainState := (s.train t).state (s.trainDef t)

/-- Capacity counted of a train (R62). -/
def Train.counted (d : Option TrainDef) (t : Train) : Nat :=
  match d, t.state d with
  | some d, .online | some d, .switching => d.capacity
  | _, _ => 0

/-- The station's drying capacity (R78). -/
def State.dryingCapacity (s : State) : Nat :=
  sumNat ((List.range 4).map fun t => (s.train t).counted (s.trainDef t))

/-- Train loading in ‰, the source of TRAIN_LOADING watches (R79). -/
def Train.permille (d : Option TrainDef) (t : Train) : Nat :=
  match d, t.adsorbing with
  | some d, some w => (t.tower w).loading * 1000 / d.water
  | _, _ => 0

/-- The water table in use. -/
def State.waterTable (s : State) : List (Int × Int) := (s.pst.plant.live.map Plant.water).getD []

/-- The water factor the next hand-off to a train uses (R64). -/
def State.waterFactor (s : State) (d : TrainDef) : Nat :=
  let ch := s.chan d.inletChannel
  if ch.quality = .lost then (s.waterTable.foldl (fun (m : Int) (p : Int × Int) => max m p.2) 0).toNat
  else (interpolate s.waterTable ch.value).toNat

/-- The inlet valve output of a tower is OPEN; outside running it has fallen to CLOSED (R63). -/
def State.towerOutput (s : State) (t : Nat) (w : TowerId) : Bool :=
  s.phase == .running && ((s.train t).tower w).inletOpen

/-! ### Changing a train -/

/-- Change a train's record and follow it up: the loading watches at a change of the figure (R79), TRAIN_SATURATED when
the condition begins to hold in service (R62), and the planner at a change of drying capacity (R78). The watches come
before the event (log entry 13). -/
def changeTrain (t : Nat) (f : Train → Train) (ev : Ev) : Ev :=
  let d := ev.s.trainDef t
  let before := ev.s.train t
  let ev1 := (ev.map fun s => s.updTrain t f)
  let after := ev1.s.train t
  let ev2 := ev1.hand (before.counted d != after.counted d)
  let ev3 := if before.permille d = after.permille d then ev2
    else newWatchValue (· == .trainLoading t) (after.permille d) ev2
  match d with
  | some d =>
    if after.inService && after.full d && !(before.inService && before.full d) then
      raise .trainSaturated (some t) ev3
    else ev3
  | none => ev3

/-- A switch begins: the incoming tower's inlet opens (R67). -/
def Train.beginSwitch (s : State) (d : TrainDef) (incoming : TowerId) (t : Train) : Train :=
  { t with switch := some ⟨incoming, s.after d.travel⟩ }.updTower incoming fun w => { w with inletOpen := true }

/-- A switch completes (R68). -/
def Train.completeSwitch (s : State) (d : TrainDef) (incoming : TowerId) (t : Train) : Train :=
  (({ t with switch := none }.updTower (otherTower incoming) fun w =>
    { w with inletOpen := false, state := .regenerating, step := some (s.after d.regen) }).updTower incoming fun w =>
    { w with state := .adsorbing, inletOpen := true })

/-- R67 at a train: the switch begins, and completes at once when the incoming tower already shows open. -/
def beginSwitch (t : Nat) (d : TrainDef) (incoming : TowerId) (ev : Ev) : Ev :=
  let ev1 := changeTrain t (·.beginSwitch ev.s d incoming) ev
  if ((ev1.s.train t).tower incoming).feedback then changeTrain t (·.completeSwitch ev.s d incoming) ev1 else ev1

/-- The tower a switch could go to: there is an ADSORBING tower, no switch in flight, and the other tower is STANDBY
(R67). -/
def Train.switchTarget (t : Train) : Option TowerId :=
  if t.switch.isSome then none
  else (t.adsorbing.map otherTower).filter fun w => (t.tower w).state == .standby

/-- The check for an automatic switch (R66). -/
def checkSwitch (t : Nat) (d : TrainDef) (ev : Ev) : Ev :=
  let r := ev.s.train t
  match r.switchTarget with
  | some w =>
    if r.inService && d.switchPoint ≤ (r.tower (otherTower w)).loading then beginSwitch t d w ev else ev
  | none => ev

/-! ### Water (R65) -/

/-- Water of energy `e` at factor `f` into a tower. -/
def Tower.charge (e f : Nat) (w : Tower) : Tower :=
  { w with
    loading := min (w.loading + (w.residue + e * f) / 10000000) Config.max32
    residue := (w.residue + e * f) % 10000000 }

/-- Changes of a train that one event makes together: the planner is handed a change where the capacity counted after
them differs from the one before them, and none where it comes back to it (R78, R108). -/
def netCapacity (t : Nat) (f : Ev → Ev) (ev : Ev) : Ev :=
  let counted (s : State) : Nat := (s.train t).counted (s.trainDef t)
  { f ev with restep := ev.restep || counted ev.s != counted (f ev).s }

/-- Water of energy `e` charged to the ADSORBING tower `w`, and the check for a switch (R65, R66). -/
def chargeTower (t e : Nat) (d : TrainDef) (w : TowerId) (ev : Ev) : Ev :=
  checkSwitch t d (changeTrain t (fun r => r.updTower w (Tower.charge e (ev.s.waterFactor d))) ev)

/-- A hand-off of energy to a train (R65). -/
def handOff (t e : Nat) (ev : Ev) : Ev :=
  match ev.s.trainDef t with
  | none => ev
  | some d =>
    match (ev.s.train t).adsorbing with
    | none => raise .wetGas (some t) ev
    | some w => netCapacity t (chargeTower t e d w) ev

/-! ### Dew point (R71 to R73) -/

/-- The off-spec mark is set: deadline removed, TRAIN_OFF_SPEC raised (R72, R73). -/
def markOffSpec (t : Nat) (ev : Ev) : Ev :=
  raise .trainOffSpec (some t) (changeTrain t (fun r => { r with offSpec := true, offSpecDeadline := none }) ev)

/-- A new dew-point value at a train in service (R71, R73). -/
def Train.dewValue (s : State) (d : TrainDef) (v : Int) (r : Train) : Train :=
  if !r.inService then r
  else if r.offSpec then
    if v ≤ d.dewLimit - d.hysteresis then { r with offSpec := false } else r
  else if v > d.dewLimit then
    if r.offSpecDeadline.isNone then { r with offSpecDeadline := some (s.after d.dwell) } else r
  else { r with offSpecDeadline := none }

/-- A new value of a channel at a train whose dew-point channel it is. -/
def trainDewValue (ch : Nat) (v : Int) (ev : Ev) (t : Nat) : Ev :=
  match ev.s.trainDef t with
  | some d => if d.dewChannel = ch then changeTrain t (·.dewValue ev.s d v) ev else ev
  | none => ev

/-- A channel goes LOST at a train whose dew-point channel it is (R73). -/
def trainDewLost (ch : Nat) (ev : Ev) (t : Nat) : Ev :=
  match ev.s.trainDef t with
  | some d =>
    let r := ev.s.train t
    if d.dewChannel = ch ∧ r.inService ∧ !r.offSpec then markOffSpec t ev else ev
  | none => ev

/-! ### Into and out of service (R74, R75) -/

/-- The towers of a train put in service: with no tower ADSORBING, a STANDBY tower becomes so, A before B (R74). -/
def Train.intoService (t : Train) : Train :=
  let take (w : Tower) : Tower := { w with state := .adsorbing, inletOpen := true }
  let r := { t with inService := true }
  if r.adsorbing.isSome then r
  else if r.towerA.state = .standby then { r with towerA := take r.towerA }
  else if r.towerB.state = .standby then { r with towerB := take r.towerB }
  else r

/-- The dew point taken into supervision as a train comes into service (R74). -/
def takeDewPoint (t : Nat) (d : TrainDef) (ev : Ev) : Ev :=
  let ch := ev.s.chan d.dewChannel
  if ch.quality = .lost then markOffSpec t ev
  else changeTrain t (·.dewValue ev.s d ch.value) ev

/-- The switch of a train put in service with its ADSORBING tower at capacity (R74). -/
def switchFullBed (t : Nat) (d : TrainDef) (ev : Ev) : Ev :=
  match (ev.s.train t).switchTarget with
  | some w => if (ev.s.train t).full d then beginSwitch t d w ev else ev
  | none => ev

/-- A train is put in service (R74), in the order of the rule: the beds, the switch of a full one, the dew point, the
check of R66; the planner is handed the net change of the capacity counted. -/
def intoService (t : Nat) (d : TrainDef) (ev : Ev) : Ev :=
  netCapacity t
    (fun e => checkSwitch t d (takeDewPoint t d (switchFullBed t d (changeTrain t Train.intoService e)))) ev

/-- A train is taken out of service (R75). -/
def Train.outOfService (r : Train) : Train :=
  { r with inService := false, offSpec := false, offSpecDeadline := none }

/-! ### Bringing into line with a PLANT group (R61, R80) -/

/-- A bed whose history is unknown (R61). -/
def Tower.unknownBed (s : State) (d : TrainDef) (w : Tower) : Tower :=
  { w with state := .regenerating, loading := 0, residue := 0, inletOpen := false, step := some (s.after d.regen) }

/-- A train's record under a group in force (R61). -/
def Train.fit (s : State) (d : Option TrainDef) (r : Train) : Train :=
  match d with
  | some d =>
    if r.present then r
    else
      { r with
        present := true, inService := false, offSpec := false, offSpecDeadline := none, switch := none
        towerA := r.towerA.unknownBed s d, towerB := r.towerB.unknownBed s d }
  | none =>
    let shut (w : TowerId) (x : Tower) : Tower :=
      { x with step := none, inletOpen := x.inletOpen && !r.switch.any (·.incoming == w) }
    { r with
      present := false, inService := false, offSpec := false, offSpecDeadline := none, switch := none
      towerA := shut .a r.towerA, towerB := shut .b r.towerB }

/-- R61 at every train. -/
def State.fitTrains (s : State) : State :=
  { s with dtc := { trains := s.dtc.trains.mapIdx fun t r => r.fit s (s.trainDef t) } }

/-- A tower at a start (R80): command CLOSED until the start completes, no step deadline. -/
def Tower.restart (cold : Bool) (w : Tower) : Tower :=
  { w with
    state := if cold then .regenerating else w.state
    loading := if cold then 0 else w.loading
    residue := if cold then 0 else w.residue
    step := none, inletOpen := false }

/-- A train at a start before R61 (R80). -/
def Train.restart (cold : Bool) (r : Train) : Train :=
  { r with
    present := !cold && r.present, inService := false, offSpec := false, offSpecDeadline := none, switch := none
    towerA := r.towerA.restart cold, towerB := r.towerB.restart cold }

/-- The Drying Train Controller at a start (R80). -/
def State.startDtc (s : State) (cold : Bool) : State :=
  ({ s with dtc := { trains := s.dtc.trains.map (·.restart cold) } } : State).fitTrains

/-- A tower when the start completes (R63, R80): an ADSORBING tower's inlet opens, a step begins anew. -/
def Tower.completeStart (s : State) (d : Option TrainDef) (w : Tower) : Tower :=
  match w.state, d with
  | .adsorbing, _ => { w with inletOpen := true }
  | .regenerating, some d => { w with step := some (s.after d.regen) }
  | .cooling, some d => { w with step := some (s.after d.cool) }
  | _, _ => w

/-- The Drying Train Controller when the start completes (R80). -/
def State.completeStartDtc (s : State) : State :=
  { s with dtc := { trains := s.dtc.trains.mapIdx fun t r =>
      { r with
        towerA := r.towerA.completeStart s (s.trainDef t), towerB := r.towerB.completeStart s (s.trainDef t) } } }

end Sys2Proof.Machine
end

