-- ==== Sys2Proof/Machine/Book.lean ====
section
/-! DEFINITION. The Account Book inside an event (05): confirmation, the station pass, re-confirmation, the day roll,
and what a SITE group does to the book. -/

namespace Sys2Proof.Machine

/-! ### Confirmation (R94, R95) -/

/-- A ratcheted right: the right × rate ‰ at the fill of projection `p` in space `space`; the right itself while SITE
is INVALID (R94). -/
def ratcheted (table : Option (List (Int × Int))) (right space : Nat) (p : Int) : Nat :=
  match table with
  | none => right
  | some t =>
    let fill := if space = 0 then 1000 else (p * 1000).tdiv space
    right * (interpolate t fill).toNat / 1000

/-- An account's confirmation on its own in a slot with nomination `n` and projection `p` (R95). -/
def Account.confirm (site : Option Site) (a : Account) (n p : Int) : Int × Reason :=
  if a.state = .suspended then (0, .suspended)
  else if n > 0 then
    let r := ratcheted (site.map Site.injRatchet) a.rin a.space p
    let c := min (min n r) (max 0 (a.space - p))
    (c, if c = n then .none else if c = r then .rate else .space)
  else if n < 0 then
    let r := ratcheted (site.map Site.wdRatchet) a.rwd a.space p
    let c := min (min (-n) r) (max 0 p)
    (-c, if -c = n then .none else if c = r then .rate else .inventory)
  else (0, .none)

/-! ### The station pass (R97) -/

/-- The shares of an excess `x` by tier: INTERRUPTIBLE first, FIRM only when they are not enough. -/
def tierShares (x : Nat) (interruptible firm : List Nat) : List Nat :=
  let i := sumNat interruptible
  if x ≤ i then proportional x interruptible
  else List.zipWith (· + ·) interruptible (proportional (x - i) firm)

/-- Take an excess from the confirmations of one sign (`sign` is 1 or −1). -/
def takeExcess (sign : Int) (x : Nat) (classes : List AccountClass) (cs : List (Int × Reason)) :
    List (Int × Reason) :=
  let weight (k : AccountClass) (cl : AccountClass) (c : Int × Reason) : Nat := if cl = k then (sign * c.1).toNat else 0
  let shares := tierShares x (List.zipWith (weight .interruptible) classes cs) (List.zipWith (weight .firm) classes cs)
  List.zipWith (fun (c : Int × Reason) (q : Nat) => if q = 0 then c else (c.1 - sign * q, .station)) cs shares

/-- The station pass over the confirmations of one slot (R97). -/
def stationPass (cap : CapSlot) (classes : List AccountClass) (cs : List (Int × Reason)) : List (Int × Reason) :=
  let net := sumInt (cs.map Prod.fst)
  if net > cap.inj then takeExcess 1 (net - cap.inj).toNat classes cs
  else if -net > cap.wd then takeExcess (-1) (-net - cap.wd).toNat classes cs
  else cs

/-! ### Re-confirmation (R98) -/

/-- One slot of a re-confirmation: every account on its own, the station pass, the projections advanced. -/
def State.confirmSlot (s : State) (st : List Account × List Int) (k : Nat) : List Account × List Int :=
  let own := List.zipWith (fun (a : Account) p => a.confirm s.site (a.slot k).n p) st.1 st.2
  let cs := stationPass (s.capSlot k) (st.1.map Account.cls) own
  (List.zipWith (fun (a : Account) (c : Int × Reason) =>
      { a with book := a.book.modify k fun x => { x with c := c.1, reason := c.2 } }) st.1 cs,
    List.zipWith (fun p (c : Int × Reason) => p + c.1) st.2 cs)

/-- Projected inventory of an account at the start of a slot at or after the running slot (R98). -/
def Account.projection (a : Account) (running k : Nat) : Int :=
  a.inventory + sumInt ((List.range' running (k - running)).map fun j => (a.slot j).c)

/-- The accounts after a re-confirmation from slot `h`. -/
def State.confirmed (s : State) (h : Nat) : List Account :=
  ((List.range' h (48 - h)).foldl s.confirmSlot
    (s.acb.accounts, s.acb.accounts.map fun a => a.projection s.acb.running h)).1

/-- The lowest slot whose confirmed quantity differs between two records of an account. -/
def firstChange (before after : Account) : Option Nat :=
  (List.range 48).find? fun k => (before.slot k).c != (after.slot k).c

/-- The accounts whose confirmed quantities differ. -/
def changedAccounts (before after : List Account) : List Nat :=
  (List.range 32).filter fun a => (firstChange (before.getD a {}) (after.getD a {})).isSome

/-- One CURTAILMENT for each account whose confirmed quantities differ, with the lowest slot that changed (R92). That they
are raised in ascending account index is the model's choice (log entry 13). -/
def raiseCurtailments (before after : List Account) (ev : Ev) : Ev :=
  (List.range 32).foldl (fun e a =>
    match firstChange (before.getD a {}) (after.getD a {}) with
    | some k => raise .curtailment (some a) e (.slot k)
    | none => e) ev

/-- A re-confirmation from slot `h` (R98): changed accounts are marked and one CURTAILMENT is raised for each (R92). -/
def reconfirm (h : Nat) (ev : Ev) : Ev :=
  let before := ev.s.acb.accounts
  let after := ev.s.confirmed h
  let changed := changedAccounts before after
  let marked := after.mapIdx fun a r => if changed.contains a then { r with mark := true } else r
  raiseCurtailments before after (ev.map fun s => { s with acb := { s.acb with accounts := marked } })

/-- The net confirmed quantity of a slot. -/
def State.netConfirmed (s : State) (k : Nat) : Int := sumInt (s.acb.accounts.map fun a => (a.slot k).c)

/-! ### Inventories -/

/-- An account's inventory becomes `v`: change mark and inventory watches (R92, R142). -/
def setInventory (a : Nat) (v : Int) (ev : Ev) : Ev :=
  if (ev.s.account a).inventory = v then ev
  else newWatchValue (· == .accountInventory a) v
    (ev.map fun s => s.updAccount a fun r => { r with inventory := v, mark := true })

/-- Set an account's change mark. -/
def State.mark (s : State) (a : Nat) : State := s.updAccount a fun r => { r with mark := true }

/-! ### The book's own time (R82, R100) -/

/-- An emptied book (R83). -/
def emptyBook : List Slot := List.replicate 48 {}

/-- An account whose book is emptied; its mark is set when a confirmed quantity changes by it (R92). -/
def Account.emptied (a : Account) : Account :=
  { a with book := emptyBook, mark := a.mark || a.book.any fun x => x.c != 0 }

/-- A capacity slot at the nominal values in force (R91). -/
def State.nominal (s : State) : CapSlot := { inj := s.nomInj, wd := s.nomWd, declared := false }

/-- The day roll (R100). -/
def State.dayRoll (s : State) : State :=
  { s with acb :=
      { s.acb with
        running := 0
        accounts := s.acb.accounts.map fun a =>
          { a with book := a.book.drop 24 ++ List.replicate 24 {}, fuel := 0 }
        caps := s.acb.caps.drop 24 ++ List.replicate 24 s.nominal } }

/-- The running slot moves on at the end of a period: the day roll at a day boundary, otherwise one up (R82). The
range 0..23 is kept (log entry 28). -/
def State.advanceBook (s : State) (dayEnds : Bool) : State :=
  if dayEnds then s.dayRoll else { s with acb := { s.acb with running := min (s.acb.running + 1) 23 } }

/-- A boundary taken by an UNLOADED book (R82). -/
def unloadedBoundary (dayEnds : Bool) (ev : Ev) : Ev :=
  let ev1 := ev.map fun s => s.advanceBook dayEnds
  reconfirm ev1.s.acb.running ev1

/-- The running slot set from the clock (R82). -/
def State.runningFromClock (s : State) : State :=
  { s with acb := { s.acb with running := slotOfClock s.startHour s.clock } }

/-- Every book emptied and every capacity slot NOMINAL (R101, R138). -/
def State.emptyBooks (s : State) : State :=
  { s with acb :=
      { s.acb with
        accounts := s.acb.accounts.map Account.emptied, caps := List.replicate 48 s.nominal } }

/-! ### A SITE group reaches the book (R101) -/

/-- The capacity slots of source NOMINAL from the first open slot on take the nominal values, and those before it keep
theirs (R101); while SITE is INVALID every one holds 0 (R91). -/
def State.refreshCaps (s : State) : State :=
  { s with acb :=
      { s.acb with caps := s.acb.caps.mapIdx fun k c =>
          if c.declared || (s.site.isSome && k < s.firstOpen) then c else s.nominal } }

/-- A change of the start hour under an UNLOADED book. -/
def State.newStartHour (s : State) : State :=
  let s1 := s.emptyBooks
  if s.mu.set then s1.runningFromClock else s1

/-- R101, with the SITE group in force already replaced; `old` is the group before. `load`: by start-up, at which the
capacities count as changed when a slot takes another value, and neither the ratchet tables nor the start hour run
anything (R102). A write that changes the start hour runs a re-confirmation as any that reaches the book does (R99). What
a load with another start hour does is the model's choice (log entry 28), and that a slot which an INVALID SITE sets to 0
counts as changed is too (log entry 39). -/
def siteToBook (old : Option Site) (load : Bool) (ev : Ev) : Ev :=
  let hour := (old.map Site.startHour).getD Config.startHourInvalid
  let shifts : Bool := hour != ev.s.startHour && !ev.s.acb.loaded
  let s1 := if shifts then ev.s.newStartHour else ev.s
  let s2 := s1.refreshCaps
  let values (l : List CapSlot) : List (Nat × Nat) := l.map fun c => (c.inj, c.wd)
  let caps := if load then values s2.acb.caps != values ev.s.acb.caps
    else (old.map Site.nomInj).getD 0 != ev.s.nomInj || (old.map Site.nomWd).getD 0 != ev.s.nomWd
  let ratchets := !load && old.map (fun o => (o.injRatchet, o.wdRatchet)) !=
    ev.s.site.map (fun o => (o.injRatchet, o.wdRatchet))
  if caps || ratchets || (!load && shifts) then reconfirm s2.firstOpen { ev with s := s2 } else { ev with s := s2 }

/-- The Account Book at a start (R102); the capacity slots take their values from `siteToBook`. -/
def State.startAcb (s : State) (cold : Bool) : State := if cold then { s with acb := {} } else s

end Sys2Proof.Machine
end

