-- ==== Sys2Proof/Machine/Planner.lean ====
section
/-! DEFINITION. The Flow Planner inside an event (06): period figures, limits, demands, setpoint, the walk down the
merit list, and the held and active steps. -/

namespace Sys2Proof.Machine

/-! ### Period figures (R109 to R111) -/

/-- The period slot: the running slot, or the one after it while a close is in flight, slot 24 where the period being
closed ends at a day boundary (R109). -/
def State.periodSlot (s : State) : Nat :=
  match s.su.current with
  | none => s.acb.running
  | some c => if s.endsDay c.due.start then 24 else s.acb.running + 1

/-- Direction of a run. That M1..M6 count as UNUSED while SITE is INVALID is the model's choice (log entry 47). -/
def State.runDir (s : State) (r : Nat) : RunDir := ((s.runDef r).bind RunDef.dir).getD .unused

/-- The energy so far, in kWh (R110). -/
def State.soFar (s : State) : Int :=
  (sumInt ((List.range 6).map fun r =>
    match s.runDir r with
    | .inject => ((s.run r).acc : Int)
    | .withdraw => -((s.run r).acc : Int)
    | .unused => 0)).tdiv 10000

/-- Seconds from the clock to the end of its period (R111). -/
def timeLeft (c : Clk) : Nat :=
  if 4294965600 ≤ c.toNat then 4294967296 - c.toNat else 3600 - c.toNat % 3600

/-- The period figures of a step; absent unless the book is LOADED and the clock set (R104, R109 to R111). -/
def State.figures (s : State) : Option Figures :=
  if s.acb.loaded && s.mu.set then
    let target := s.netConfirmed s.periodSlot
    let tr := timeLeft s.clock
    let te := max tr s.catchUpFloor
    some
      { slot := s.periodSlot, target := target, soFar := s.soFar, timeLeft := tr, effective := te
        required := clamp (-Config.maxRate) Config.maxRate (((target - s.soFar) * 3600).tdiv te) }
  else none

/-! ### Limits and demands (R112 to R114) -/

/-- Sum of the injection permits down the INJECT merit list. -/
def State.injSum (s : State) : Nat := sumNat (s.cvc.injMerit.map fun c => (s.cav c).injPermit)

/-- Sum of the withdrawal permits down the WITHDRAW merit list. -/
def State.wdSum (s : State) : Nat := sumNat (s.cvc.wdMerit.map fun c => (s.cav c).wdPermit)

/-- The withdrawal limit (R112). -/
def State.wdLimit (s : State) : Nat := min (min s.wdSum s.dryingCapacity) (s.capSlot s.periodSlot).wd

/-- The injection limit, from the running INJECT capacity as it stands (R112). -/
def State.injLimit (s : State) : Nat :=
  min (min s.injSum (s.runningCapacity .inject)) (s.capSlot s.periodSlot).inj

/-- What the walk gives a cavern. -/
inductive Order where
  | rate (v : Int)
  | dwell
deriving DecidableEq, Repr

/-- A walk in progress: remaining, boost pool left (none: no pool is kept), orders given. -/
structure Walk where
  remaining : Nat
  pool : Option Nat
  orders : List (Nat × Order)
deriving DecidableEq, Repr

/-- The state and last direction of a cavern that flows in a direction. -/
def flowState (inject : Bool) : CavernState := if inject then .injecting else .withdrawing

/-- The last direction of a flow. -/
def flowLast (inject : Bool) : LastDir := if inject then .inject else .withdraw

/-- One cavern of the walk (R117, R118). -/
def State.walkStep (s : State) (inject : Bool) (w : Walk) (c : Nat) : Walk :=
  let r := s.cav c
  if r.state = flowState inject ∨ (r.state = .idle ∧ r.last ≠ flowLast (!inject)) then
    let low := !inject && s.lowPressure c
    let cap := min w.remaining (if inject then r.injPermit else r.wdPermit)
    let give := if low then min cap (w.pool.getD cap) else cap
    { remaining := w.remaining - give
      pool := if low then w.pool.map (· - give) else w.pool
      orders := w.orders ++ [(c, .rate (if inject then give else -(give : Int)))] }
  else if r.state = .idle then
    { w with orders := w.orders ++ [(c, if w.remaining > 0 then .dwell else .rate 0)] }
  else w

/-- The walk down the merit list of a direction (R117). -/
def State.walk (s : State) (inject : Bool) (amount : Nat) (pool : Option Nat) : Walk :=
  (if inject then s.cvc.injMerit else s.cvc.wdMerit).foldl (s.walkStep inject)
    { remaining := amount, pool := pool, orders := [] }

/-- Magnitude an order assigns. -/
def Order.magnitude : Order → Nat
  | .rate v => v.natAbs
  | .dwell => 0

/-- The INJECT demand (R113). -/
def State.injDemand (s : State) (r : Int) : Nat :=
  (max 0 (min r (min s.injSum (s.capSlot s.periodSlot).inj : Nat))).toNat

/-- The BOOST demand, by a trial distribution without a pool (R114). -/
def State.boostDemand (s : State) (r : Int) : Nat :=
  if r < 0 then
    let trial := s.walk false (min r.natAbs s.wdLimit) none
    sumNat (trial.orders.map fun (c, o) => if s.lowPressure c then o.magnitude else 0)
  else 0

/-! ### Distribution (R116, R119) -/

/-- The order a present open cavern receives: dwell against the flow (R116), the walk's order, or an assignment of 0. -/
def State.orderFor (s : State) (setpoint : Int) (w : Walk) (c : Nat) : Order :=
  let r := s.cav c
  if (setpoint > 0 ∧ r.state = .withdrawing) ∨ (setpoint < 0 ∧ r.state = .injecting) then .dwell
  else ((w.orders.find? fun o => o.1 == c).map Prod.snd).getD (.rate 0)

/-- Hand a cavern its order (R34, R35). -/
def giveOrder (o : Order) (c : Nat) (ev : Ev) : Ev :=
  match ev.s.cavDef c with
  | some d =>
    if (ev.s.cav c).state.isOpen then
      match o with
      | .rate v => changeCavern c (·.assign v) ev
      | .dwell => changeCavern c (·.order ev.s d) ev
    else ev
  | none => ev

/-- Hand every cavern its order, as the step found the caverns (R119). -/
def distribute (setpoint : Int) (w : Walk) (ev : Ev) : Ev :=
  (List.range 8).foldl (fun e c => giveOrder (ev.s.orderFor setpoint w c) c e) ev

/-- The walk of a step: none is made for a setpoint of 0 (R116). -/
def State.stepWalk (s : State) (setpoint : Int) : Walk :=
  if setpoint = 0 then { remaining := 0, pool := none, orders := [] }
  else s.walk (setpoint > 0) setpoint.natAbs (if setpoint < 0 then some (s.runningCapacity .boost) else none)

/-! ### Steps -/

/-- An active step (6.3 to 6.5, R115, R119): figures, withdrawal limit, demands with their review, injection limit,
setpoint, distribution. Changes a step makes itself bring no re-step (R108). -/
def activeStep (cause : StepCause) (ev : Ev) : Ev :=
  let fig := ev.s.figures
  let r := (fig.map Figures.required).getD 0
  let wd := ev.s.wdLimit
  let injD := ev.s.injDemand r
  let boostD := ev.s.boostDemand r
  let ev1 := handDemands injD boostD ev
  let inj := ev1.s.injLimit
  let sp := clamp (-(wd : Int)) inj r
  let w := ev1.s.stepWalk sp
  let ev2 := distribute sp w ev1
  { ev2 with
    restep := false
    s := { ev2.s with fpl :=
      { ev2.s.fpl with
        figures := fig, injSum := ev.s.injSum, wdSum := ev.s.wdSum, injLimit := inj, wdLimit := wd, setpoint := sp
        injDemand := injD, boostDemand := boostD, poolLeft := w.pool.getD (ev1.s.runningCapacity .boost)
        placed := sumNat (w.orders.map fun o => o.2.magnitude), lastStep := some (ev.s.clock, cause) } } }

/-- A held step (R104). The limits take the period slot's capacities whether or not the period figures are absent
(log entry 24). -/
def heldStep (cause : StepCause) (ev : Ev) : Ev :=
  let ev1 := handDemands 0 0 ev
  let ev2 := distribute 0 (ev1.s.stepWalk 0) ev1
  { ev2 with
    restep := false
    s := { ev2.s with fpl :=
      { ev2.s.fpl with
        figures := ev.s.figures, injSum := ev.s.injSum, wdSum := ev.s.wdSum, injLimit := ev1.s.injLimit
        wdLimit := ev.s.wdLimit, setpoint := 0, injDemand := 0, boostDemand := 0
        poolLeft := ev1.s.runningCapacity .boost, placed := 0, lastStep := some (ev.s.clock, cause) } } }

/-- A step of the planner, active or held by its state (R103). -/
def fplStep (cause : StepCause) (ev : Ev) : Ev :=
  if ev.s.fpl.active then activeStep cause ev else heldStep cause ev

/-- The planner at a start (R121). -/
def State.startFpl (s : State) : State :=
  { s with fpl := { dispatch := s.site.map fun p => s.after p.dispatchInterval } }

end Sys2Proof.Machine
end

