-- ==== Sys2Proof/Machine/Trips.lean ====
section
/-! DEFINITION. The Trip Unit inside an event (8.3), and the end of an event: the launches it handed on, then the one
re-step it brings (R108, R156). -/

namespace Sys2Proof.Machine

/-- The snapshot of a trip record (R155). -/
def State.snapshot (s : State) : TripSnapshot :=
  { tripped := s.tru.tripped, active := s.fpl.active, setpoint := s.fpl.setpoint
    caverns := (List.range 8).map fun c => (s.cavDef c).map fun _ =>
      ((s.cav c).state, (s.cav c).pressure, (s.cav c).quality, (s.cav c).setpoint)
    units := (List.range 6).map fun u => (s.unitDef u).map fun _ => (s.unit u).state
    trains := (List.range 4).map s.trainState
    soFar := s.soFar, balance := s.su.balance }

/-- Where the record of a launch is placed (R157). -/
def Tru.place (t : Tru) (r : TripRecord) : Tru :=
  match t.current with
  | none => { t with current := some r }
  | some c =>
    if c.acknowledged then { t with current := some r }
    else { t with prior := some c, current := some r, cascade := min (t.cascade + 1) 255 }

/-- The record of a launch is formed and placed (R156 step 1). -/
def State.record (s : State) (l : Launch) : State :=
  let r : TripRecord :=
    { code := l.code, scope := l.scope, clock := s.clock, watch := l.watch, acknowledged := false
      secondFailures := [], snapshot := s.snapshot }
  { s with tru := s.tru.place r }

/-- A station-scope trip command (R156 step 2): caverns, units, then the planner's held step. The step covers the
changes the command makes, so they bring no re-step; one already owed stays owed. -/
def tripStation (ev : Ev) : Ev :=
  let owed := ev.restep
  let ev1 := tripUnits (tripAllCaverns (ev.map fun s => { s with tru := { s.tru with tripped := true } }))
  let ev2 := heldStep .trip (ev1.map fun s => { s with fpl := { s.fpl with active := false } })
  { ev2 with restep := owed }

/-- A launch, whole (R156). -/
def launchTrip (ev : Ev) (l : Launch) : Ev :=
  let ev1 := ev.map fun s => s.record l
  let ev2 := match l.scope with
    | none => tripStation ev1
    | some c => tripCavern false c ev1
  ev2.map fun s => s.joinNotice 0 (.trip l.code) l.code

/-- A valve failure during trip closure (R158). -/
def secondFailure (c : Nat) (ev : Ev) : Ev :=
  ev.map fun s =>
    ({ s with tru :=
        { s.tru with current := s.tru.current.map fun r =>
            { r with secondFailures := r.secondFailures ++ [(c, s.clock)] } } } : State).joinNotice 0 (.trip 0x050) 0x050

/-- A new value of the header channel at the Trip Unit (R154). -/
def headerCheck (v : Int) (ev : Ev) : Ev :=
  match ev.s.site with
  | none => ev
  | some p =>
    let above : Bool := v > p.headerLimit
    let rises := above && !ev.s.tru.headerAbove
    let ev1 := ev.map fun s => { s with tru := { s.tru with headerAbove := above } }
    if rises then ev1.launch { code := 0x040 } else ev1

/-- Launches of one event in ascending trip code, those of one code in ascending watch index (R156). -/
def Launch.before (a b : Launch) : Bool :=
  a.code < b.code || (a.code == b.code && (a.watch.map Prod.fst).getD 0 ≤ (b.watch.map Prod.fst).getD 0)

/-- Put a launch in its place. -/
def insertLaunch (l : Launch) : List Launch → List Launch
  | [] => [l]
  | x :: rest => if l.before x then l :: x :: rest else x :: insertLaunch l rest

/-- Launches in their order. -/
def sortLaunches (l : List Launch) : List Launch := l.foldr insertLaunch []

/-- The end of an event: the launches handed on are taken, each whole, then the one re-step (R108, R156); a re-step may
hand on launches in its turn. Three rounds are enough for every event (Laws/Finish.lean). -/
def finishRounds : Nat → Ev → State
  | 0, ev => ev.s
  | n + 1, ev =>
    match ev.launches with
    | [] => if ev.restep then finishRounds n (fplStep .restep ev) else ev.s
    | ls => finishRounds n ((sortLaunches ls).foldl launchTrip { ev with launches := [] })

/-- The state an event leaves. -/
def Ev.finish (ev : Ev) : State := finishRounds 64 ev

end Sys2Proof.Machine
end

