-- ==== Sys2Proof/Machine/Settlement.lean ====
section
/-! DEFINITION. The Settlement Unit inside an event (07): snapshot, the beginning and completion of a close with its
allocation and fuel, the skip, and the entry of missed boundaries. -/

namespace Sys2Proof.Machine

/-! ### Snapshot (R123) -/

/-- Whether a run of the seven gives its whole kWh to a snapshot: FUEL, or a run with a direction. -/
def State.snapped (s : State) (r : Nat) : Bool := r == 6 || s.runDir r != .unused

/-- The snapshot of the accumulators (R123). -/
def State.meterSnapshot (s : State) : Snapshot :=
  let figure (r : Nat) : Nat := if s.snapped r then (s.run r).acc / 10000 else 0
  { runs := (List.range 6).map fun r => (s.runDir r, figure r), fuel := figure 6 }

/-- The accumulators after a snapshot: the residues (R123). -/
def State.keepResidues (s : State) : State :=
  { s with mu :=
      { s.mu with runs := s.mu.runs.mapIdx fun r x => if s.snapped r then { x with acc := x.acc % 10000 } else x } }

/-- Sum of the figures recorded under a direction (R123). -/
def Snapshot.sum (p : Snapshot) (d : RunDir) : Nat :=
  sumNat (p.runs.map fun x => if x.1 = d then x.2 else 0)

/-! ### Allocation and fuel (R126 to R130) -/

/-- The case of a close (R126). -/
def caseOf (t l : Nat) (b c d : Int) : Case :=
  if d.natAbs ≤ t ∧ (b + d).natAbs ≤ l then .tolerance
  else if c > 0 ∧ d < 0 then .shortInject
  else if c < 0 ∧ d > 0 then .shortWithdraw
  else .oba

/-- Weights of the accounts of one class on one side (`sign` 1: injectors, −1: withdrawers). -/
def sideWeights (sign : Int) (k : AccountClass) (classes : List AccountClass) (cs : List Int) : List Nat :=
  List.zipWith (fun cl c => if cl = k then (sign * c).toNat else 0) classes cs

/-- A shortfall `q` taken from one side by tier, with the OBA allocation entry (R127, R128). -/
def shortfall (sign : Int) (q : Nat) (classes : List AccountClass) (cs : List Int) : List Int × Int :=
  let i := sideWeights sign .interruptible classes cs
  let f := sideWeights sign .firm classes cs
  let taken := min q (sumNat i + sumNat f)
  (List.zipWith (fun (c : Int) (x : Nat) => c - sign * x) cs (tierShares taken i f), -(sign * (q - taken : Nat)))

/-- The allocation of a period: every aₛ and the OBA allocation entry (R126). -/
def allocate (k : Case) (d : Int) (classes : List AccountClass) (cs : List Int) : List Int × Int :=
  match k with
  | .tolerance | .oba => (cs, d)
  | .shortInject => shortfall 1 d.natAbs classes cs
  | .shortWithdraw => shortfall (-1) d.natAbs classes cs

/-- Fuel weights: the injectors' allocations, else the withdrawers', else none (R129). -/
def fuelWeights (a : List Int) : List Nat :=
  let inj := a.map fun x => x.toNat
  if sumNat inj > 0 then inj else a.map fun x => (-x).toNat

/-- Fuel shares before the cap (R129). -/
def fuelShares (f : Nat) (weights : List Nat) : List Nat := proportional (min f (sumNat weights)) weights

/-- Fuel shares after the cap, Iₛ + aₛ (R130). -/
def cappedShares (inventories a : List Int) (shares : List Nat) : List Nat :=
  List.zipWith (fun (h : Int) (x : Nat) => min x h.toNat) (List.zipWith (· + ·) inventories a) shares

/-- What a close settles: its figures, and each account's cₛ, aₛ and fₛ. -/
structure Settled where
  n : Int
  c : Int
  d : Int
  f : Nat
  case : Case
  cs : List Int
  a : List Int
  fuel : List Nat
  obaAlloc : Int
  obaFuel : Nat
deriving DecidableEq, Repr

/-- The arithmetic of a close, from accounts, balance, T, L and snapshot figures (R126 to R130). -/
def settle (t l : Nat) (b : Int) (eIn eOut f : Nat) (accounts : List Account) (slot : Nat) : Settled :=
  let cs := accounts.map fun a => (a.slot slot).c
  let n := (eIn : Int) - eOut
  let c := sumInt cs
  let d := n - c
  let k := caseOf t l b c d
  let (a, entry) := allocate k d (accounts.map Account.cls) cs
  let shares := cappedShares (accounts.map Account.inventory) a (fuelShares f (fuelWeights a))
  { n := n, c := c, d := d, f := f, case := k, cs := cs, a := a, fuel := shares, obaAlloc := entry
    obaFuel := f - sumNat shares }

/-! ### Posting and record (R131, R134, R135) -/

/-- Whether an account has a nonzero figure in the period. -/
def Settled.touches (r : Settled) (a : Nat) : Bool :=
  r.cs.getD a 0 != 0 || r.a.getD a 0 != 0 || r.fuel.getD a 0 != 0

/-- The posting at one account (R131). -/
def Settled.post (r : Settled) (i : Nat) (a : Account) : Account :=
  { a with
    inventory := a.inventory + r.a.getD i 0 - r.fuel.getD i 0
    fuel := min (a.fuel + r.fuel.getD i 0) Config.maxInventory
    mark := a.mark || r.touches i }

/-- The OBA balance becomes `b`: the balance watches (R131, R132, R142). -/
def setBalance (b : Int) (ev : Ev) : Ev :=
  if ev.s.su.balance = b then ev
  else newWatchValue (· == .obaBalance) b (ev.map fun s => { s with su := { s.su with balance := b } })

/-- Inventory watches at a posting, account by account. -/
def inventoryWatches (before : List Account) (ev : Ev) : Ev :=
  (List.range 32).foldl (fun e a =>
    if (before.getD a {}).inventory = (ev.s.account a).inventory then e
    else newWatchValue (· == .accountInventory a) (ev.s.account a).inventory e) ev

/-- The posting of a close (R131). That the watches on the balance take their new value before those on the inventories
is the model's choice (log entry 13). -/
def postClose (r : Settled) (ev : Ev) : Ev :=
  let before := ev.s.acb.accounts
  let ev1 := ev.map fun s => { s with acb := { s.acb with accounts := s.acb.accounts.mapIdx r.post } }
  inventoryWatches before (setBalance (ev.s.su.balance + r.obaAlloc - r.obaFuel) ev1)

/-- The injected energy of the snapshot of a close, 0 of an UNMETERED period (R123). -/
def Close.energyIn (c : Close) : Nat := (c.due.snapshot.map fun p => p.sum .inject).getD 0

/-- The withdrawn energy of the snapshot of a close (R123). -/
def Close.energyOut (c : Close) : Nat := (c.due.snapshot.map fun p => p.sum .withdraw).getD 0

/-- The fuel energy of the snapshot of a close (R123). -/
def Close.fuel (c : Close) : Nat := (c.due.snapshot.map Snapshot.fuel).getD 0

/-- The hour of a close had no confirmations and nothing metered. -/
def Settled.idle (r : Settled) (c : Close) : Bool :=
  r.cs.all (· == 0) && c.energyIn == 0 && c.energyOut == 0 && c.fuel == 0

/-- The period record of a close (R134). An hour with no confirmations and nothing metered has case OBA in its record,
though R126 settles it as TOLERANCE where the balance is within its limit (log entry 38). -/
def Settled.toRecord (r : Settled) (c : Close) : PeriodRecord :=
  { number := c.due.number, start := c.due.start, slot := c.slot, metered := c.due.snapshot.isSome, c := r.c
    eIn := c.energyIn, eOut := c.energyOut, d := r.d, f := r.f, obaAlloc := r.obaAlloc, obaFuel := r.obaFuel
    case := if r.idle c then .oba else r.case
    shippers := ((List.range r.cs.length).filter r.touches).map fun a =>
      { account := a, c := r.cs.getD a 0, a := r.a.getD a 0, f := r.fuel.getD a 0 } }

/-- A record into the history ring (R135). -/
def addRecord (ring : List PeriodRecord) (r : PeriodRecord) : List PeriodRecord :=
  let l := ring ++ [r]
  l.drop (l.length - Config.ringPlaces)

/-! ### The skip (R138) -/

/-- The book emptied and brought to the clock (R138). -/
def skipBook (ev : Ev) : Ev :=
  let before := ev.s.acb.accounts
  let s1 := ev.s.emptyBooks.runningFromClock
  let s2 : State :=
    { s1 with acb :=
        { s1.acb with accounts := s1.acb.accounts.map fun a =>
            { a with fuel := 0, mark := a.mark || a.state != .closed } } }
  raiseCurtailments before s2.acb.accounts { ev with s := s2 }

/-- The skip at a completion: period numbers, book, skipped boundaries (R138). -/
def skip (ev : Ev) : Ev :=
  skipBook (ev.map fun s =>
    { s with su := { s.su with lastNumber := s.su.lastNumber + s.su.skipped, skipped := 0 } })

/-! ### Completion (R125) -/

/-- The next close due begins, or the state becomes NONE (R125 step 8). -/
def State.nextClose (s : State) : State :=
  match s.su.due with
  | [] => { s with su := { s.su with current := none } }
  | d :: rest => { s with su := { s.su with current := some { due := d, slot := s.acb.running }, due := rest } }

/-- OBA_LIMIT is raised when the balance stands beyond L (R131, R132). -/
def raiseObaLimit (ev : Ev) : Ev :=
  if ev.s.su.balance.natAbs > ev.s.obaLimit then raise .obaLimit none ev (.balance ev.s.su.balance) else ev

/-- What a close settles as it completes, by the book and the limits in force (R125 steps 1 and 2). -/
def State.settled (s : State) (c : Close) : Settled :=
  settle s.tolerance s.obaLimit s.su.balance c.energyIn c.energyOut c.fuel s.acb.accounts c.slot

/-- Steps 3 to 5 of R125: the posting, the period record, the running slot. -/
def postPeriod (c : Close) (ev : Ev) : Ev :=
  (postClose (ev.s.settled c) ev).map fun s =>
    ({ s with su := { s.su with ring := addRecord s.su.ring ((ev.s.settled c).toRecord c) } } : State).advanceBook
      (ev.s.endsDay c.due.start)

/-- Steps 6 to 9 of R125: the re-confirmation, the skip, the next close due, the planner's re-step. -/
def openPeriod (ev : Ev) : Ev :=
  let ev1 := reconfirm ev.s.acb.running ev
  let ev2 := if ev1.s.su.due.isEmpty && ev1.s.su.skipped != 0 then skip ev1 else ev1
  fplStep .restep (ev2.map State.nextClose)

/-- The completion of a close, in the order of R125. The balance that OBA_LIMIT is judged by is the one posted. -/
def completeClose (c : Close) (ev : Ev) : Ev :=
  let r := (ev.s.settled c).toRecord c
  let ev1 := raise .periodClosed none (openPeriod (postPeriod c ev)) (.closed r.number r.case)
  raiseObaLimit (if ev.s.endsDay c.due.start then raise .dayRolled none ev1 else ev1)

/-! ### A boundary (R122, R139) -/

/-- A period is entered for closing at a boundary (R122, R136). -/
def State.enterPeriod (s : State) (boundary : Clk) (metered : Bool) : State :=
  let d : Due :=
    { number := s.su.lastNumber + 1, start := s.su.openStart.getD boundary
      snapshot := if metered then some s.meterSnapshot else none }
  let s1 := if metered then s.keepResidues else s
  { s1 with su := { s1.su with lastNumber := d.number, openStart := some boundary, due := s1.su.due ++ [d] } }

/-- A live boundary under a LOADED book: the close begins, or waits its turn (R122). -/
def closeBegin (boundary : Clk) (ev : Ev) : Ev :=
  let s1 := ev.s.enterPeriod boundary true
  ({ ev with s := if s1.inFlight then s1 else s1.nextClose } : Ev).hand true

/-- A boundary under an UNLOADED book: the snapshot is discarded and the book takes the boundary (R139). -/
def discardBoundary (boundary : Clk) (day : Bool) (ev : Ev) : Ev :=
  unloadedBoundary day
    (ev.map fun s => { s.keepResidues with su := { s.keepResidues.su with openStart := some boundary } })

/-- A live boundary at the Settlement Unit. -/
def suBoundary (boundary : Clk) (day : Bool) (ev : Ev) : Ev :=
  if ev.s.acb.loaded then closeBegin boundary ev else discardBoundary boundary day ev

/-! ### Missed boundaries (R136, R139) -/

/-- How many boundaries lie after `start` and at or before `clock` (R20, R136). -/
def missedCount (start clock : Clk) : Nat :=
  if start.toNat ≤ clock.toNat then clock.toNat / 3600 - start.toNat / 3600
  else 1193046 - start.toNat / 3600 + 1 + clock.toNat / 3600

/-- The first `n` boundaries after a clock value. -/
def boundariesAfter : Nat → Clk → List Clk
  | 0, _ => []
  | n + 1, c => nextBoundary c :: boundariesAfter n (nextBoundary c)

/-- The start in progress takes one more missed boundary singly (R136, R139). -/
def State.countMissed (s : State) : State := { s with su := { s.su with missedTaken := s.su.missedTaken + 1 } }

/-- A missed boundary is entered for closing: METERED when it is the first of this start, UNMETERED when not (R136). -/
def State.enterMissed (s : State) (b : Clk) : State := (s.enterPeriod b (s.su.missedTaken == 0)).countMissed

/-- A missed boundary that an UNLOADED book takes singly (R139). -/
def discardMissed (ev : Ev) (b : Clk) : Ev := discardBoundary b (isDay ev.s.startHour b) (ev.map State.countMissed)

/-- Missed boundaries under a LOADED book (R136). -/
def missedLoaded (start : Clk) (s : State) : State :=
  let n := missedCount start s.clock
  let taken := min n (Config.closesDuePlaces - s.su.due.length)
  let s1 := (boundariesAfter taken start).foldl State.enterMissed s
  if n = taken then s1
  else { s1 with su :=
      { s1.su with skipped := s1.su.skipped + (n - taken), openStart := some (periodStart s.clock) } }

/-- Missed boundaries under an UNLOADED book: the first 48 of the whole start are taken singly and the rest as one skip
(R139). Those found when the start begins and those found when it completes count together: a skip at the completion
that follows one at the beginning finds the book empty, and leaves what one skip of both would leave. -/
def missedUnloaded (start : Clk) (ev : Ev) : Ev :=
  let n := missedCount start ev.s.clock
  let taken := min n (Config.missedSingly - ev.s.su.missedTaken)
  let ev1 := (boundariesAfter taken start).foldl discardMissed ev
  if n = taken then ev1
  else skipBook (ev1.map fun s => { s with su := { s.su with openStart := some (periodStart s.clock) } })

/-- The Settlement Unit counts the boundaries missed since the open period start (R136, R139). -/
def missedBoundaries (ev : Ev) : Ev :=
  match ev.s.su.openStart with
  | none => ev
  | some start =>
    if !ev.s.mu.set then ev
    else if ev.s.acb.loaded then ev.map (missedLoaded start) else missedUnloaded start ev

/-- When start-up completes the first close due begins, unless a current close is being re-run (R136); either beginning
hands the planner its re-step (R137). That closes also run while SITE is INVALID is the model's choice (log entry
46). -/
def beginDue (ev : Ev) : Ev :=
  if ev.s.inFlight then ev.hand true
  else if ev.s.su.due.isEmpty then ev
  else (ev.map State.nextClose).hand true

/-- The Settlement Unit at a start (R140). -/
def State.startSu (s : State) (cold : Bool) : State :=
  { s with su := if cold then {} else { s.su with missedTaken := 0 } }

end Sys2Proof.Machine
end

