-- ==== Sys2Proof/Machine/Signals.lean ====
section
/-! DEFINITION. The Measurement Unit inside an event (01): conversion, what a channel reports to its consumers,
readings, pulses, and the clock. -/

namespace Sys2Proof.Machine

/-! ### Reports to consumers (1.1) -/

/-- A watch source that follows a channel: the channel itself, or a cavern whose pressure channel it is (R142). -/
def State.follows (s : State) (ch : Nat) (src : WatchSource) : Bool :=
  match src with
  | .channel i => i == ch
  | .cavernPressure c => (s.cavDef c).any fun d => d.channel == some ch
  | .trainLoading _ | .obaBalance | .accountInventory _ | .meterRate _ | .event _ _ => false

/-- The planner's header record (6.1). -/
def setHeader (ch : Nat) (v : Int) (q : Quality) (ev : Ev) : Ev :=
  if ev.s.headerChannel = some ch then
    ev.map fun s => { s with fpl := { s.fpl with header := v, headerQuality := q } }
  else ev

/-- Every cavern whose pressure channel this is. -/
def cavernsOn (ch : Nat) (s : State) : List Nat :=
  (List.range 8).filter fun c => (s.cavDef c).any fun d => d.channel == some ch

/-- A new value is reported to every consumer: caverns, trains, planner, Trip Unit, then the watches in ascending
index (1.1, R142; log entry 13). -/
def newValue (ch : Nat) (v : Int) (ev : Ev) : Ev :=
  let ev1 := (cavernsOn ch ev.s).foldl (fun e c => cavernNewValue c v e) ev
  let ev2 := (List.range 4).foldl (trainDewValue ch v) ev1
  let ev3 := setHeader ch v (ev2.s.chan ch).quality ev2
  let ev4 := if ev3.s.headerChannel = some ch then headerCheck v ev3 else ev3
  newWatchValue (ev.s.follows ch) v ev4

/-- A quality change is reported to every consumer, with the value they are to use (1.1, R33, R73). -/
def qualityChange (ch : Nat) (ev : Ev) : Ev :=
  let r := ev.s.chan ch
  let ev1 := (cavernsOn ch ev.s).foldl (fun e c => cavernQuality c r.quality r.value e) ev
  let ev2 := if r.quality = .lost then (List.range 4).foldl (trainDewLost ch) ev1 else ev1
  setHeader ch r.value r.quality ev2

/-! ### Conversion and readings (R2 to R7) -/

/-- Division rounded half away from zero (R2; 00, Arithmetic). -/
def roundDiv (n : Int) (d : Nat) : Int := n.sign * ((2 * n.natAbs + d) / (2 * d) : Nat)

/-- The converted result of a loop current; none when it is out of range (R2). -/
def ChanDef.convert (d : ChanDef) (current : Nat) : Option Int :=
  if current < 3600 ∨ 21000 < current then none
  else if current < 4000 then some d.zero
  else if 20000 < current then some d.span
  else some (d.zero + roundDiv ((current - 4000 : Nat) * (d.span - d.zero)) 16000)

/-- A reading of a channel in CHECK (R7). -/
def Channel.checkReading (d : ChanDef) (r : Channel) : Channel :=
  let t := r.test.getD 0
  { r with
    raw := some t
    check := some (match d.convert t with
      | some v => .value v
      | none => .outOfRange) }

/-- An in-range reading with result `v` on a LIVE channel (R5). -/
def inRangeReading (ch : Nat) (v : Int) (ev : Ev) : Ev :=
  let r := ev.s.chan ch
  if r.quality = .good then
    newValue ch v (ev.map fun s => s.updChan ch fun x => { x with value := v, good := 3 })
  else if r.good < 2 then ev.map fun s => s.updChan ch fun x => { x with good := x.good + 1 }
  else
    newValue ch v (qualityChange ch (ev.map fun s => s.updChan ch fun x =>
      { x with value := v, quality := .good, hold := none, good := 3, passHeld := false }))

/-- An out-of-range reading on a LIVE channel (R3). -/
def outOfRangeReading (ch : Nat) (d : ChanDef) (ev : Ev) : Ev :=
  if (ev.s.chan ch).quality = .good then
    qualityChange ch (ev.map fun s => s.updChan ch fun x =>
      { x with good := 0, quality := .held, hold := some (s.after d.hold) })
  else ev.map fun s => s.updChan ch fun x => { x with good := 0 }

/-- A reading of a channel (R1). -/
def reading (ch current : Nat) (d : ChanDef) (ev : Ev) : Ev :=
  if (ev.s.chan ch).mode = .check then ev.map fun s => s.updChan ch (·.checkReading d)
  else
    let ev1 := ev.map fun s => s.updChan ch fun x => { x with raw := some current }
    match d.convert current with
    | some v => inRangeReading ch v ev1
    | none => outOfRangeReading ch d ev1

/-- A hold expires: LOST, SENSOR_LOST raised (R4). -/
def holdExpired (ch : Nat) (ev : Ev) : Ev :=
  raise .sensorLost (some ch)
    (qualityChange ch (ev.map fun s => s.updChan ch fun x => { x with quality := .lost, hold := none }))

/-- A recalibration pass begins at a channel (R9). -/
def passBegins (ev : Ev) (ch : Nat) : Ev :=
  let r := ev.s.chan ch
  if r.mode = .live ∧ r.quality = .good then
    qualityChange ch (ev.map fun s => s.updChan ch fun x => { x with quality := .held, hold := none, passHeld := true })
  else ev

/-- A recalibration pass ends at a channel (R9). -/
def passEnds (ev : Ev) (ch : Nat) : Ev :=
  if (ev.s.chan ch).passHeld then
    qualityChange ch (ev.map fun s => s.updChan ch fun x => { x with quality := .good, passHeld := false })
  else ev

/-! ### Meter runs (R13 to R15) -/

/-- Energy into a run's accumulator, and to the train it is bound to (R13, R15). -/
def addEnergy (r e : Nat) (ev : Ev) : Ev :=
  let ev1 := ev.map fun s => s.updRun r fun x => { x with acc := x.acc + e }
  match (ev.s.runDef r).bind RunDef.train, ev.s.runDir r with
  | some t, .withdraw => handOff t e ev1
  | _, _ => ev1

/-- A run's rate becomes `v`; a change is a new value (R14). -/
def setRate (r v : Nat) (ev : Ev) : Ev :=
  if (ev.s.run r).rate = v then ev
  else newWatchValue (· == .meterRate r) v (ev.map fun s => s.updRun r fun x => { x with rate := v })

/-- The rate of energy `e` over an interval (R14). -/
def rateOf (e interval : Nat) : Nat := min (e * 360 / max 1 interval) Config.maxRate

/-- A pulse is timed (R14): `e` is its energy, 0 with CV unset. -/
def timePulse (r e : Nat) (d : RunDef) (ev : Ev) : Ev :=
  let ev1 := match (ev.s.run r).last with
    | some t => setRate r (rateOf e (ev.s.mu.ms - t)) ev
    | none => ev
  ev1.map fun s => s.updRun r fun x => { x with last := some s.mu.ms, zero := some (s.after d.timeout) }

/-- A pulse of a run that is not ignored (R13 to R15). -/
def pulse (r : Nat) (d : RunDef) (ev : Ev) : Ev :=
  let cv := (ev.s.run r).cv
  if cv = 0 then
    timePulse r 0 d (ev.map fun s => s.updRun r fun x =>
      { x with unvalued := min (x.unvalued + d.weight) Config.maxUnvalued })
  else timePulse r (d.weight * cv) d (addEnergy r (d.weight * cv) ev)

/-- A run whose pulses are counted: SITE is VALID and the run is FUEL or has a direction (R12). -/
def State.metered (s : State) (r : Nat) : Option RunDef :=
  (s.runDef r).filter fun _ => r == 6 || s.runDir r != .unused

/-! ### The clock (R18 to R20, R58) -/

/-- The millisecond counter at the next whole second (log entry 4). -/
def nextSecond (ms : Nat) : Nat := (ms / 1000 + 1) * 1000

/-- A period boundary is raised when a set clock reaches or crosses a multiple of 3,600 in going from one value to
another (R20). -/
def State.raiseBoundary (s : State) (before : Clk) : State :=
  let b := nextBoundary before
  if s.mu.set && (s.clock - before).toNat ≥ (b - before).toNat then
    { s with mu := { s.mu with boundaries := s.mu.boundaries ++ [{ clk := b, day := isDay s.startHour b }] } }
  else s

/-- The clock counts one second; run seconds and boundaries only while the part runs (R18, R20, R58). -/
def State.second (s : State) : State :=
  let s1 : State := { s with mu := { s.mu with clock := s.clock + 1#32, ms := nextSecond s.mu.ms } }
  if s.phase = .running then
    ({ s1 with cdm := { s1.cdm with units := s1.cdm.units.map CompUnit.second } } : State).raiseBoundary s.clock
  else s1

/-- Every deadline running anywhere in the part moves with the clock at the first setting (R19; log entry 26). -/
def State.moveDeadlines (s : State) (by_ : Clk) : State :=
  let mv : Option Clk → Option Clk := Option.map (· + by_)
  let tower (w : Tower) : Tower := { w with step := mv w.step }
  let duty (q : DutyRec) : DutyRec :=
    { q with
      startPending := q.startPending.map fun t => { t with deadline := t.deadline + by_ }
      stopPending := q.stopPending.map fun t => { t with deadline := t.deadline + by_ } }
  { s with
    mu := { s.mu with
      channels := s.mu.channels.map fun c => { c with hold := mv c.hold }
      runs := s.mu.runs.map fun r => { r with zero := mv r.zero } }
    cvc := { s.cvc with caverns := s.cvc.caverns.map fun c => { c with dwell := mv c.dwell, travel := mv c.travel } }
    cdm :=
      { units := s.cdm.units.map fun u =>
          { u with
            start := mv u.start, stop := mv u.stop, minRun := mv u.minRun, rest := mv u.rest
            history := u.history.map (· + by_) }
        inject := duty s.cdm.inject, boost := duty s.cdm.boost }
    dtc := { trains := s.dtc.trains.map fun t =>
      { t with
        offSpecDeadline := mv t.offSpecDeadline
        switch := t.switch.map fun w => { w with deadline := w.deadline + by_ }
        towerA := tower t.towerA, towerB := tower t.towerB } }
    fpl := { s.fpl with dispatch := mv s.fpl.dispatch }
    pst := { s.pst with profile := mv s.pst.profile, settle := mv s.pst.settle }
    slu := { s.slu with queue := s.slu.queue.map fun e =>
      match e.state with
      | .waitingFlags m d => { e with state := .waitingFlags m (d + by_) }
      | .inTurn | .waitingClose | .answered => e } }

/-- The Measurement Unit at a start (R9, R11, R17, R18): channels begin anew, runs keep what the domain holds. -/
def State.startMu (s : State) (cold : Bool) : State :=
  let run (r : Run) : Run := if cold then {} else { r with last := none, rate := 0, zero := none }
  { s with mu :=
      { s.mu with
        channels := List.replicate 16 {}, runs := s.mu.runs.map run, pass := .none, boundaries := []
        clock := if cold then 0#32 else s.mu.clock, set := !cold && s.mu.set } }

end Sys2Proof.Machine
end

