-- ==== Sys2Proof/Machine/Profiles.lean ====
section
/-! DEFINITION. The Profile Store inside an event (09): the fields of the three groups, the judging of a write, its
application, and the commit queue. -/

namespace Sys2Proof.Machine

/-! ### Fields (9.1) -/

/-- A field of a group: bytes, signedness, range, and the values allowed beside it (255 for none, 10 and 100). -/
structure FieldSpec where
  width : Nat
  signed : Bool := false
  lo : Int := 0
  hi : Int
  extra : List Int := []
deriving DecidableEq, Repr

/-- A value is in the range of its field. -/
def FieldSpec.allows (f : FieldSpec) (v : Int) : Bool := (f.lo ≤ v && v ≤ f.hi) || f.extra.contains v

/-- A channel index, or 255 for none. -/
def channelSpec : FieldSpec := { width := 1, hi := 15, extra := [255] }

/-- A yes/no field. -/
def presentSpec : FieldSpec := { width := 1, hi := 1 }

/-- A kPa figure. -/
def pressureSpec : FieldSpec := { width := 2, hi := 25000 }

/-- A rate in four bytes. -/
def rateSpec : FieldSpec := { width := 4, hi := 99999999 }

/-- The fields of a channel definition. -/
def chanSpecs : List FieldSpec :=
  [{ width := 1, hi := 3 }, { width := 4, signed := true, lo := -99999999, hi := 99999999 },
    { width := 4, signed := true, lo := -99999999, hi := 99999999 }, { width := 2, lo := 1, hi := 600 }]

/-- The fields of a run definition. -/
def runSpecs : List FieldSpec :=
  [{ width := 1, hi := 2 }, { width := 1, lo := 1, hi := 1, extra := [10, 100] },
    { width := 1, hi := 3, extra := [255] }, { width := 1, lo := 2, hi := 60 }]

/-- The fields of SITE, ordinals 1 to 121. -/
def siteSpecs : List FieldSpec :=
  [{ width := 1, hi := 2 }, { width := 2, lo := 100, hi := 1000 }, { width := 1, hi := 23 },
    { width := 1, lo := 1, hi := 4 }, { width := 2, lo := 60, hi := 900 }, { width := 2, lo := 10, hi := 300 },
    { width := 1, lo := 1, hi := 60 }, { width := 1, lo := 1, hi := 30 }, { width := 4, hi := 1000000 },
    { width := 4, hi := 100000000 }, rateSpec, rateSpec] ++
  List.replicate 16 { width := 2, hi := 1000 } ++
  [channelSpec, pressureSpec, { width := 1, hi := 1 }] ++
  (List.replicate 16 chanSpecs).flatten ++ (List.replicate 6 runSpecs).flatten ++
  [{ width := 1, lo := 1, hi := 1, extra := [10, 100] }, { width := 1, lo := 2, hi := 60 }]

/-- The fields of a cavern definition (2.1). -/
def cavernSpecs : List FieldSpec :=
  [presentSpec, channelSpec, pressureSpec, pressureSpec, { width := 2, lo := 50, hi := 2000 },
    { width := 2, hi := 5000 }, { width := 2, lo := 10, hi := 5000 }, { width := 4, lo := 1, hi := 100000 },
    rateSpec, rateSpec, pressureSpec, { width := 2, lo := 60, hi := 7200 }, { width := 2, lo := 5, hi := 300 }]

/-- The fields of a unit definition (3.1). -/
def unitSpecs : List FieldSpec :=
  [presentSpec, { width := 4, hi := 10000000 }, { width := 1, hi := 1 }, { width := 1, lo := 1, hi := 6 },
    { width := 2, lo := 60, hi := 7200 }, { width := 2, lo := 60, hi := 7200 }, { width := 2, lo := 10, hi := 600 },
    { width := 2, lo := 10, hi := 600 }, { width := 2, hi := 600 }, { width := 2, hi := 3600 }]

/-- The fields of a train definition (4.1). -/
def trainSpecs : List FieldSpec :=
  [presentSpec, { width := 4, hi := 20000000 }, { width := 4, lo := 1000, hi := 2000000 },
    { width := 2, lo := 500, hi := 990 }, { width := 2, lo := 600, hi := 43200 },
    { width := 2, lo := 300, hi := 14400 }, channelSpec,
    { width := 2, signed := true, lo := -10000, hi := 5000 }, { width := 2, lo := 50, hi := 500 },
    { width := 2, lo := 10, hi := 1800 }, channelSpec, { width := 1, lo := 5, hi := 120 }]

/-- The fields of a point of the water table (4.1). -/
def waterSpecs : List FieldSpec :=
  [{ width := 2, signed := true, lo := -5000, hi := 15000 }, { width := 2, hi := 5000 }]

/-- The fields of a group in the order of 9.1. -/
def Group.specs : Group → List FieldSpec
  | .site => siteSpecs
  | .caverns => (List.replicate 8 cavernSpecs).flatten
  | .plant =>
    (List.replicate 6 unitSpecs).flatten ++ (List.replicate 4 trainSpecs).flatten ++
      (List.replicate 8 waterSpecs).flatten

/-- The length of a group in bytes (9.1). -/
def Group.size : Group → Nat
  | .site => 265
  | .caverns => 240
  | .plant => 242

/-- The numbers that bytes carry, field by field. -/
def parseFields : List FieldSpec → List Byte → List Int
  | [], _ => []
  | f :: rest, l =>
    (if f.signed then intOfBytes (l.take f.width) else (natOfBytes (l.take f.width) : Int)) ::
      parseFields rest (l.drop f.width)

/-- The bytes of numbers, field by field. -/
def fieldBytes (specs : List FieldSpec) (v : List Int) : List Byte :=
  (List.zipWith (fun (f : FieldSpec) x => bytesOfInt f.width x) specs v).flatten

/-! ### Numbers to definitions and back; `k` is an ordinal, counted from 1 -/

/-- The number at an ordinal. -/
def num (v : List Int) (k : Nat) : Int := v.getD (k - 1) 0

/-- The number at an ordinal, as a natural. -/
def nat (v : List Int) (k : Nat) : Nat := (num v k).toNat

/-- An index at an ordinal; none for 255. -/
def idx (v : List Int) (k : Nat) : Option Nat := if num v k = 255 then none else some (nat v k)

/-- An index carried in a byte, 255 for none. -/
def idxByte (o : Option Nat) : Int := o.getD 255

/-- `n` points of a table from an ordinal on. -/
def points (v : List Int) (k n : Nat) : List (Int × Int) :=
  (List.range n).map fun i => (num v (k + 2 * i), num v (k + 2 * i + 1))

/-- The numbers of a table's points. -/
def pointFields (l : List (Int × Int)) : List Int := l.flatMap fun p => [p.1, p.2]

/-- The definition of a meter run whose numbers begin at an ordinal; an UNUSED run's weight and timeout are not kept
(R186; log entry 14). -/
def runOf (v : List Int) (k : Nat) : RunDef :=
  let used (n : Nat) : Nat := if runDirOfCode (num v k) = .unused then 0 else n
  { dir := some (runDirOfCode (num v k)), weight := used (nat v (k + 1)), train := idx v (k + 2)
    timeout := used (nat v (k + 3)) }

/-- The SITE group of its numbers; the header limit of no header channel is not kept (R186; log entry 14). -/
def siteOf (v : List Int) : Site :=
  { linkRate := nat v 1, scanPeriod := nat v 2, startHour := nat v 3, leadTime := nat v 4, catchUpFloor := nat v 5
    dispatchInterval := nat v 6, maxTrim := nat v 7, settleInterval := nat v 8, tolerance := nat v 9
    obaLimit := nat v 10, nomInj := nat v 11, nomWd := nat v 12, injRatchet := points v 13 4
    wdRatchet := points v 21 4, header := idx v 29, headerLimit := if num v 29 = 255 then 0 else nat v 30
    channels := (List.range 16).map fun i =>
      { role := roleOfCode (num v (32 + 4 * i)), zero := num v (33 + 4 * i), span := num v (34 + 4 * i)
        hold := nat v (35 + 4 * i) }
    runs := (List.range 6).map (fun i => runOf v (96 + 4 * i)) ++
      [{ dir := none, weight := nat v 120, train := none, timeout := nat v 121 }] }

/-- The numbers of a SITE group, with its recalibrate field. -/
def Site.fields (p : Site) (recalibrate : Bool) : List Int :=
  [(p.linkRate : Int), p.scanPeriod, p.startHour, p.leadTime, p.catchUpFloor, p.dispatchInterval, p.maxTrim,
    p.settleInterval, p.tolerance, p.obaLimit, p.nomInj, p.nomWd] ++
  pointFields p.injRatchet ++ pointFields p.wdRatchet ++
  [idxByte p.header, p.headerLimit, if recalibrate then 1 else 0] ++
  (p.channels.flatMap fun c => [(c.role.code : Int), c.zero, c.span, c.hold]) ++
  (p.runs.flatMap fun r => match r.dir with
    | some d => [(d.code : Int), r.weight, idxByte r.train, r.timeout]
    | none => [(r.weight : Int), r.timeout])

/-- The cavern definition whose numbers begin at an ordinal; an absent cavern's other fields are not kept (R186). -/
def cavernOf (v : List Int) (k : Nat) : CavernDef :=
  if num v k = 0 then {}
  else
    { present := true, channel := idx v (k + 1), pMin := nat v (k + 2), pMax := nat v (k + 3), margin := nat v (k + 4)
      taper := nat v (k + 5), ramp := nat v (k + 6), k := nat v (k + 7), qInj := nat v (k + 8), qWd := nat v (k + 9)
      boost := nat v (k + 10), dwell := nat v (k + 11), travel := nat v (k + 12) }

/-- The numbers of a cavern definition. -/
def CavernDef.fields (d : CavernDef) : List Int :=
  if d.present then
    [1, idxByte d.channel, d.pMin, d.pMax, d.margin, d.taper, d.ramp, d.k, d.qInj, d.qWd, d.boost, d.dwell, d.travel]
  else List.replicate 13 0

/-- The unit definition whose numbers begin at an ordinal. -/
def unitOf (v : List Int) (k : Nat) : UnitDef :=
  if num v k = 0 then {}
  else
    { present := true, rated := nat v (k + 1), duty := if num v (k + 2) = 0 then .inject else .boost
      budget := nat v (k + 3), minRun := nat v (k + 4), minRest := nat v (k + 5), startTimeout := nat v (k + 6)
      stopTimeout := nat v (k + 7), startDelay := nat v (k + 8), stopDelay := nat v (k + 9) }

/-- The numbers of a unit definition. -/
def UnitDef.fields (d : UnitDef) : List Int :=
  if d.present then
    [1, d.rated, dutyCode d.duty, d.budget, d.minRun, d.minRest, d.startTimeout, d.stopTimeout, d.startDelay,
      d.stopDelay]
  else List.replicate 10 0

/-- The train definition whose numbers begin at an ordinal. -/
def trainOf (v : List Int) (k : Nat) : TrainDef :=
  if num v k = 0 then {}
  else
    { present := true, capacity := nat v (k + 1), water := nat v (k + 2), fraction := nat v (k + 3)
      regen := nat v (k + 4), cool := nat v (k + 5), dewChannel := nat v (k + 6), dewLimit := num v (k + 7)
      hysteresis := nat v (k + 8), dwell := nat v (k + 9), inletChannel := nat v (k + 10), travel := nat v (k + 11) }

/-- The numbers of a train definition. -/
def TrainDef.fields (d : TrainDef) : List Int :=
  if d.present then
    [1, d.capacity, d.water, d.fraction, d.regen, d.cool, d.dewChannel, d.dewLimit, d.hysteresis, d.dwell,
      d.inletChannel, d.travel]
  else List.replicate 12 0

/-- Ordinal of the first number of a cavern. -/
def cavernOrd (c : Nat) : Nat := 1 + 13 * c

/-- Ordinal of the first number of a unit. -/
def unitOrd (u : Nat) : Nat := 1 + 10 * u

/-- Ordinal of the first number of a train. -/
def trainOrd (t : Nat) : Nat := 61 + 12 * t

/-- The CAVERNS group of its numbers. -/
def cavernsOf (v : List Int) : List CavernDef := (List.range 8).map fun c => cavernOf v (cavernOrd c)

/-- The PLANT group of its numbers. -/
def plantOf (v : List Int) : Plant :=
  { units := (List.range 6).map fun u => unitOf v (unitOrd u)
    trains := (List.range 4).map fun t => trainOf v (trainOrd t)
    water := points v 109 8 }

/-- The numbers of a PLANT group. -/
def Plant.fields (p : Plant) : List Int :=
  p.units.flatMap UnitDef.fields ++ p.trains.flatMap TrainDef.fields ++ pointFields p.water

/-! ### Ranges -/

/-- A number has no meaning in the group as written (R186): the header limit with header channel none, the pulse weight
and the zero-flow timeout of an UNUSED run, and the fields of an absent cavern, unit or train (which fields these are is
log entry 14). -/
def Group.idle (g : Group) (v : List Int) (k : Nat) : Bool :=
  match g with
  | .site => (k == 30 && num v 29 == 255) ||
    ((97 ≤ k && k ≤ 119 && (k % 4 == 1 || k % 4 == 3)) && num v (96 + 4 * ((k - 96) / 4)) == RunDir.unused.code)
  | .caverns => let o := cavernOrd ((k - 1) / 13); k != o && num v o == 0
  | .plant =>
    if k ≤ 60 then let o := unitOrd ((k - 1) / 10); k != o && num v o == 0
    else if k ≤ 108 then let o := trainOrd ((k - 61) / 12); k != o && num v o == 0
    else false

/-- The ordinals out of range. -/
def badRanges (g : Group) (v : List Int) : List Nat :=
  (g.specs.mapIdx fun i f => (i + 1, f)).filterMap fun (k, f) =>
    if g.idle v k || f.allows (num v k) then none else some k

/-! ### Rules between groups (R166) -/

/-- The role of a channel while SITE is VALID. -/
def State.role (s : State) (ch : Nat) : Option Role := (s.chanDef ch).map ChanDef.role

/-- The pressure channels that a VALID CAVERNS group names. -/
def cavernChannels (l : Option (List CavernDef)) : List Nat :=
  (l.getD []).filterMap fun d => if d.present then d.channel else none

/-- The dew-point channels that a VALID PLANT group names. -/
def dewChannels (p : Option Plant) : List Nat :=
  ((p.map Plant.trains).getD []).filterMap fun d => if d.present then some d.dewChannel else none

/-- The inlet temperature channels that a VALID PLANT group names. -/
def inletChannels (p : Option Plant) : List Nat :=
  ((p.map Plant.trains).getD []).filterMap fun d => if d.present then some d.inletChannel else none

/-- Whether a SITE group keeps every role that CAVERNS and PLANT need: the ordinals of the roles that do not. -/
def badRoles (site : Site) (cav : Option (List CavernDef)) (plant : Option Plant) : List Nat :=
  let role (ch : Nat) (r : Role) : Bool := (site.channels[ch]?).any fun d => d.role == r
  (List.range 16).filterMap fun ch =>
    let ok := (!(cavernChannels cav).contains ch || role ch .pressure) &&
      (!(dewChannels plant).contains ch || role ch .dewpoint) &&
      (!(inletChannels plant).contains ch || role ch .temperature)
    if ok then none else some (32 + 4 * ch)

/-- The numbers of a list that are not above the one before them: ordinals from `k` on, in steps of two. -/
def notAscending (k : Nat) : List (Int × Int) → List Nat
  | p :: q :: rest => (if q.1 ≤ p.1 then [k + 2] else []) ++ notAscending (k + 2) (q :: rest)
  | _ => []

/-- SITE's own rules and its rules against the other groups (R166): ordinals that fail. -/
def badSite (s : State) (v : List Int) : List Nat :=
  let p := siteOf v
  let cav := s.pst.caverns.live
  let plant := s.pst.plant.live
  let chans := (List.range 16).flatMap fun i =>
    let z := num v (33 + 4 * i)
    let sp := num v (34 + 4 * i)
    let out (x : Int) : Bool := num v (32 + 4 * i) == 0 && !(0 ≤ x && x ≤ 25000)
    (if out z then [33 + 4 * i] else []) ++ (if sp == z || out sp then [34 + 4 * i] else [])
  let bound := (List.range 6).filterMap fun i =>
    if num v (98 + 4 * i) ≠ 255 ∧ num v (96 + 4 * i) ≠ 1 then some (98 + 4 * i) else none
  let header := match p.header with
    | none => []
    | some h =>
      if (p.channels[h]?).any (fun d => d.role == .pressure) &&
          !(cavernChannels cav ++ dewChannels plant ++ inletChannels plant).contains h then [] else [29]
  notAscending 13 p.injRatchet ++ notAscending 21 p.wdRatchet ++ chans ++ bound ++ header ++
    (if s.acb.loaded && p.startHour != s.startHour then [3] else []) ++ badRoles p cav plant

/-- A present cavern's channel: with the role it needs, and named by no other group and no earlier cavern. -/
def cavernChannelOk (s : State) (l : List CavernDef) (c : Nat) : Bool :=
  match (l[c]?).bind fun d => if d.present then d.channel else none with
  | none => true
  | some ch =>
    (s.role ch).all (· == .pressure) && s.headerChannel != some ch &&
      !(dewChannels s.pst.plant.live ++ inletChannels s.pst.plant.live).contains ch &&
      !(cavernChannels (some (l.take c))).contains ch

/-- CAVERNS' rules (R166): ordinals that fail. -/
def badCaverns (s : State) (v : List Int) : List Nat :=
  let l := cavernsOf v
  (List.range 8).flatMap fun c =>
    let d := l.getD c {}
    (if cavernChannelOk s l c then [] else [cavernOrd c + 1]) ++
      (if d.present && d.pMax ≤ d.pMin then [cavernOrd c + 3] else [])

/-- A present train's channel: named, with its role, and named by no other field before it. -/
def trainChannelOk (s : State) (p : Plant) (t ch : Nat) (role : Role) (inlet : Bool) : Bool :=
  let earlier : Option Plant := some { p with trains := p.trains.take t }
  ch != 255 && (s.role ch).all (· == role) && s.headerChannel != some ch &&
    !(cavernChannels s.pst.caverns.live).contains ch &&
    !(dewChannels earlier ++ inletChannels earlier).contains ch &&
    !(inlet && (p.trains.getD t {}).dewChannel == ch)

/-- PLANT's rules (R166): ordinals that fail. -/
def badPlant (s : State) (v : List Int) : List Nat :=
  let p := plantOf v
  let units := (List.range 6).flatMap fun u =>
    let d := p.units.getD u {}
    if d.present && d.budget < (s.unit u).history.length then [unitOrd u + 3] else []
  let trains := (List.range 4).flatMap fun t =>
    let d := p.trains.getD t {}
    if d.present then
      (if trainChannelOk s p t d.dewChannel .dewpoint false then [] else [trainOrd t + 6]) ++
        (if trainChannelOk s p t d.inletChannel .temperature true then [] else [trainOrd t + 10])
    else []
  units ++ trains ++ notAscending 109 p.water

/-- The lowest ordinal of a list. -/
def lowest (l : List Nat) : Option Nat :=
  l.foldl (fun m k => some (match m with
    | some x => min x k
    | none => k)) none

/-- The lowest field of a write that is out of range or breaks a rule (R165, R166). -/
def badField (s : State) (g : Group) (v : List Int) : Option Nat :=
  lowest (badRanges g v ++ match g with
    | .site => badSite s v
    | .caverns => badCaverns s v
    | .plant => badPlant s v)

/-! ### Loop check and rest (R165, R167) -/

/-- A channel is in loop check. -/
def State.inCheck (s : State) (ch : Nat) : Bool := (s.chan ch).mode == .check

/-- The lowest field of a write that names a channel in loop check (R7, R165). -/
def checkedField (s : State) (g : Group) (v : List Int) : Option Nat :=
  match g with
  | .site =>
    lowest ((match (siteOf v).header with
      | some h => if s.inCheck h then [29] else []
      | none => []) ++ ((List.range 16).filter s.inCheck).map fun ch => 32 + 4 * ch)
  | .caverns =>
    lowest ((List.range 8).flatMap fun c =>
      let d := (cavernsOf v).getD c {}
      if d.present && d.channel.any s.inCheck then [cavernOrd c + 1] else [])
  | .plant =>
    lowest ((List.range 4).flatMap fun t =>
      let d := (plantOf v).trains.getD t {}
      if d.present then
        (if s.inCheck d.dewChannel then [trainOrd t + 6] else []) ++
          (if s.inCheck d.inletChannel then [trainOrd t + 10] else [])
      else [])

/-- What is not at rest for a write of a group (R167), named as 11.1 gives. -/
def notAtRest (s : State) (g : Group) : Option Detail :=
  match g with
  | .site => if s.fpl.active then some ⟨.condition, 4⟩ else if s.inFlight then some ⟨.condition, 5⟩ else none
  | .caverns =>
    ((List.range 8).find? fun c =>
      (s.cav c).state != .shut && (s.cav c).state != .outOfService).map fun c => ⟨.cavern, c⟩
  | .plant =>
    match (List.range 6).find? fun u => (s.unit u).state.counts || (s.unit u).state == .stopping with
    | some u => some ⟨.unit, u⟩
    | none => ((List.range 4).find? fun t => s.trainState t != .offline).map fun t => ⟨.train, t⟩

/-! ### Groups of the store -/

/-- Validity of a group. -/
def State.groupValid (s : State) : Group → Bool
  | .site => s.pst.site.live.isSome
  | .caverns => s.pst.caverns.live.isSome
  | .plant => s.pst.plant.live.isSome

/-- Commit state of a group. -/
def State.groupCommit (s : State) : Group → Option CommitState
  | .site => s.pst.site.commit
  | .caverns => s.pst.caverns.commit
  | .plant => s.pst.plant.commit

/-- Set the commit state of a group. -/
def State.setCommit (s : State) (g : Group) (c : Option CommitState) : State :=
  match g with
  | .site => { s with pst := { s.pst with site := { s.pst.site with commit := c } } }
  | .caverns => { s with pst := { s.pst with caverns := { s.pst.caverns with commit := c } } }
  | .plant => { s with pst := { s.pst with plant := { s.pst.plant with commit := c } } }

/-- The stored image of a record becomes its live contents. -/
def GroupRec.store {α : Type} (r : GroupRec α) : GroupRec α :=
  { r with image := match r.live with
      | some x => some ⟨x, true⟩
      | none => r.image }

/-- A commit was verified: the live contents are the stored image (R170). -/
def State.storeImage (s : State) (g : Group) : State :=
  match g with
  | .site => { s with pst := { s.pst with site := s.pst.site.store } }
  | .caverns => { s with pst := { s.pst with caverns := s.pst.caverns.store } }
  | .plant => { s with pst := { s.pst with plant := s.pst.plant.store } }

/-- The next group of the commit queue begins to be written when none is (R170). -/
def State.beginCommit (s : State) : State :=
  match s.pst.writing, s.pst.queue with
  | none, g :: rest => { s with pst := { s.pst with writing := some g, queue := rest } }
  | _, _ => s

/-- A group enters the commit queue (R170). -/
def State.enterCommit (s : State) (g : Group) : State :=
  (({ s with pst := { s.pst with queue := s.pst.queue ++ [g] } } : State).setCommit g (some .committing)).beginCommit

/-- A commit completes (R170). -/
def commitDone (g : Group) (verified : Bool) (ev : Ev) : Ev :=
  let finish (s : State) : State := ({ s with pst := { s.pst with writing := none } } : State).beginCommit
  if verified then
    raise .profileCommitted (some g.code)
      (ev.map fun s => finish ((s.storeImage g).setCommit g (some .committed)))
  else ev.map fun s => finish (s.setCommit g (some .failed))

/-! ### Application (R168, R169) -/

/-- A run's record when a SITE write changes its direction or weight (R12). -/
def State.fitRuns (s : State) (old : Option Site) : State :=
  let changed (r : Nat) : Bool :=
    ((old.bind (·.runs[r]?)).map fun d => (d.dir, d.weight)) != ((s.runDef r).map fun d => (d.dir, d.weight))
  { s with mu :=
      { s.mu with runs := s.mu.runs.mapIdx fun r x =>
          if changed r then { x with last := none, zero := none, rate := 0 } else x } }

/-- The header record and status when a SITE write changes the header channel (R154; log entry 22). -/
def State.fitHeader (s : State) (old : Option Site) : State :=
  if old.bind Site.header = s.headerChannel then s
  else match s.headerChannel with
    | some ch =>
      { s with fpl := { s.fpl with header := (s.chan ch).value, headerQuality := (s.chan ch).quality } }
    | none =>
      { s with
        fpl := { s.fpl with header := 0, headerQuality := .lost }, tru := { s.tru with headerAbove := false } }

/-- A SITE write reaches the blocks: R9, R12, R107, the header, and the book by R101. -/
def applySite (p : Site) (recalibrate : Bool) (ev : Ev) : Ev :=
  let old := ev.s.site
  let s1 : State := { ev.s with
    pst := { ev.s.pst with site := { ev.s.pst.site with live := some p } }
    mu := { ev.s.mu with pass := if recalibrate && ev.s.mu.pass == .none then .pending else ev.s.mu.pass }
    fpl := { ev.s.fpl with dispatch := match ev.s.fpl.dispatch with
      | some d => some d
      | none => some (ev.s.after p.dispatchInterval) } }
  siteToBook old false { ev with s := (s1.fitRuns old).fitHeader old }

/-- A CAVERNS write reaches the blocks: R21, R146; the planner is handed the change (R108). -/
def applyCaverns (l : List CavernDef) (ev : Ev) : Ev :=
  (ev.map fun s =>
    (({ s with pst := { s.pst with caverns := { s.pst.caverns with live := some l } } } : State).fitCaverns
      false).disarm).hand true

/-- The loading of train `t` gives its watches a new value where it is not what it was in `before`: a PLANT write
changes the tower water capacity it is a share of (R79; log entry 23). -/
def refigureLoading (before : State) (ev : Ev) (t : Nat) : Ev :=
  let figure (s : State) : Nat := (s.train t).permille (s.trainDef t)
  if figure before = figure ev.s then ev else newWatchValue (· == .trainLoading t) (figure ev.s) ev

/-- A PLANT write reaches the blocks: R61, R146, the loading figures by R79, and R40. -/
def applyPlant (p : Plant) (ev : Ev) : Ev :=
  let ev1 := ev.map fun s =>
    (({ s with pst := { s.pst with plant := { s.pst.plant with live := some p } } } : State).fitTrains).disarm
  fitUnits true ((List.range 4).foldl (refigureLoading ev.s) ev1)

/-- The deadlines of an accepted write (R169). -/
def State.settleAfterWrite (s : State) : State :=
  let new := s.after s.settleInterval
  { s with pst :=
      { s.pst with
        profile := some (s.after 1)
        settle := match s.pst.settle with
          | some d => if passed d new then some d else some new
          | none => some new } }

/-- An accepted write is applied (R168). -/
def applyWrite (g : Group) (v : List Int) (ev : Ev) : Ev :=
  let ev1 := match g with
    | .site => applySite (siteOf v) (num v 31 == 1) ev
    | .caverns => applyCaverns (cavernsOf v) ev
    | .plant => applyPlant (plantOf v) ev
  ev1.map fun s => s.settleAfterWrite.enterCommit g

/-- The live contents of a group as bytes, the recalibrate field as R9 gives (R171). -/
def State.groupBytes (s : State) (g : Group) : Option (List Byte) :=
  match g with
  | .site => s.pst.site.live.map fun p => fieldBytes g.specs (p.fields (s.mu.pass != .none))
  | .caverns => s.pst.caverns.live.map fun l => fieldBytes g.specs (l.flatMap CavernDef.fields)
  | .plant => s.pst.plant.live.map fun p => fieldBytes g.specs p.fields

/-- A whole write is judged by the checks of R165 in order; none when none applies. -/
def judgeWrite (s : State) (g : Group) (bytes : List Byte) : Option Answer :=
  let v := parseFields g.specs bytes
  if bytes.length ≠ g.size then some (.refuse .badLength)
  else if s.groupCommit g = some .committing then some (.refuse .busy)
  else if s.pst.profile.any fun d => !passed s.clock d then some (.refuse .settling)
  else match badField s g v with
    | some k => some (.badField k)
    | none => match checkedField s g v with
      | some k => some (.no .wrongState ⟨.field, min k 255⟩)
      | none => (notAtRest s g).map fun d => .no .notAtRest d

end Sys2Proof.Machine
end

