-- ==== Sys2Proof/Machine/Startup.lean ====
section
/-! DEFINITION. Starts (9.5): the loading and judging of the groups, the retention check, the restoring of every block,
and the completion of a start. -/

namespace Sys2Proof.Machine

/-! ### Groups (R173) -/

/-- A group is loaded from the store: VALID and COMMITTED with an image that passes its check, INVALID otherwise. -/
def GroupRec.load {α : Type} (r : GroupRec α) : GroupRec α :=
  match r.image with
  | some i =>
    if i.checked then { r with live := some i.contents, commit := some .committed }
    else { r with live := none, commit := none }
  | none => { r with live := none, commit := none }

/-- A group at a start: loaded at a power-up, kept at a CONTROLLER RESET when it is VALID live. -/
def GroupRec.start {α : Type} (power : Bool) (r : GroupRec α) : GroupRec α :=
  if power || r.live.isNone then r.load else r

/-- A group becomes INVALID; its image stays in the store. -/
def GroupRec.invalid {α : Type} (r : GroupRec α) : GroupRec α := { r with live := none, commit := none }

/-- CAVERNS breaks a rule against SITE (R166, R173). -/
def State.cavernsBreak (s : State) : Bool :=
  match s.pst.caverns.live with
  | none => false
  | some l => (List.range 8).any fun c => !cavernChannelOk s l c

/-- PLANT breaks a rule against SITE or CAVERNS (R166, R173). -/
def State.plantBreaks (s : State) : Bool :=
  match s.pst.plant.live with
  | none => false
  | some p => (List.range 4).any fun t =>
    let d := p.trains.getD t {}
    d.present &&
      !(trainChannelOk s p t d.dewChannel .dewpoint false && trainChannelOk s p t d.inletChannel .temperature true)

/-- CAVERNS is judged, against SITE alone: PLANT is judged after it (R173). -/
def State.judgeCaverns (s : State) : State :=
  let alone : State := { s with pst := { s.pst with plant := s.pst.plant.invalid } }
  if alone.cavernsBreak then { s with pst := { s.pst with caverns := s.pst.caverns.invalid } } else s

/-- PLANT is judged against the groups that are still VALID (R173). -/
def State.judgePlant (s : State) : State :=
  if s.plantBreaks then { s with pst := { s.pst with plant := s.pst.plant.invalid } } else s

/-- The groups at a start (R173). -/
def State.startGroups (power : Bool) (s : State) : State :=
  (({ s with pst :=
      { s.pst with
        site := s.pst.site.start power, caverns := s.pst.caverns.start power
        plant := s.pst.plant.start power } } : State).judgeCaverns).judgePlant

/-! ### Retention check (R174) -/

/-- The retention domain is valid: mark intact, check value matching. -/
def State.domainValid (s : State) : Bool := s.pst.mark && s.pst.checkMatches

/-- The start kind. -/
def State.kindOfStart (power : Bool) (s : State) : StartKind :=
  if s.domainValid then (if power then .retained else .controller) else .cold

/-- The Profile Store at a start (R164, R169, R170, R174). -/
def State.startPst (power : Bool) (s : State) : State :=
  { s with
    phase := .starting power
    pst :=
      { s.pst with
        staging := none, profile := none, settle := none, queue := [], writing := none
        startKind := s.kindOfStart power, mark := true, checkMatches := true } }

/-! ### Blocks (R175) -/

/-- The Watch and Notice Unit at a start (R161). -/
def State.startWnu (s : State) (cold : Bool) : State :=
  { s with wnu :=
      { watches := if cold then List.replicate 24 {} else s.wnu.watches.map fun w => { w with latch := none } } }

/-- The Trip Unit at a start (R162); the ESD level is the input's. -/
def State.startTru (s : State) (cold : Bool) : State :=
  { s with tru := if cold then { esd := s.tru.esd } else { s.tru with headerAbove := false } }

/-- The link rate in force: SITE's, or 57,600 baud (R173, R176). -/
def State.linkRate (s : State) : Nat := (s.site.map Site.linkRate).getD Config.linkRateInvalid

/-- The Station Link Unit at a start (R184). -/
def State.startSlu (s : State) : State := { s with slu := { rate := s.linkRate } }

/-- Every block restored for the start kind (R175). -/
def State.restoreBlocks (cold : Bool) (s : State) : State :=
  ((((((((((s.startMu cold).startCvc cold).startCdm cold).startDtc cold).startAcb cold).startFpl).startSu
    cold).startWnu cold).startTru cold).startSlu).disarm

/-- A start begins (R172 to R175): groups, retention check, blocks, what the SITE group brings to the book, and then the
missed boundaries (the order of these two is the model's choice, log entry 41). -/
def beginStart (power : Bool) (s : State) : State :=
  let s1 := s.startGroups power
  let cold := !s1.domainValid
  let s2 := (s1.startPst power).restoreBlocks cold
  (missedBoundaries (siteToBook s.site true s2.ev)).finish

/-! ### Completion (R175) -/

/-- A group kept COMMITTING re-enters the commit queue (R173). -/
def reenterCommit (s : State) (g : Group) : State :=
  if s.groupCommit g = some .committing then s.enterCommit g else s

/-- The ESD input as it is read when the start completes (R162). -/
def readEsd (ev : Ev) : Ev :=
  if ev.s.tru.esd && !ev.s.tru.tripped then ev.launch { code := 0x010 } else ev

/-- The notification channels begin IDLE, empty and not held: nothing raised during the start is left in them (R161,
R184). -/
def State.clearNotices (s : State) : State := { s with wnu := { s.wnu with channels := List.replicate 3 {} } }

/-- A start completes (R175): what the start raised is dropped, deadlines begin, supervision begins, the planner's START
step, running feedback, the ESD input, the first close due, the commit queue. -/
def completeStart (s : State) : State :=
  let ev1 := missedBoundaries ({ s with phase := .running } : State).ev
  let ev2 := ev1.map fun s => ((((s.startFpl).superviseAll).completeStartDtc).startSlu).clearNotices
  let ev3 := heldStep .start ev2
  let ev4 := (List.range 6).foldl completeStartUnit ev3
  let ev5 := beginDue (readEsd ev4)
  [Group.site, Group.caverns, Group.plant].foldl reenterCommit ev5.finish

end Sys2Proof.Machine
end

