-- ==== Sys2Proof/Machine/Link.lean ====
section
/-! DEFINITION. The Station Link Unit (10): the receiver, the judging of a frame, the request queue and the taking of a
request, the arbiter and the end of a telegram; and the frame of every plant event. -/

namespace Sys2Proof.Machine

/-! ### Catalogue (10.8, R124) -/

/-- The owning block of a request; none for an event. -/
def blockOf (c : Instr) : Option Block :=
  match c.kind with
  | none => none
  | some k =>
    if k < 0x10 then some .mu
    else if k < 0x18 then some .cvc
    else if k < 0x20 then some .cdm
    else if k < 0x28 then some .dtc
    else if k < 0x38 then some .acb
    else if k < 0x3C then some .fpl
    else if k < 0x40 then some .su
    else if k < 0x4C then some .wnu
    else if k < 0x50 then some .tru
    else if k < 0x58 then some .pst
    else some .slu

/-- A period number is being closed or due (R124). -/
def State.closing (s : State) (n : Nat) : Bool :=
  s.su.current.any (fun c => c.due.number == n) || s.su.due.any fun d => d.number == n

/-- A request that waits while a close is in flight (R124), as it stands when the request's turn comes. -/
def State.waitsForClose (s : State) (c : Instr) : Bool :=
  s.inFlight && match blockOf c, c with
    | some .acb, _ => true
    | _, .obaAdjust .. => true
    | _, .readOba .. => true
    | _, .readPeriod _ n _ => s.closing n
    | _, _ => false

/-! ### The refusal record (R178, R180) -/

/-- A refusal formed by the SLU; dropped when the record is occupied. -/
def State.refuseFrame (s : State) (kind tag : Nat) (st : Status) (d : Detail) : State :=
  if s.slu.refusal.isSome then s
  else
    let r : Reply := { origin := .refusal, kind := kind, tag := tag, status := st, detail := d, body := [] }
    { s with slu := { s.slu with refusal := some r, order := s.slu.order ++ [r] } }

/-- A request of an allowed length arrives: QUEUE_FULL, or a place IN_TURN (R178, R179). -/
def State.enqueue (s : State) (c : Instr) (kind : Nat) : State :=
  if Config.queuePlaces ≤ s.slu.queue.length then s.refuseFrame (kind + 0x80) c.tag .queueFull {}
  else
    let e : QEntry :=
      { request := c, block := (blockOf c).getD .slu, arrival := s.slu.arrivals, state := .inTurn }
    { s with slu := { s.slu with queue := s.slu.queue ++ [e], arrivals := s.slu.arrivals + 1 } }

/-- A received frame is judged in the order of the table of R178. -/
def State.judgeFrame (s : State) (kind tag : Nat) (body : List Byte) : State :=
  match kindLengths kind with
  | none => s.refuseFrame 0xFF tag .unknownKind ⟨.kind, kind⟩
  | some _ =>
    if lengthAllowed kind body.length then
      match decodeRequest kind tag body with
      | some c => s.enqueue c kind
      | none => s
    else s.refuseFrame (kind + 0x80) tag .badLength {}

/-! ### The taking of a request (R179, R180) -/

/-- An entry that has not been taken, or waits for a close: it holds back later requests to its block. -/
def QEntry.untaken (e : QEntry) : Bool :=
  match e.state with
  | .inTurn | .waitingClose => true
  | .waitingFlags _ _ | .answered => false

/-- It is this entry's turn: no earlier entry of its block is IN_TURN or WAITING for a close (R179). -/
def State.inTurn (s : State) (e : QEntry) : Bool :=
  !s.slu.queue.any fun x => x.block == e.block && x.untaken && x.arrival < e.arrival

/-- What the link notes of a taking: a link rate to be taken up, and a reset to be made, when the reply's last byte has
left (R176, R183). -/
def State.noteTaking (before after : State) (arrival : Nat) : State :=
  { after with slu :=
      { after.slu with
        newRates := if before.linkRate = after.linkRate then after.slu.newRates
          else after.slu.newRates ++ [(arrival, after.linkRate)]
        resetReply := if after.slu.resetPending then some arrival else after.slu.resetReply } }

/-- An entry is taken by its block and answered, or waits for its flags (R179). Its reply follows those of the
AWAIT_FLAGS that its own event answers (the model's choice, log entry 45). -/
def takeEntry (take : State → Ev × Answer) (e : QEntry) (s : State) : State :=
  let (ev, a) := take s
  let s1 := s.noteTaking ev.finish e.arrival
  match a with
  | .ok body => s1.formReply e .ok {} body
  | .no st d => s1.formReply e st d []
  | .wait mask deadline => s1.setEntry e.arrival (.waitingFlags mask deadline)

/-- An entry whose turn has come is held back by a close: one that has begun to wait waits until no close is in flight,
also when another close than the one it waited for is run on (R124, R125, R137, R179). -/
def State.heldByClose (s : State) (e : QEntry) : Bool :=
  if e.state = .waitingClose then s.inFlight else s.waitsForClose e.request

/-- An entry's turn is tried: it is taken, waits for the close, or stays where it is. -/
def tryEntry (take : State → Ev × Answer) (e : QEntry) (s : State) : State :=
  if !s.inTurn e then s
  else if s.heldByClose e then s.setEntry e.arrival .waitingClose
  else takeEntry take e s

/-- The oldest entry of the queue that carries this request, is IN_TURN, and whose turn has come. -/
def State.findEntry (s : State) (c : Instr) : Option QEntry :=
  s.slu.queue.find? fun e => e.request == c && (e.state == .inTurn && s.inTurn e)

/-- The requests of the queue that the close in flight holds back, oldest first: those of R124, whether they are WAITING
or still IN_TURN, and what is IN_TURN behind them to their block (R179). -/
def State.heldEntries (s : State) : List QEntry :=
  let held (e : QEntry) : Bool := e.untaken && s.heldByClose e
  s.slu.queue.filter fun e =>
    e.untaken && s.slu.queue.any fun x => held x && x.block == e.block && x.arrival ≤ e.arrival

/-- A request command: the taking of this request by its block, of the frame in the queue that carries it and whose turn
has come or, where there is none, of one that arrives now (log entry 3). Outside running, and with reset pending, nothing is taken (R172,
R183). -/
def serve (c : Instr) (take : State → Ev × Answer) (s : State) : State :=
  if s.phase != .running || s.slu.resetPending then s
  else
    let kind := c.kind.getD 0
    let s1 := if (s.findEntry c).isSome then s
      else if lengthAllowed kind c.body.length then s.enqueue c kind
      else s.refuseFrame (kind + 0x80) c.tag .badLength {}
    match s1.findEntry c with
    | some e => tryEntry take e s1
    | none => s1

/-! ### Events -/

/-- An event at a running part: it takes place when `enabled` holds, with the launches and the re-step it brings;
otherwise nothing changes (log entries 2 and 6). -/
def occurs (enabled : State → Bool) (f : Ev → Ev) (s : State) : State :=
  if s.phase == .running && enabled s then (f s.ev).finish else s

/-- An event at the link of a running part. -/
def onLink (f : State → State) (s : State) : State := if s.phase == .running then f s else s

/-! ### The receiver (R177) -/

/-- The receiver returns to HUNTING. -/
def State.hunt (s : State) : State := { s with slu := { s.slu with receiver := .hunting } }

/-- A complete frame is checked and, when its CRC matches, judged; with reset pending it is discarded
(R177, R178, R183). -/
def State.receiveFrame (s : State) : State :=
  match s.slu.receiver with
  | .hunting => s
  | .inFrame bytes _ =>
    if frameWhole bytes then
      match frameParts bytes with
      | some (kind, tag, body) => if s.slu.resetPending then s.hunt else s.hunt.judgeFrame kind tag body
      | none => s.hunt
    else s

/-- A byte in HUNTING. -/
def State.huntByte (s : State) (b : Byte) : State :=
  if b = startByte then { s with slu := { s.slu with receiver := .inFrame [] s.mu.ms } } else s.hunt

/-- A byte received (R177). A complete frame is judged before the byte; a gap of more than 10 ms discards the frame
before it (log entry 31). -/
def State.receiveByte (s : State) (b : Byte) : State :=
  match s.slu.receiver with
  | .hunting => s.huntByte b
  | .inFrame bytes last =>
    if frameWhole bytes then s.receiveFrame.huntByte b
    else if last + 10 < s.mu.ms then s.huntByte b
    else if bytes.isEmpty ∧ 240 < b.toNat then s.hunt
    else { s with slu := { s.slu with receiver := .inFrame (bytes ++ [b]) s.mu.ms } }

/-- More than 10 ms have passed within a frame (R177). -/
def State.gapTimeout (s : State) : State :=
  match s.slu.receiver with
  | .inFrame bytes last => if !frameWhole bytes && last + 10 < s.mu.ms then s.hunt else s
  | .hunting => s

/-! ### The arbiter (R181, R183) -/

/-- A channel is offered: PENDING, not held, and no reset pending (R150, R183). -/
def State.offered (s : State) (n : Nat) : Bool :=
  !s.slu.resetPending && (s.notice n).state == .pending && !(s.notice n).held

/-- The line is granted to the oldest reply (R181). -/
def State.grantReply (s : State) : State :=
  match s.slu.sending, s.slu.order with
  | none, r :: rest =>
    if s.offered 0 then s else { s with slu := { s.slu with sending := some (.reply r), order := rest } }
  | _, _ => s

/-- The channel whose notice the arbiter takes: N1 first, N2 and N3 when no reply waits (R181). -/
def State.noticeChosen (s : State) : Option Nat :=
  if s.slu.sending.isSome then none
  else if s.offered 0 then some 0
  else if !s.slu.order.isEmpty then none
  else if s.offered 1 then some 1
  else if s.offered 2 then some 2
  else none

/-- A notice is sent: its channel becomes OUTSTANDING (R150). -/
def State.sendNotice (s : State) : State :=
  match s.noticeChosen with
  | none => s
  | some n =>
    ({ s with slu := { s.slu with sending := some (.notice n (s.notice n).list) } } : State).updNotice n fun c =>
      { c with state := .outstanding }

/-- The bytes of a notice list: the list head, and the entries (11.3). -/
def NoticeList.fields (l : NoticeList) : List Fld :=
  b1 (l.entries.length + if l.overflow then 128 else 0) ::
    l.entries.flatMap fun e =>
      [b1 (match e.source with
        | .watch w => w
        | .trip _ => 0x40
        | .test => 0x7F), b2 e.code, clk4 e.first, b1 e.count]

/-- The bytes of a telegram on the line (11.1, 11.3). -/
def Telegram.bytes : Telegram → List Byte
  | .reply r =>
    frameBytes r.kind r.tag (fldBytes ([b1 r.status.code, b1 r.detail.subject.code, b1 r.detail.value] ++ r.body))
  | .notice n l => frameBytes 0xF0 0 (fldBytes (b1 n :: l.fields))

/-- What the end of a reply frees (R179, R181). -/
def State.freePlace (s : State) : Origin → State
  | .refusal => { s with slu := { s.slu with refusal := none } }
  | .entry a => { s with slu := { s.slu with queue := s.slu.queue.filter (·.arrival != a) } }

/-- A link rate that waited for this reply applies, and a frame being gathered is discarded (R176), also one whose bytes
are all there and which has not been judged (the model's choice, log entry 31). -/
def State.takeRate (s : State) (a : Nat) : State :=
  match s.slu.newRates.find? (·.1 == a) with
  | some (_, rate) =>
    ({ s with slu := { s.slu with rate := rate, newRates := s.slu.newRates.filter (·.1 != a) } } : State).hunt
  | none => s

/-- The last byte of a telegram has left (R176, R181, R183). -/
def State.endTelegram (s : State) : State :=
  match s.slu.sending with
  | none => s
  | some t =>
    let idle : State := { s with slu := { s.slu with sending := none } }
    match t with
    | .notice _ _ => idle
    | .reply r =>
      let freed := idle.freePlace r.origin
      match r.origin with
      | .refusal => freed
      | .entry a => if s.slu.resetReply = some a then beginStart false freed else freed.takeRate a

/-- A waiting AWAIT_FLAGS times out (R148). -/
def State.awaitTimeout (s : State) (arrival : Nat) : State :=
  match s.slu.queue.find? (·.arrival == arrival) with
  | some e =>
    match e.state with
    | .waitingFlags _ d => if passed s.clock d then s.formReply e .ok {} (s.awaitBody true) else s
    | .inTurn | .waitingClose | .answered => s
  | none => s

end Sys2Proof.Machine
end

