-- ==== Sys2Proof/Machine/MeasureCommands.lean ====
section
/-! DEFINITION. The commands of measurement and station time (01): the MU's requests, readings, pulses, the clock, the
crystal, and the period boundary. -/

namespace Sys2Proof.Machine

/-! ### Requests -/

/-- The check result of a channel in CHECK, when there is one (R10; log entry 9). -/
def checkFields : Option CheckResult → List Fld
  | none => []
  | some (.value v) => [b1 0, i4 v]
  | some .outOfRange => [b1 1, i4 0]

/-- The reply of READ_CHANNEL (R10). -/
def State.channelFields (s : State) (c : Nat) : List Fld :=
  let r := s.chan c
  [optU 1 ((s.role c).map Role.code), b1 r.mode.code, optU 2 r.raw, i4 r.value, b1 r.quality.code, b1 r.good] ++
    optClk r.hold ++ if r.mode = .check then optU 2 r.test :: checkFields r.check else []

/-- READ_CHANNEL (R10). -/
def takeReadChannel (channel : Nat) (s : State) : Ev × Answer :=
  judged s [(1, channel < 16)] (answerOnly s (s.channelFields channel))

/-- READ_CHANNEL (R10). -/
def execReadChannel (tag channel : Nat) (s : State) : Host.Outcome State Fault Refusal :=
  .next (serve (.readChannel tag channel) (takeReadChannel channel) s)

/-- What uses a channel and is not at rest for a loop check (R6), as the refusal's detail names it: the lowest such
cavern, else the lowest such train (the model's choice, log entry 35). -/
def State.channelInUse (s : State) (ch : Nat) : Option Detail :=
  match (cavernsOn ch s).find? fun c => (s.cav c).state != .shut && (s.cav c).state != .outOfService with
  | some c => some ⟨.cavern, c⟩
  | none =>
    ((List.range 4).find? fun t =>
      (s.trainDef t).any (fun d => d.dewChannel == ch || d.inletChannel == ch) && s.trainState t != .offline).map
        fun t => ⟨.train, t⟩

/-- A loop check begins (R6, R9). -/
def checkBegins (ch current hold : Nat) (ev : Ev) : Ev :=
  let r := ev.s.chan ch
  let ev1 := ev.map fun s => s.updChan ch fun x =>
    { x with
      mode := .check, test := some current, check := none, good := 0
      quality := if r.quality = .good then .held else r.quality
      hold := if r.quality = .good ∨ r.passHeld then some (s.after hold) else r.hold
      passHeld := false }
  if r.quality = .good then qualityChange ch ev1 else ev1

/-- LOOP_CHECK_BEGIN (R6, R7). -/
def takeLoopCheckBegin (channel current : Nat) (s : State) : Ev × Answer :=
  judged s [(1, channel < 16), (2, current ≤ 25000)] <|
    match s.chanDef channel with
    | none => (s.ev, .refuse .wrongState)
    | some d =>
      refuseIf s (s.inCheck channel) (.refuse .wrongState) <|
        match s.channelInUse channel with
        | some x => (s.ev, .no .notAtRest x)
        | none =>
          let ev := checkBegins channel current d.hold s.ev
          (ev, .ok [b1 channel, b2 current, b1 (ev.s.chan channel).quality.code])

/-- LOOP_CHECK_BEGIN (R6). -/
def execLoopCheckBegin (tag channel current : Nat) (s : State) : Host.Outcome State Fault Refusal :=
  .next (serve (.loopCheckBegin tag channel current) (takeLoopCheckBegin channel current) s)

/-- LOOP_CHECK_END (R8). -/
def takeLoopCheckEnd (channel : Nat) (s : State) : Ev × Answer :=
  judged s [(1, channel < 16)] <|
    refuseIf s (!s.inCheck channel) (.refuse .wrongState)
      (s.ev.map fun t => t.updChan channel fun x => { x with mode := .live, test := none, check := none },
        .ok [b1 channel, b1 (s.chan channel).quality.code])

/-- LOOP_CHECK_END (R8). -/
def execLoopCheckEnd (tag channel : Nat) (s : State) : Host.Outcome State Fault Refusal :=
  .next (serve (.loopCheckEnd tag channel) (takeLoopCheckEnd channel) s)

/-- The definition of a run in the reply of READ_METER: direction, weight and bound train, each 0 while SITE is INVALID
and there is none (R186); FUEL's direction and bound train, which it never has, are absent (R185; log entry 9). -/
def runFields : Option RunDef → List Fld
  | some d => [optU 1 (d.dir.map RunDir.code), b1 d.weight, optU 1 d.train]
  | none => [b1 0, b1 0, b1 0]

/-- The reply of READ_METER (R16). That the unvalued volume takes eight bytes is the model's choice (log entry 9). -/
def State.meterFields (s : State) (r : Nat) : List Fld :=
  let x := s.run r
  runFields (s.runDef r) ++ [b2 x.cv,
    b8 x.acc, b8 x.unvalued, b4 x.rate, optU 4 (x.last.map fun t => min (s.mu.ms - t) 4294967294)]

/-- READ_METER (R16). -/
def takeReadMeter (run : Nat) (s : State) : Ev × Answer :=
  judged s [(1, run < 7)] (answerOnly s (s.meterFields run))

/-- READ_METER (R16). -/
def execReadMeter (tag run : Nat) (s : State) : Host.Outcome State Fault Refusal :=
  .next (serve (.readMeter tag run) (takeReadMeter run) s)

/-- A CV that may be set: 0, or in its range (R15). -/
def cvAllowed (cv : Nat) : Bool := cv == 0 || (8000 ≤ cv && cv ≤ 13500)

/-- The energy that a new CV values: none where the CV was set before or becomes unset (R15). -/
def Run.valued (r : Run) (cv : Nat) : Nat := if r.cv = 0 then r.unvalued * cv else 0

/-- SET_GAS_QUALITY (R15). That the energy valued takes eight bytes in the reply is the model's choice (log entry 9). -/
def takeSetGasQuality (run cv : Nat) (s : State) : Ev × Answer :=
  judged s [(1, run < 7), (2, cvAllowed cv)] <|
    let r := s.run run
    let v := r.valued cv
    let ev1 := s.ev.map fun t => t.updRun run fun x =>
      { x with cv := cv, unvalued := if r.cv = 0 ∧ cv ≠ 0 then 0 else x.unvalued }
    let ev2 := if r.cv = 0 ∧ cv ≠ 0 then addEnergy run v ev1 else ev1
    (ev2, .ok [b1 run, b2 cv, b8 v])

/-- SET_GAS_QUALITY (R15). -/
def execSetGasQuality (tag run cv : Nat) (s : State) : Host.Outcome State Fault Refusal :=
  .next (serve (.setGasQuality tag run cv) (takeSetGasQuality run cv) s)

/-- The first setting of the clock (R19): deadlines move with it; the running slot and the open period start are taken
from it (R82, R139). -/
def State.firstClock (s : State) (v : Clk) : State :=
  let s1 := s.moveDeadlines (v - s.clock)
  let s2 : State := { s1 with mu := { s1.mu with clock := v, set := true } }
  let s3 := s2.runningFromClock
  { s3 with su := { s3.su with openStart := some (periodStart v) } }

/-- A trim of a set clock (R19): a forward one may raise a boundary (R20). -/
def State.trimClock (s : State) (v : Clk) (trim : Int) : State :=
  let s1 : State := { s with mu := { s.mu with clock := v } }
  if trim > 0 then s1.raiseBoundary s.clock else s1

/-- The reply of SET_CLOCK. -/
def State.clockFields (s : State) : List Fld := [clk4 s.clock, b1 s.clockStateCode]

/-- SET_CLOCK (R19). -/
def takeSetClock (value : Nat) (s : State) : Ev × Answer :=
  let v : Clk := BitVec.ofNat 32 value
  if !s.mu.set then
    let s1 := s.firstClock v
    (s1.ev, .ok s1.clockFields)
  else
    let trim := (v - s.clock).toInt
    judged s [(1, trim.natAbs ≤ s.maxTrim)] <|
      refuseIf s (trim < -((s.clock.toNat % 3600 : Nat) : Int)) (.refuse .wrongState)
        ((s.trimClock v trim).ev, .ok (s.trimClock v trim).clockFields)

/-- SET_CLOCK (R19). -/
def execSetClock (tag value : Nat) (s : State) : Host.Outcome State Fault Refusal :=
  .next (serve (.setClock tag value) (takeSetClock value) s)

/-! ### Events -/

/-- CHANNEL_READING (R1 to R7). Idle while SITE is INVALID and during a recalibration pass (R1, R9). -/
def execChannelReading (channel current : Nat) (s : State) : Host.Outcome State Fault Refusal :=
  .next (occurs (fun t => t.mu.pass != .running)
    (fun ev => match ev.s.chanDef channel with
      | some d => reading channel current d ev
      | none => ev) s)

/-- HOLD_EXPIRY (R4). -/
def execHoldExpiry (channel : Nat) (s : State) : Host.Outcome State Fault Refusal :=
  .next (occurs (fun t => (t.chan channel).quality == .held && due t.clock (t.chan channel).hold)
    (holdExpired channel) s)

/-- RECALIBRATION_BEGIN (R9). -/
def execRecalibrationBegin (s : State) : Host.Outcome State Fault Refusal :=
  .next (occurs (fun t => t.mu.pass == .pending)
    (fun ev => (List.range 16).foldl passBegins (ev.map fun t => { t with mu := { t.mu with pass := .running } })) s)

/-- RECALIBRATION_COMPLETE (R9). -/
def execRecalibrationComplete (s : State) : Host.Outcome State Fault Refusal :=
  .next (occurs (fun t => t.mu.pass == .running)
    (fun ev => (List.range 16).foldl passEnds (ev.map fun t => { t with mu := { t.mu with pass := .none } })) s)

/-- METER_PULSE (R12 to R15). -/
def execMeterPulse (run : Nat) (s : State) : Host.Outcome State Fault Refusal :=
  .next (occurs (fun t => (t.metered run).isSome)
    (fun ev => match ev.s.metered run with
      | some d => pulse run d ev
      | none => ev) s)

/-- ZERO_FLOW_EXPIRY (R14). -/
def execZeroFlowExpiry (run : Nat) (s : State) : Host.Outcome State Fault Refusal :=
  .next (occurs (fun t => due t.clock (t.run run).zero)
    (fun ev => setRate run 0 (ev.map fun t => t.updRun run fun x => { x with zero := none })) s)

/-- CLOCK_SECOND (R18, R20, R58): the clock counts in every phase (R172). -/
def execClockSecond (s : State) : Host.Outcome State Fault Refusal := .next s.second

/-- CRYSTAL_STOP (R18): each fresh stop raises CLOCK_DEGRADED; the source changes in every phase. -/
def execCrystalStop (s : State) : Host.Outcome State Fault Refusal :=
  let stopped : State := { s with mu := { s.mu with source := .internal } }
  .next (if s.mu.source = .internal then s
    else if s.phase = .running then (raise .clockDegraded none stopped.ev).finish else stopped)

/-- CRYSTAL_RESUME (R18). -/
def execCrystalResume (s : State) : Host.Outcome State Fault Refusal :=
  .next { s with mu := { s.mu with source := .crystal } }

/-- The boundary taken by the Settlement Unit, with its re-step (R122, R139). -/
def takeBoundary (b : Boundary) (s : State) : State := (suBoundary b.clk b.day s.ev).finish

/-- The oldest period boundary raised is taken (R20): by the SU, and on a day boundary by the CDM, whose rotation may
come before the planner's step or after it (R47; log entry 21). -/
def State.periodBoundary (s : State) (rotateFirst : Bool) : State :=
  match s.mu.boundaries with
  | [] => s
  | b :: rest =>
    let s1 : State := { s with mu := { s.mu with boundaries := rest } }
    if !b.day then takeBoundary b s1
    else if rotateFirst then takeBoundary b s1.rotateDuties
    else (takeBoundary b s1).rotateDuties

/-- PERIOD_BOUNDARY (R20). -/
def execPeriodBoundary (rotateFirst : Bool) (s : State) : Host.Outcome State Fault Refusal :=
  .next (onLink (·.periodBoundary rotateFirst) s)

end Sys2Proof.Machine
end

