-- ==== Sys2Proof/Machine/CavernCommands.lean ====
section
/-! DEFINITION. The commands of the cavern table (02): the CVC's requests, the valve limit inputs, and the caverns'
deadlines. -/

namespace Sys2Proof.Machine

/-- A change of an input: recorded in every phase, and followed up by a running part (R22, R41, R63, R154). -/
def inputChange (changed : Bool) (record : State → State) (f : Ev → Ev) (s : State) : State :=
  if !changed then s else if s.phase = .running then (f (record s).ev).finish else record s

/-! ### Requests -/

/-- The reply of an accepted request on a cavern (2.3). -/
def State.cavernReply (s : State) (c : Nat) : Answer :=
  let r := s.cav c
  .ok [b1 r.state.code, b1 r.position.code, b1 r.command.code]

/-- A request on a present cavern: BAD_FIELD for another index or a field that `fields` fails, then NO_SUCH for an
absent cavern (2.3), both before the refusals of the rule's table (log entry 11). -/
def onCavern (s : State) (c : Nat) (fields : List (Nat × Bool)) (go : CavernDef → Ev × Answer) : Ev × Answer :=
  judged s ((1, c < 8) :: fields) <|
    match s.cavDef c with
    | none => (s.ev, .refuse .noSuch)
    | some d => go d

/-- A change of a cavern with the reply after it. -/
def cavernDone (c : Nat) (ev : Ev) : Ev × Answer := (ev, ev.s.cavernReply c)

/-- CAVERN_SERVICE(in) (R24). -/
def takeCavernServiceIn (c : Nat) (s : State) : Ev × Answer :=
  onCavern s c [] fun d =>
    refuseIf s ((s.cav c).state != .outOfService) (.refuse .wrongState) <|
      refuseIf s (d.channel.isNone || (s.cav c).position != .closed) (.refuse .notReady) <|
        cavernDone c (changeCavern c
          (fun r => { r with state := .shut, command := .driveClose, envelope := .inside }) s.ev)

/-- CAVERN_SERVICE(in) (R24). -/
def execCavernServiceIn (tag cavern : Nat) (s : State) : Host.Outcome State Fault Refusal :=
  .next (serve (.cavernServiceIn tag cavern) (takeCavernServiceIn cavern) s)

/-- The states in which CAVERN_SERVICE(out) is taken (R25). -/
def CavernState.leavable : CavernState → Bool
  | .shut | .tripped | .valveFault => true
  | .outOfService | .opening | .idle | .injecting | .withdrawing | .dwell | .closing => false

/-- CAVERN_SERVICE(out) (R25); the body's second byte is 1. -/
def takeCavernServiceOut (c dir : Nat) (s : State) : Ev × Answer :=
  onCavern s c [(2, dir == 1)] fun _ =>
    refuseIf s (!(s.cav c).state.leavable) (.refuse .wrongState) <|
      cavernDone c (changeCavern c
        (fun r => { r with state := .outOfService, command := .driveClose, travel := none }) s.ev)

/-- CAVERN_SERVICE(out) (R25). -/
def execCavernServiceOut (tag cavern dir : Nat) (s : State) : Host.Outcome State Fault Refusal :=
  .next (serve (.cavernServiceOut tag cavern dir) (takeCavernServiceOut cavern dir) s)

/-- A cavern's pressure is fit for opening: GOOD, status INSIDE, value within the trip limits (R26). -/
def Cavern.fitToOpen (d : CavernDef) (r : Cavern) : Bool :=
  r.quality == .good && r.envelope == .inside && d.envelopeOf r.pressure == .inside

/-- CAVERN_ENABLE (R26). -/
def takeCavernEnable (c : Nat) (s : State) : Ev × Answer :=
  onCavern s c [] fun d =>
    refuseIf s s.settling (.refuse .settling) <|
      refuseIf s s.tru.tripped (.refuse .tripped) <|
        refuseIf s (!(s.cav c).state.isClosed) (.refuse .wrongState) <|
          refuseIf s (!(s.cav c).fitToOpen d) (.refuse .notReady) <|
            cavernDone c (changeCavern c
              (fun r => { r with state := .opening, command := .driveOpen, travel := some (s.after d.travel) }) s.ev)

/-- CAVERN_ENABLE (R26). -/
def execCavernEnable (tag cavern : Nat) (s : State) : Host.Outcome State Fault Refusal :=
  .next (serve (.cavernEnable tag cavern) (takeCavernEnable cavern) s)

/-- CAVERN_SHUT (R28). -/
def takeCavernShut (c : Nat) (s : State) : Ev × Answer :=
  onCavern s c [] fun d =>
    match (s.cav c).state with
    | .opening | .idle | .injecting | .withdrawing | .dwell =>
      cavernDone c (changeCavern c (·.beginClosing s d .shut) s.ev)
    | .shut | .closing => cavernDone c s.ev
    | .outOfService | .tripped | .valveFault => (s.ev, .refuse .wrongState)

/-- CAVERN_SHUT (R28). -/
def execCavernShut (tag cavern : Nat) (s : State) : Host.Outcome State Fault Refusal :=
  .next (serve (.cavernShut tag cavern) (takeCavernShut cavern) s)

/-- The position of the first entry of a list that is outside `ok` or repeats an earlier one. -/
def firstOffending (ok : Nat → Bool) (l : List Nat) : Option Nat :=
  (List.range l.length).find? fun i => !ok (l.getD i 0) || (l.take i).contains (l.getD i 0)

/-- A list of indices in a reply. -/
def indexFields (l : List Nat) : List Fld := l.map b1

/-- The merit list of a direction: 0 INJECT, 1 WITHDRAW. -/
def State.merit (s : State) (dir : Nat) : List Nat := if dir = 0 then s.cvc.injMerit else s.cvc.wdMerit

/-- Replace the merit list of a direction. -/
def State.setMerit (s : State) (dir : Nat) (l : List Nat) : State :=
  if dir = 0 then { s with cvc := { s.cvc with injMerit := l } } else { s with cvc := { s.cvc with wdMerit := l } }

/-- SET_MERIT_ORDER (R37); NO_SUCH under an INVALID CAVERNS group comes before the entries are judged (log
entry 11). -/
def takeSetMeritOrder (dir : Nat) (caverns : List Nat) (s : State) : Ev × Answer :=
  judged s [(1, dir < 2)] <|
    refuseIf s s.pst.caverns.live.isNone (.refuse .noSuch) <|
      match firstOffending (fun c => (s.cavDef c).isSome) caverns with
      | some i => (s.ev, .badField (2 + i))
      | none => ((s.ev.map fun t => t.setMerit dir caverns).hand true, .ok (indexFields caverns))

/-- SET_MERIT_ORDER (R37). -/
def execSetMeritOrder (tag dir : Nat) (caverns : List Nat) (s : State) : Host.Outcome State Fault Refusal :=
  .next (serve (.setMeritOrder tag dir caverns) (takeSetMeritOrder dir caverns) s)

/-- READ_MERIT_ORDER (R37). -/
def takeReadMeritOrder (dir : Nat) (s : State) : Ev × Answer :=
  judged s [(1, dir < 2)] (answerOnly s (indexFields (s.merit dir)))

/-- READ_MERIT_ORDER (R37). -/
def execReadMeritOrder (tag dir : Nat) (s : State) : Host.Outcome State Fault Refusal :=
  .next (serve (.readMeritOrder tag dir) (takeReadMeritOrder dir) s)

/-- The present mark, and the fields of a reply: those that describe something that is not there are carried as 0 (R186).
That every live field of an absent cavern, unit or train is such a field is the model's choice (log entry 52). -/
def fieldsIf (present : Bool) (l : List Fld) : List Fld :=
  yn present :: if present then l else l.map fun f => { f with value := 0 }

/-- The reply of READ_CAVERN (R38). -/
def State.cavernFields (s : State) (c : Nat) : List Fld :=
  let r := s.cav c
  let secs (d : Option Clk) : Fld := optU 2 (d.map (left s.clock))
  fieldsIf (s.cavDef c).isSome
    [b1 r.state.code, optU 1 (r.target.map Target.code), b1 r.command.code, b1 r.position.code, b1 r.last.code,
      secs r.dwell, secs r.travel, b4 r.injPermit, b4 r.wdPermit, yn (s.lowPressure c), i4 r.setpoint,
      ⟨2, r.pressure⟩, b1 r.quality.code, b1 r.envelope.code]

/-- READ_CAVERN (R38). -/
def takeReadCavern (c : Nat) (s : State) : Ev × Answer := judged s [(1, c < 8)] (answerOnly s (s.cavernFields c))

/-- READ_CAVERN (R38). -/
def execReadCavern (tag cavern : Nat) (s : State) : Host.Outcome State Fault Refusal :=
  .next (serve (.readCavern tag cavern) (takeReadCavern cavern) s)

/-! ### Events -/

/-- What a new valve position does in the travelling states (R27, R29). -/
def Cavern.travelled (r : Cavern) : Cavern :=
  match r.state, r.position, r.target with
  | .opening, .opened, _ => { r with state := .idle, setpoint := 0, travel := none }
  | .closing, .closed, some .shut => { r with state := .shut, target := none, travel := none }
  | .closing, .closed, some .tripped => { r with state := .tripped, target := none, travel := none }
  | _, _, _ => r

/-- The limit inputs of a cavern's record. -/
def Cavern.setLimits (o c : Bool) (r : Cavern) : Cavern := { r with openLimit := o, closedLimit := c }

/-- VALVE_LIMIT_CHANGE (R22, R23, R27, R29). -/
def execValveLimitChange (cavern : Nat) (openMade closedMade : Bool) (s : State) :
    Host.Outcome State Fault Refusal :=
  let r := s.cav cavern
  .next (inputChange (r.openLimit != openMade || r.closedLimit != closedMade)
    (fun t => t.updCav cavern (·.setLimits openMade closedMade))
    (changeCavern cavern Cavern.travelled) s)

/-- A travel deadline that passes (R23, R27, R29). -/
def travelExpired (c : Nat) (ev : Ev) : Ev :=
  let r := ev.s.cav c
  let fault := changeCavern c Cavern.toFault ev
  match r.state with
  | .closing => if r.target = some .tripped then secondFailure c fault else fault
  | .opening => fault
  | .idle | .injecting | .withdrawing | .dwell | .shut | .tripped =>
    if r.state.expected = some r.position then ev else fault
  | .outOfService | .valveFault => ev

/-- TRAVEL_DEADLINE_EXPIRY (R23, R27, R29, R158). -/
def execTravelDeadlineExpiry (cavern : Nat) (s : State) : Host.Outcome State Fault Refusal :=
  .next (occurs (fun t => due t.clock (t.cav cavern).travel) (travelExpired cavern) s)

/-- A dwell deadline that passes (R35). -/
def Cavern.dwelt (r : Cavern) : Cavern :=
  { r with dwell := none, last := .none, state := if r.state = .dwell then .idle else r.state }

/-- DWELL_EXPIRY (R35). -/
def execDwellExpiry (cavern : Nat) (s : State) : Host.Outcome State Fault Refusal :=
  .next (occurs (fun t => due t.clock (t.cav cavern).dwell) (changeCavern cavern Cavern.dwelt) s)

end Sys2Proof.Machine
end

