-- ==== Sys2Proof/Machine/UnitCommands.lean ====
section
/-! DEFINITION. The commands of compressor duty (03): the CDM's requests, the running inputs, and the units' and duties'
deadlines. -/

namespace Sys2Proof.Machine

/-! ### Requests -/

/-- The reply of an accepted request on a unit (3.3). -/
def State.unitReply (s : State) (u : Nat) : Answer :=
  let r := s.unit u
  .ok [b1 r.state.code, b1 (dutyCode r.duty), b1 r.command.code]

/-- A request on a present unit (3.3); its refusals come before those of the rule (log entry 11). -/
def onUnit (s : State) (u : Nat) (fields : List (Nat × Bool)) (go : Ev × Answer) : Ev × Answer :=
  judged s ((1, u < 6) :: fields) (refuseIf s (s.unitDef u).isNone (.refuse .noSuch) go)

/-- A change of a unit with the reply after it. -/
def unitDone (u : Nat) (s : State) : Ev × Answer := (s.ev, s.unitReply u)

/-- UNIT_MAINTENANCE (R42). -/
def takeUnitMaintenance (u : Nat) (s : State) : Ev × Answer :=
  onUnit s u [] <|
    match (s.unit u).state with
    | .off | .resting | .failed | .lockedOut =>
      unitDone u (s.updUnit u fun r => { r with state := .maintenance, command := .stop })
    | .maintenance => unitDone u s
    | .starting | .running | .stopping => (s.ev, .refuse .wrongState)

/-- UNIT_MAINTENANCE (R42). -/
def execUnitMaintenance (tag unit : Nat) (s : State) : Host.Outcome State Fault Refusal :=
  .next (serve (.unitMaintenance tag unit) (takeUnitMaintenance unit) s)

/-- A unit released from maintenance (R43). -/
def CompUnit.release (clock : Clk) (r : CompUnit) : CompUnit :=
  match r.rest with
  | some d =>
    if passed clock d then { r with failures := 0, rest := none, state := .off }
    else { r with failures := 0, state := .resting }
  | none => { r with failures := 0, state := .off }

/-- UNIT_AVAILABLE (R43). -/
def takeUnitAvailable (u : Nat) (s : State) : Ev × Answer :=
  onUnit s u [] <|
    refuseIf s s.settling (.refuse .settling) <|
      refuseIf s ((s.unit u).state != .maintenance) (.refuse .wrongState) <|
        refuseIf s (s.unit u).feedback (.refuse .notReady) <|
          unitDone u (s.updUnit u (·.release s.clock))

/-- UNIT_AVAILABLE (R43). -/
def execUnitAvailable (tag unit : Nat) (s : State) : Host.Outcome State Fault Refusal :=
  .next (serve (.unitAvailable tag unit) (takeUnitAvailable unit) s)

/-- RESET_LOCKOUT (R44). -/
def takeResetLockout (u : Nat) (s : State) : Ev × Answer :=
  onUnit s u [] <|
    refuseIf s ((s.unit u).state != .lockedOut) (.refuse .wrongState) <|
      refuseIf s (s.unit u).feedback (.refuse .notReady) <|
        unitDone u (s.updUnit u fun r => { r with failures := 0, rest := none, state := .off, command := .stop })

/-- RESET_LOCKOUT (R44). -/
def execResetLockout (tag unit : Nat) (s : State) : Host.Outcome State Fault Refusal :=
  .next (serve (.resetLockout tag unit) (takeResetLockout unit) s)

/-- A unit moves to the end of another duty's list (R45). -/
def State.moveDuty (s : State) (u : Nat) (d : Duty) : State :=
  (((s.leaveDuty u).updUnit u fun r => { r with duty := d })).updDuty d fun q => { q with order := q.order ++ [u] }

/-- SET_DUTY (R45). -/
def takeSetDuty (u duty : Nat) (s : State) : Ev × Answer :=
  onUnit s u [(2, duty < 2)] <|
    match (s.unit u).state, dutyOfCode duty with
    | .off, some d | .maintenance, some d | .lockedOut, some d =>
      if (s.unit u).duty = d then unitDone u s else unitDone u (s.moveDuty u d)
    | _, _ => (s.ev, .refuse .wrongState)

/-- SET_DUTY (R45). -/
def execSetDuty (tag unit duty : Nat) (s : State) : Host.Outcome State Fault Refusal :=
  .next (serve (.setDuty tag unit duty) (takeSetDuty unit duty) s)

/-- The first entry of a new order that offends: one that is not of the list or repeats; a list that omits a unit
offends at the place after its end (R46; log entry 11). -/
def badOrder (old new : List Nat) : Option Nat :=
  match firstOffending old.contains new with
  | some i => some i
  | none => if new.length < old.length then some new.length else none

/-- SET_DUTY_ORDER (R46); NO_SUCH under an INVALID PLANT group comes before the entries are judged (log entry 11). -/
def takeSetDutyOrder (duty : Nat) (units : List Nat) (s : State) : Ev × Answer :=
  judged s [(1, duty < 2)] <|
    refuseIf s s.pst.plant.live.isNone (.refuse .noSuch) <|
      match dutyOfCode duty with
      | none => (s.ev, .badField 1)
      | some d =>
        match badOrder (s.duty d).order units with
        | some i => (s.ev, .badField (2 + i))
        | none => ((s.updDuty d fun q => { q with order := units }).ev, .ok (indexFields units))

/-- SET_DUTY_ORDER (R46). -/
def execSetDutyOrder (tag duty : Nat) (units : List Nat) (s : State) : Host.Outcome State Fault Refusal :=
  .next (serve (.setDutyOrder tag duty units) (takeSetDutyOrder duty units) s)

/-- The reply of READ_UNIT (R59). That one byte before the start history gives its length, that its ages take four bytes
and that the seconds left take two are the model's choices (log entry 9). The age of a history entry is clock − entry
modulo 2³² (log entry 37). That a minimum run deadline which stays after its expiry shows 0 seconds, and those to it
again once a backward trim has put the clock before it, is the model's choice (log entry 51), and so is that nothing of
an absent unit is shown (log entry 52). -/
def State.unitFields (s : State) (u : Nat) : List Fld :=
  let r := s.unit u
  let present := (s.unitDef u).isSome
  let secs (d : Option Clk) : Fld := optU 2 (d.map (left s.clock))
  let history := if present then r.history else []
  fieldsIf present
    ([b1 r.state.code, b1 (dutyCode r.duty), b1 r.command.code, yn r.feedback, secs r.start, secs r.stop,
      secs r.minRun, secs r.rest, b1 r.failures, b1 history.length] ++
      history.map (fun t => b4 (s.clock - t).toNat) ++ [b4 r.runSeconds, b4 r.startCount])

/-- READ_UNIT (R59). -/
def takeReadUnit (u : Nat) (s : State) : Ev × Answer := judged s [(1, u < 6)] (answerOnly s (s.unitFields u))

/-- READ_UNIT (R59). -/
def execReadUnit (tag unit : Nat) (s : State) : Host.Outcome State Fault Refusal :=
  .next (serve (.readUnit tag unit) (takeReadUnit unit) s)

/-- A list in a reply, with its length in one byte before it, which is the model's choice (log entry 9). -/
def countedFields (l : List Nat) : List Fld := b1 l.length :: indexFields l

/-- A pending timer in a reply: seconds and candidate. That a timer which stays after its expiry is shown, with the
seconds to its deadline where a backward trim has put the clock before it, is the model's choice (log entry 51). -/
def pendingFields (s : State) (t : Option PendingTimer) : List Fld :=
  [optU 2 (t.map fun x => left s.clock x.deadline), optU 1 (t.bind PendingTimer.candidate)]

/-- A duty in the reply of READ_DUTY (R59). -/
def State.dutyFields (s : State) (d : Duty) : List Fld :=
  let q := s.duty d
  countedFields q.order ++ countedFields q.running ++ [b4 q.demand, b4 (s.runningCapacity d)] ++
    pendingFields s q.startPending ++ pendingFields s q.stopPending

/-- READ_DUTY (R59). -/
def takeReadDuty (s : State) : Ev × Answer := answerOnly s (s.dutyFields .inject ++ s.dutyFields .boost)

/-- READ_DUTY (R59). -/
def execReadDuty (tag : Nat) (s : State) : Host.Outcome State Fault Refusal :=
  .next (serve (.readDuty tag) takeReadDuty s)

/-! ### Events -/

/-- START_PENDING_EXPIRY (R49, R50). -/
def execStartPendingExpiry (d : Duty) (s : State) : Host.Outcome State Fault Refusal :=
  .next (occurs (fun t => (t.duty d).startPending.any fun p => !p.taken && passed t.clock p.deadline) (review d) s)

/-- STOP_PENDING_EXPIRY (R49, R53). -/
def execStopPendingExpiry (d : Duty) (s : State) : Host.Outcome State Fault Refusal :=
  .next (occurs (fun t => (t.duty d).stopPending.any fun p => !p.taken && passed t.clock p.deadline) (review d) s)

/-- MINIMUM_RUN_EXPIRY (R49, R53). -/
def execMinimumRunExpiry (unit : Nat) (s : State) : Host.Outcome State Fault Refusal :=
  .next (occurs
    (fun t => !(t.unit unit).minRunTaken && due t.clock (t.unit unit).minRun &&
      (t.duty (t.unit unit).duty).running.contains unit)
    (fun ev => review (ev.s.unit unit).duty (ev.map fun t => t.updUnit unit fun r => { r with minRunTaken := true })) s)

/-- A change of running feedback in a unit's state (R41, R51, R54, R55). -/
def feedbackChanged (u : Nat) (ev : Ev) : Ev :=
  let r := ev.s.unit u
  match r.state, r.feedback with
  | .starting, true => unitStarted u ev
  | .stopping, false => ev.map (·.completeStop u)
  | .running, false => runLost u ev
  | .off, true | .resting, true | .failed, true => uncommanded u ev
  | _, _ => ev

/-- UNIT_RUNNING_INPUT_CHANGE (R41). -/
def execUnitRunningInputChange (unit : Nat) (present : Bool) (s : State) : Host.Outcome State Fault Refusal :=
  .next (inputChange ((s.unit unit).feedback != present)
    (fun t => t.updUnit unit fun r => { r with feedback := present }) (feedbackChanged unit) s)

/-- A start that failed (R52). -/
def startFailed (u : Nat) (ev : Ev) : Ev :=
  let n := (ev.s.unit u).failures + 1
  let ev1 := ev.map fun s => (s.updUnit u fun r =>
    { r with
      command := .stop, start := none, failures := n
      state := if n < 2 then .failed else .lockedOut
      rest := if n < 2 then s.restUntil u else none }).leaveOrder u
  let ev2 := raise .startFailed (some u) ev1 (.failures n)
  if n < 2 then ev2 else raise .unitLockedOut (some u) ev2 (.cause .start)

/-- START_DEADLINE_EXPIRY (R52). -/
def execStartDeadlineExpiry (unit : Nat) (s : State) : Host.Outcome State Fault Refusal :=
  .next (occurs (fun t => (t.unit unit).state == .starting && due t.clock (t.unit unit).start) (startFailed unit) s)

/-- A stop timeout (R54): complete, or a unit stop failure handed to the Trip Unit with the unit's index. -/
def stopExpired (u : Nat) (ev : Ev) : Ev :=
  if (ev.s.unit u).feedback then
    (ev.map fun s => s.updUnit u fun r => { r with stop := none }).launch { code := 0x060, unit := some u }
  else ev.map (·.completeStop u)

/-- STOP_DEADLINE_EXPIRY (R54). -/
def execStopDeadlineExpiry (unit : Nat) (s : State) : Host.Outcome State Fault Refusal :=
  .next (occurs (fun t => (t.unit unit).state == .stopping && due t.clock (t.unit unit).stop) (stopExpired unit) s)

/-- REST_DEADLINE_EXPIRY (R52, R54). -/
def execRestDeadlineExpiry (unit : Nat) (s : State) : Host.Outcome State Fault Refusal :=
  .next (occurs
    (fun t => ((t.unit unit).state == .resting || (t.unit unit).state == .failed) && due t.clock (t.unit unit).rest)
    (fun ev => ev.map fun t => t.updUnit unit fun r => { r with state := .off, rest := none }) s)

/-- START_HISTORY_AGE_OUT (R48): the entry at the head leaves; one behind it waits for it (log entry 37). -/
def execStartHistoryAgeOut (unit : Nat) (s : State) : Host.Outcome State Fault Refusal :=
  .next (occurs (fun t => (t.unit unit).history.head?.any fun h => passed t.clock (h + 3600#32))
    (fun ev => ev.map fun t => t.updUnit unit fun r => { r with history := r.history.drop 1 }) s)

end Sys2Proof.Machine
end

