-- ==== Sys2Proof/Machine/TrainCommands.lean ====
section
/-! DEFINITION. The commands of the drying trains (04): the DTC's requests, the tower feedbacks, and the trains'
deadlines. -/

namespace Sys2Proof.Machine

/-! ### Requests -/

/-- The fields of the reply of an accepted request on a train (4.6): state and in-service field, then state and loading
of tower A and of tower B (the order is the model's choice, log entry 9). -/
def State.trainReply (s : State) (t : Nat) : List Fld :=
  let r := s.train t
  let tower (w : Tower) : List Fld := [b1 w.state.code, b4 w.loading]
  [b1 (s.trainState t).code, yn r.inService] ++ tower r.towerA ++ tower r.towerB

/-- A request on a present train (4.6); its refusals come before those of the rule's table (log entry 11). -/
def onTrain (s : State) (t : Nat) (fields : List (Nat × Bool)) (go : TrainDef → Ev × Answer) : Ev × Answer :=
  judged s ((1, t < 4) :: fields) <|
    match s.trainDef t with
    | none => (s.ev, .refuse .noSuch)
    | some d => go d

/-- A change of a train with the reply after it. -/
def trainDone (t : Nat) (ev : Ev) : Ev × Answer := (ev, .ok (ev.s.trainReply t))

/-- A train has a bed to dry with: an ADSORBING tower below capacity, or a STANDBY tower (R74). -/
def Train.hasBed (d : TrainDef) (r : Train) : Bool :=
  r.adsorbing.any (fun w => (r.tower w).loading < d.water) || r.towerA.state == .standby || r.towerB.state == .standby

/-- TRAIN_ONLINE (R74); the refusals of the table come before a train already in service is told apart (log
entry 11). -/
def takeTrainOnline (t : Nat) (s : State) : Ev × Answer :=
  onTrain s t [] fun d =>
    refuseIf s s.settling (.refuse .settling) <|
      refuseIf s (s.inCheck d.dewChannel || s.inCheck d.inletChannel) (.refuse .notReady) <|
        refuseIf s (!(s.train t).hasBed d) (.refuse .notReady) <|
          if (s.train t).inService then trainDone t s.ev else trainDone t (intoService t d s.ev)

/-- TRAIN_ONLINE (R74). -/
def execTrainOnline (tag train : Nat) (s : State) : Host.Outcome State Fault Refusal :=
  .next (serve (.trainOnline tag train) (takeTrainOnline train) s)

/-- TRAIN_OFFLINE (R75). -/
def takeTrainOffline (t : Nat) (s : State) : Ev × Answer :=
  onTrain s t [] fun _ =>
    if (s.train t).inService then trainDone t (changeTrain t Train.outOfService s.ev) else trainDone t s.ev

/-- TRAIN_OFFLINE (R75). -/
def execTrainOffline (tag train : Nat) (s : State) : Host.Outcome State Fault Refusal :=
  .next (serve (.trainOffline tag train) (takeTrainOffline train) s)

/-- FORCE_SWITCHOVER (R76). A switch that completes at once leaves no deadline to report. -/
def takeForceSwitchover (t : Nat) (s : State) : Ev × Answer :=
  onTrain s t [] fun d =>
    refuseIf s (s.train t).switch.isSome (.refuse .busy) <|
      match (s.train t).switchTarget with
      | none => (s.ev, .refuse .notReady)
      | some w =>
        let ev := beginSwitch t d w s.ev
        (ev, .ok (ev.s.trainReply t ++
          [b1 (towerCode w), optU 2 ((ev.s.train t).switch.map fun x => left ev.s.clock x.deadline)]))

/-- FORCE_SWITCHOVER (R76). -/
def execForceSwitchover (tag train : Nat) (s : State) : Host.Outcome State Fault Refusal :=
  .next (serve (.forceSwitchover tag train) (takeForceSwitchover train) s)

/-- RESET_TOWER (R77). -/
def takeResetTower (t tower : Nat) (s : State) : Ev × Answer :=
  onTrain s t [(2, tower < 2)] fun d =>
    match towerOfCode tower with
    | none => (s.ev, .badField 2)
    | some w =>
      refuseIf s (((s.train t).tower w).state != .fault) (.refuse .wrongState) <|
        trainDone t (changeTrain t (fun r => r.updTower w fun x =>
          { x with state := .regenerating, step := some (s.after d.regen) }) s.ev)

/-- RESET_TOWER (R77). -/
def execResetTower (tag train tower : Nat) (s : State) : Host.Outcome State Fault Refusal :=
  .next (serve (.resetTower tag train tower) (takeResetTower train tower) s)

/-- A tower in the reply of READ_TRAIN (R79); its inlet and feedback by their place in 4.1: OPEN and MADE first. That the
residue takes four bytes and the seconds left two is the model's choice (log entry 9). -/
def towerFields (s : State) (w : Tower) : List Fld :=
  [b1 w.state.code, b4 w.loading, b4 w.residue, b1 (if w.inletOpen then 0 else 1), b1 (if w.feedback then 0 else 1),
    optU 2 (w.step.map (left s.clock))]

/-- The reply of READ_TRAIN (R79). -/
def State.trainFields (s : State) (t : Nat) : List Fld :=
  let r := s.train t
  let d := s.trainDef t
  let secs (x : Option Clk) : Fld := optU 2 (x.map (left s.clock))
  fieldsIf d.isSome
    ([b1 (s.trainState t).code, yn r.inService, yn r.offSpec, secs r.offSpecDeadline,
      optU 1 (r.switch.map fun x => towerCode x.incoming), secs (r.switch.map Switch.deadline),
      b4 ((d.map TrainDef.switchPoint).getD 0), b4 (r.counted d)] ++
      towerFields s r.towerA ++ towerFields s r.towerB ++ [b2 ((d.map s.waterFactor).getD 0)])

/-- READ_TRAIN (R79). -/
def takeReadTrain (t : Nat) (s : State) : Ev × Answer := judged s [(1, t < 4)] (answerOnly s (s.trainFields t))

/-- READ_TRAIN (R79). -/
def execReadTrain (tag train : Nat) (s : State) : Host.Outcome State Fault Refusal :=
  .next (serve (.readTrain tag train) (takeReadTrain train) s)

/-! ### Events -/

/-- A feedback that shows open completes a switch to its tower (R63, R68). -/
def towerFeedback (t : Nat) (w : TowerId) (ev : Ev) : Ev :=
  let r := ev.s.train t
  match ev.s.trainDef t with
  | some d =>
    if (r.tower w).feedback && r.switch.any (fun x => x.incoming == w) then
      changeTrain t (·.completeSwitch ev.s d w) ev
    else ev
  | none => ev

/-- TOWER_FEEDBACK_CHANGE (R63, R68). -/
def execTowerFeedbackChange (train : Nat) (tower : TowerId) (made : Bool) (s : State) :
    Host.Outcome State Fault Refusal :=
  .next (inputChange (((s.train train).tower tower).feedback != made)
    (fun t => t.updTrain train fun r => r.updTower tower fun w => { w with feedback := made })
    (towerFeedback train tower) s)

/-- A switch that fails (R69). -/
def Train.failSwitch (r : Train) : Train :=
  match r.switch with
  | some x => { r with switch := none }.updTower x.incoming fun w => { w with state := .fault, inletOpen := false }
  | none => r

/-- SWITCH_DEADLINE_EXPIRY (R69). -/
def execSwitchDeadlineExpiry (train : Nat) (s : State) : Host.Outcome State Fault Refusal :=
  .next (occurs (fun t => due t.clock ((t.train train).switch.map Switch.deadline))
    (changeTrain train Train.failSwitch) s)

/-- The end of a step of a tower (R70). -/
def Tower.stepEnds (s : State) (d : TrainDef) (w : Tower) : Tower :=
  match w.state with
  | .regenerating => { w with state := .cooling, step := some (s.after d.cool) }
  | .cooling => { w with state := .standby, loading := 0, residue := 0, step := none }
  | .standby | .adsorbing | .fault => w

/-- A step expires; a tower that becomes STANDBY has the train checked for a switch (R66, R70). -/
def stepExpired (t : Nat) (w : TowerId) (ev : Ev) : Ev :=
  match ev.s.trainDef t with
  | some d =>
    let ev1 := changeTrain t (fun r => r.updTower w (Tower.stepEnds ev.s d)) ev
    if ((ev1.s.train t).tower w).state = .standby then checkSwitch t d ev1 else ev1
  | none => ev

/-- TOWER_STEP_EXPIRY (R70). -/
def execTowerStepExpiry (train : Nat) (tower : TowerId) (s : State) : Host.Outcome State Fault Refusal :=
  .next (occurs (fun t => due t.clock ((t.train train).tower tower).step) (stepExpired train tower) s)

/-- An off-spec deadline passes: mark, TRAIN_OFF_SPEC, forced switch (R72). -/
def offSpecExpired (t : Nat) (ev : Ev) : Ev :=
  match ev.s.trainDef t with
  | some d =>
    let ev1 := markOffSpec t ev
    match (ev1.s.train t).switchTarget with
    | some w => beginSwitch t d w ev1
    | none => ev1
  | none => ev

/-- OFF_SPEC_EXPIRY (R72). -/
def execOffSpecExpiry (train : Nat) (s : State) : Host.Outcome State Fault Refusal :=
  .next (occurs (fun t => (t.train train).inService && due t.clock (t.train train).offSpecDeadline)
    (offSpecExpired train) s)

end Sys2Proof.Machine
end

