-- ==== Sys2Proof/Machine/AccountCommands.lean ====
section
/-! DEFINITION. The requests of shipper accounts and nominations (05). -/

namespace Sys2Proof.Machine

/-! ### Fields and replies -/

/-- The reply of an accepted request on an account (5.2). -/
def State.accountReply (s : State) (a : Nat) : List Fld :=
  let r := s.account a
  [b1 r.state.code, b2 r.code, b1 r.cls.code, b4 r.space, b4 r.rin, b4 r.rwd, ⟨4, r.inventory⟩]

/-- A change of an account with the reply after it. -/
def accountDone (a : Nat) (ev : Ev) : Ev × Answer := (ev, .ok (ev.s.accountReply a))

/-- Fields of an account request: the index, then others. -/
def onAccount (s : State) (a : Nat) (fields : List (Nat × Bool)) (go : Ev × Answer) : Ev × Answer :=
  judged s ((1, a < 32) :: fields) go

/-- The account is CLOSED. -/
def State.isClosed (s : State) (a : Nat) : Bool := (s.account a).state == .closed

/-- The running slot's confirmed quantity of an account. -/
def State.runningC (s : State) (a : Nat) : Int := ((s.account a).slot s.acb.running).c

/-- The inventory of an account after it gives `q`, less what this hour's withdrawal needs, is below zero (R89, R132).
-/
def State.cannotGive (s : State) (a q : Nat) : Bool := (s.account a).inventory - q < max 0 (-s.runningC a)

/-- The space of an account cannot take `q` and this hour's injection (R89, R132). -/
def State.cannotTake (s : State) (a q : Nat) : Bool :=
  (s.account a).inventory + q + max 0 (s.runningC a) > (s.account a).space

/-! ### The book -/

/-- The reply of ACCOUNTS_READY (R81): book state and running slot. -/
def State.bookReply (s : State) : List Fld := [b1 (if s.acb.loaded then 1 else 0), b1 s.acb.running]

/-- The book becomes LOADED: the open period start is that of the clock's period (R81, R139). -/
def State.loadBook (s : State) : State :=
  { s with acb := { s.acb with loaded := true }, su := { s.su with openStart := some (periodStart s.clock) } }

/-- ACCOUNTS_READY (R81). -/
def takeAccountsReady (s : State) : Ev × Answer :=
  refuseIf s (!s.mu.set) (.refuse .clockUnset) <|
    let ev := if s.acb.loaded then s.ev else reconfirm s.acb.running s.loadBook.ev
    (ev, .ok ev.s.bookReply)

/-- ACCOUNTS_READY (R81). -/
def execAccountsReady (tag : Nat) (s : State) : Host.Outcome State Fault Refusal :=
  .next (serve (.accountsReady tag) takeAccountsReady s)

/-- A shipper code that may be given: not 0, in range, and held by no other account that is not CLOSED (R83). -/
def State.codeFree (s : State) (a code : Nat) : Bool :=
  code != 0 && code ≤ 65535 &&
    !(List.range 32).any fun i => i != a && !s.isClosed i && (s.account i).code == code

/-- OPEN_ACCOUNT (R83). -/
def takeOpenAccount (a code cls space rin rwd : Nat) (s : State) : Ev × Answer :=
  onAccount s a [] <|
    refuseIf s (!s.isClosed a) (.refuse .wrongState) <|
      judged s [(2, s.codeFree a code), (3, (classOfCode cls).isSome), (4, space ≤ Config.maxInventory),
          (5, rin ≤ Config.maxRate), (6, rwd ≤ Config.maxRate)] <|
        accountDone a (s.ev.map fun t => t.updAccount a fun _ =>
          { state := .opened, code := code, cls := (classOfCode cls).getD .firm, space := space, rin := rin, rwd := rwd
            mark := true })

/-- OPEN_ACCOUNT (R83). -/
def execOpenAccount (tag account code cls space rin rwd : Nat) (s : State) : Host.Outcome State Fault Refusal :=
  .next (serve (.openAccount tag account code cls space rin rwd) (takeOpenAccount account code cls space rin rwd) s)

/-- LOAD_INVENTORY (R84). -/
def takeLoadInventory (a inventory : Nat) (s : State) : Ev × Answer :=
  onAccount s a [(2, inventory ≤ Config.maxInventory)] <|
    refuseIf s (s.acb.loaded || s.isClosed a) (.refuse .wrongState) <|
      refuseIf s ((s.account a).space < inventory) (.refuse .noSpace) <|
        accountDone a (reconfirm s.acb.running (setInventory a inventory (s.mark a).ev))

/-- LOAD_INVENTORY (R84). -/
def execLoadInventory (tag account inventory : Nat) (s : State) : Host.Outcome State Fault Refusal :=
  .next (serve (.loadInventory tag account inventory) (takeLoadInventory account inventory) s)

/-- An account changes state, is marked, and the open slots are re-confirmed (R85, R86). -/
def changeAccountState (a : Nat) (st : AccountState) (s : State) : Ev :=
  reconfirm s.firstOpen (s.updAccount a fun r => { r with state := st, mark := true }).ev

/-- SUSPEND_ACCOUNT (R85). -/
def takeSuspendAccount (a : Nat) (s : State) : Ev × Answer :=
  onAccount s a [] <|
    match (s.account a).state with
    | .opened => accountDone a (changeAccountState a .suspended s)
    | .suspended => accountDone a s.ev
    | .closed => (s.ev, .refuse .wrongState)

/-- SUSPEND_ACCOUNT (R85). -/
def execSuspendAccount (tag account : Nat) (s : State) : Host.Outcome State Fault Refusal :=
  .next (serve (.suspendAccount tag account) (takeSuspendAccount account) s)

/-- RESUME_ACCOUNT (R86). -/
def takeResumeAccount (a : Nat) (s : State) : Ev × Answer :=
  onAccount s a [] <|
    match (s.account a).state with
    | .suspended => accountDone a (changeAccountState a .opened s)
    | .opened => accountDone a s.ev
    | .closed => (s.ev, .refuse .wrongState)

/-- RESUME_ACCOUNT (R86). -/
def execResumeAccount (tag account : Nat) (s : State) : Host.Outcome State Fault Refusal :=
  .next (serve (.resumeAccount tag account) (takeResumeAccount account) s)

/-- The condition that keeps an account from closing, as 11.1 names it (R87). -/
def State.cannotClose (s : State) (a : Nat) : Option Detail :=
  let r := s.account a
  if r.state = .closed then some ⟨.condition, 6⟩
  else if r.inventory ≠ 0 then some ⟨.condition, 7⟩
  else ((List.range' s.acb.running (48 - s.acb.running)).find? fun k => (r.slot k).c != 0).map fun k => ⟨.slot, k⟩

/-- CLOSE_ACCOUNT (R87, R146). That the class is kept in the record, and carried by READ_ACCOUNT, is the model's choice
(log entry 50). -/
def takeCloseAccount (a : Nat) (s : State) : Ev × Answer :=
  onAccount s a [] <|
    match s.cannotClose a with
    | some d => (s.ev, .no .wrongState d)
    | none =>
      accountDone a (s.ev.map fun t => (t.updAccount a fun r =>
        { r with
          state := .closed, code := 0, space := 0, rin := 0, rwd := 0, fuel := 0, book := emptyBook
          mark := true }).disarm)

/-- CLOSE_ACCOUNT (R87). -/
def execCloseAccount (tag account : Nat) (s : State) : Host.Outcome State Fault Refusal :=
  .next (serve (.closeAccount tag account) (takeCloseAccount account) s)

/-- SET_RIGHTS (R88). -/
def takeSetRights (a space rin rwd : Nat) (s : State) : Ev × Answer :=
  onAccount s a [] <|
    refuseIf s (s.isClosed a) (.refuse .wrongState) <|
      judged s [(2, space ≤ Config.maxInventory), (3, rin ≤ Config.maxRate), (4, rwd ≤ Config.maxRate)] <|
        refuseIf s ((space : Int) < (s.account a).inventory || (space : Int) < (s.account a).inventory + s.runningC a)
            (.refuse .noSpace) <|
          accountDone a (reconfirm s.firstOpen (s.updAccount a fun r =>
            { r with space := space, rin := rin, rwd := rwd, mark := true }).ev)

/-- SET_RIGHTS (R88). -/
def execSetRights (tag account space rin rwd : Nat) (s : State) : Host.Outcome State Fault Refusal :=
  .next (serve (.setRights tag account space rin rwd) (takeSetRights account space rin rwd) s)

/-- The inventory moves between two accounts (R89). That the watches on the source's inventory take their new value before
those on the destination's is the model's choice (log entry 13). -/
def moveInventory (a b q : Nat) (s : State) : Ev :=
  setInventory b ((s.account b).inventory + q) (setInventory a ((s.account a).inventory - q) s.ev)

/-- TRANSFER (R89). Its reply is that of 5.2 for the source, then for the destination (log entry 9). -/
def takeTransfer (a b q : Nat) (s : State) : Ev × Answer :=
  judged s [(1, a < 32), (2, b < 32 && b != a), (3, 1 ≤ q && q ≤ Config.maxInventory)] <|
    refuseIf s ((s.account a).state != .opened || (s.account b).state != .opened) (.refuse .wrongState) <|
      refuseIf s (s.cannotGive a q) (.refuse .insufficient) <|
        refuseIf s (s.cannotTake b q) (.refuse .noSpace) <|
          let ev := reconfirm s.firstOpen (moveInventory a b q s)
          (ev, .ok (ev.s.accountReply a ++ ev.s.accountReply b))

/-- TRANSFER (R89). -/
def execTransfer (tag source dest quantity : Nat) (s : State) : Host.Outcome State Fault Refusal :=
  .next (serve (.transfer tag source dest quantity) (takeTransfer source dest quantity) s)

/-! ### Nominations and capacity -/

/-- A nomination is stored (R90). -/
def State.nominated (s : State) (a slot : Nat) (n : Int) : State :=
  s.updAccount a fun r => { r with book := r.book.modify slot fun x => { x with n := n, nominated := true } }

/-- NOMINATE (R90). -/
def takeNominate (a slot : Nat) (n : Int) (s : State) : Ev × Answer :=
  refuseIf s (!s.mu.set) (.refuse .clockUnset) <|
    judged s [(1, a < 32), (2, slot < 48), (3, n.natAbs ≤ Config.maxRate)] <|
      refuseIf s ((s.account a).state != .opened) (.refuse .wrongState) <|
        refuseIf s (slot < s.acb.running + s.leadTime) (.refuse .tooLate) <|
          let ev := reconfirm slot (s.nominated a slot n).ev
          let x := (ev.s.account a).slot slot
          (ev, .ok [b1 a, b1 slot, i4 n, i4 x.c, b1 x.reason.code])

/-- NOMINATE (R90). -/
def execNominate (tag account slot : Nat) (n : Int) (s : State) : Host.Outcome State Fault Refusal :=
  .next (serve (.nominate tag account slot n) (takeNominate account slot n) s)

/-- DECLARE_CAPACITY (R91). -/
def takeDeclareCapacity (slot inj wd : Nat) (s : State) : Ev × Answer :=
  refuseIf s (!s.mu.set) (.refuse .clockUnset) <|
    judged s [(1, slot < 48), (2, inj ≤ Config.maxRate), (3, wd ≤ Config.maxRate)] <|
      refuseIf s (slot ≤ s.acb.running) (.refuse .tooLate) <|
        let s1 : State :=
          { s with acb :=
              { s.acb with caps := s.acb.caps.modify slot fun _ => { inj := inj, wd := wd, declared := true } } }
        let ev := reconfirm slot s1.ev
        (ev, .ok [b1 slot, b4 inj, b4 wd, i8 (ev.s.netConfirmed slot)])

/-- DECLARE_CAPACITY (R91). -/
def execDeclareCapacity (tag slot inj wd : Nat) (s : State) : Host.Outcome State Fault Refusal :=
  .next (serve (.declareCapacity tag slot inj wd) (takeDeclareCapacity slot inj wd) s)

/-- The slots a read in parts carries: those asked, at most `most` (R187). -/
def slotsAsked (first count most : Nat) : List Nat := List.range' first (min count most)

/-- The verdicts of a first slot and a count (R91, R93); `k` is the ordinal of the first slot. A sum above 48 offends at
the count, unless the first slot alone is above 47 (the model's choice, log entry 11). -/
def slotFields (k first count : Nat) : List (Nat × Bool) :=
  [(k, first < 48), (k + 1, 1 ≤ count && count ≤ 48 && first + count ≤ 48)]

/-- READ_CAPACITY (R91, R187). -/
def takeReadCapacity (first count : Nat) (s : State) : Ev × Answer :=
  judged s (slotFields 1 first count) <|
    answerOnly s ((slotsAsked first count 13).flatMap fun k =>
      let c := s.capSlot k
      [b4 c.inj, b4 c.wd, b1 (if c.declared then 1 else 0), i8 (s.netConfirmed k)])

/-- READ_CAPACITY (R91). -/
def execReadCapacity (tag first count : Nat) (s : State) : Host.Outcome State Fault Refusal :=
  .next (serve (.readCapacity tag first count) (takeReadCapacity first count) s)

/-- READ_CHANGED (R92): the marked accounts, whose marks are cleared. -/
def takeReadChanged (s : State) : Ev × Answer :=
  (s.ev.map fun t =>
      { t with acb := { t.acb with accounts := t.acb.accounts.map fun a => { a with mark := false } } },
    .ok (indexFields ((List.range 32).filter fun a => (s.account a).mark)))

/-- READ_CHANGED (R92). -/
def execReadChanged (tag : Nat) (s : State) : Host.Outcome State Fault Refusal :=
  .next (serve (.readChanged tag) takeReadChanged s)

/-- The account record (11.3). -/
def State.accountFields (s : State) (a : Nat) : List Fld :=
  let r := s.account a
  let x := r.slot s.acb.running
  [b1 a, b1 r.state.code, b2 r.code, b1 r.cls.code, b4 r.space, b4 r.rin, b4 r.rwd, ⟨4, r.inventory⟩, b4 r.fuel,
    yn r.mark, b1 s.acb.running, i4 x.n, i4 x.c, b1 x.reason.code, ⟨4, r.inventory + x.c⟩]

/-- READ_ACCOUNT (R93). -/
def takeReadAccount (a : Nat) (s : State) : Ev × Answer := onAccount s a [] (answerOnly s (s.accountFields a))

/-- READ_ACCOUNT (R93). -/
def execReadAccount (tag account : Nat) (s : State) : Host.Outcome State Fault Refusal :=
  .next (serve (.readAccount tag account) (takeReadAccount account) s)

/-- State of a slot: EMPTY 0, NOMINATED 1, FROZEN 2 (5.3). -/
def State.slotState (s : State) (k : Nat) (x : Slot) : Nat :=
  if k < s.acb.running + s.leadTime then 2 else if x.nominated then 1 else 0

/-- A slot in the reply of READ_BOOK (11.3). -/
def State.slotReply (s : State) (a k : Nat) : List Fld :=
  let r := s.account a
  let x := r.slot k
  [i4 x.n, i4 x.c, b1 x.reason.code, b1 (s.slotState k x),
    if k < s.acb.running then optU 4 none else ⟨4, r.projection s.acb.running k⟩]

/-- READ_BOOK (R93, R187). -/
def takeReadBook (a first count : Nat) (s : State) : Ev × Answer :=
  onAccount s a (slotFields 2 first count) <|
    let l := slotsAsked first count 16
    answerOnly s ([b1 a, b1 first, b1 l.length] ++ l.flatMap (s.slotReply a))

/-- READ_BOOK (R93). -/
def execReadBook (tag account first count : Nat) (s : State) : Host.Outcome State Fault Refusal :=
  .next (serve (.readBook tag account first count) (takeReadBook account first count) s)

end Sys2Proof.Machine
end

