-- ==== Sys2Proof/Machine/PlannerCommands.lean ====
section
/-! DEFINITION. The commands of flow planning (06): dispatch, READ_PLAN, and the dispatch interval. -/

namespace Sys2Proof.Machine

/-- The planner becomes ACTIVE or HELD. -/
def State.setActive (s : State) (b : Bool) : State := { s with fpl := { s.fpl with active := b } }

/-- The first profile group that is INVALID. -/
def State.invalidGroup (s : State) : Option Group :=
  [Group.site, Group.caverns, Group.plant].find? fun g => !s.groupValid g

/-- Planner state in a reply: HELD 0, ACTIVE 1. -/
def State.plannerCode (s : State) : Nat := if s.fpl.active then 1 else 0

/-- The reply of DISPATCH_ENABLE (R105). -/
def State.dispatchReply (s : State) : List Fld :=
  [b1 s.plannerCode, optI 4 (s.fpl.figures.map Figures.required), b4 s.fpl.injLimit, b4 s.fpl.wdLimit,
    i4 s.fpl.setpoint, b4 s.fpl.placed]

/-- DISPATCH_ENABLE (R105). -/
def takeDispatchEnable (s : State) : Ev × Answer :=
  if s.fpl.active then answerOnly s s.dispatchReply
  else
    refuseIf s s.settling (.refuse .settling) <|
      refuseIf s s.tru.tripped (.refuse .tripped) <|
        refuseIf s (!s.mu.set) (.refuse .clockUnset) <|
          refuseIf s (!s.acb.loaded) (.refuse .unloaded) <|
            match s.invalidGroup with
            | some g => (s.ev, .no .wrongState ⟨.group, g.code⟩)
            | none =>
              let ev := activeStep .enable (s.setActive true).ev
              (ev, .ok ev.s.dispatchReply)

/-- DISPATCH_ENABLE (R105). -/
def execDispatchEnable (tag : Nat) (s : State) : Host.Outcome State Fault Refusal :=
  .next (serve (.dispatchEnable tag) takeDispatchEnable s)

/-- DISPATCH_HOLD (R106). -/
def takeDispatchHold (s : State) : Ev × Answer :=
  let ev := if s.fpl.active then heldStep .hold (s.setActive false).ev else s.ev
  (ev, .ok [b1 ev.s.plannerCode])

/-- DISPATCH_HOLD (R106). -/
def execDispatchHold (tag : Nat) (s : State) : Host.Outcome State Fault Refusal :=
  .next (serve (.dispatchHold tag) takeDispatchHold s)

/-- The reply of READ_PLAN (R120), which has no layout; that the target and the energy so far take eight bytes and the
header pressure four is the model's choice (log entry 9). -/
def State.planFields (s : State) : List Fld :=
  let p := s.fpl
  let f := p.figures
  [b1 s.plannerCode, optU 2 (p.dispatch.map (left s.clock))] ++ optClk (p.lastStep.map Prod.fst) ++
  [optU 1 (p.lastStep.map fun x => x.2.code), optU 1 (f.map Figures.slot), optI 8 (f.map Figures.target),
    optI 8 (f.map Figures.soFar), optU 2 (f.map Figures.timeLeft), optU 2 (f.map Figures.effective),
    optI 4 (f.map Figures.required), b4 p.injSum, b4 p.wdSum, b4 p.injLimit, b4 p.wdLimit, i4 p.setpoint,
    b4 p.injDemand, b4 p.boostDemand, b4 p.poolLeft, b4 p.placed, i4 p.header, b1 p.headerQuality.code] ++
  s.cvc.caverns.flatMap fun r => [b1 r.state.code, i4 r.setpoint]

/-- READ_PLAN (R120). -/
def takeReadPlan (s : State) : Ev × Answer := answerOnly s s.planFields

/-- READ_PLAN (R120). -/
def execReadPlan (tag : Nat) (s : State) : Host.Outcome State Fault Refusal :=
  .next (serve (.readPlan tag) takeReadPlan s)

/-- The dispatch interval passes (R107). -/
def intervalStep (ev : Ev) : Ev :=
  fplStep .interval (ev.map fun s =>
    { s with fpl := { s.fpl with dispatch := s.site.map fun p => s.after p.dispatchInterval } })

/-- DISPATCH_INTERVAL_EXPIRY (R107). -/
def execDispatchIntervalExpiry (s : State) : Host.Outcome State Fault Refusal :=
  .next (occurs (fun t => due t.clock t.fpl.dispatch) intervalStep s)

end Sys2Proof.Machine
end

