-- ==== Sys2Proof/Machine/SettleCommands.lean ====
section
/-! DEFINITION. The commands of period close and allocation (07): the SU's requests and the completion of a close. -/

namespace Sys2Proof.Machine

/-- OBA_ADJUST (R132). That the watches on the inventory take their new value before those on the balance is the model's
choice (log entry 13). -/
def takeObaAdjust (a : Nat) (q : Int) (s : State) : Ev × Answer :=
  onAccount s a [(2, 1 ≤ q.natAbs && q.natAbs ≤ Config.maxInventory)] <|
    refuseIf s ((s.account a).state != .opened) (.refuse .wrongState) <|
      refuseIf s (q < 0 && s.cannotGive a q.natAbs) (.refuse .insufficient) <|
        refuseIf s (q > 0 && s.cannotTake a q.natAbs) (.refuse .noSpace) <|
          let ev1 := setBalance (s.su.balance - q) (setInventory a ((s.account a).inventory + q) s.ev)
          let ev2 := raiseObaLimit (reconfirm s.firstOpen ev1)
          (ev2, .ok [⟨4, (ev2.s.account a).inventory⟩, i8 ev2.s.su.balance])

/-- OBA_ADJUST (R132). -/
def execObaAdjust (tag account : Nat) (quantity : Int) (s : State) : Host.Outcome State Fault Refusal :=
  .next (serve (.obaAdjust tag account quantity) (takeObaAdjust account quantity) s)

/-- The reply of READ_OBA (R133). -/
def State.obaFields (s : State) : List Fld :=
  let last := s.su.ring.getLast?
  [i8 s.su.balance, b4 s.tolerance, b4 s.obaLimit, yn (s.obaLimit < s.su.balance.natAbs)] ++
  marked4 (last.map PeriodRecord.number) ++
  [optI 8 (last.map PeriodRecord.obaAlloc),
    optI 8 (last.map fun r => (r.obaFuel : Int))]

/-- READ_OBA (R133). -/
def takeReadOba (s : State) : Ev × Answer := answerOnly s s.obaFields

/-- READ_OBA (R133). -/
def execReadOba (tag : Nat) (s : State) : Host.Outcome State Fault Refusal :=
  .next (serve (.readOba tag) takeReadOba s)

/-- The period record from a position of its shipper list on (11.3, R187). That byte 68 of a record with an empty shipper
list is the position asked for, though no entry is carried, is the model's choice (log entry 50). -/
def PeriodRecord.fields (r : PeriodRecord) (position : Nat) : List Fld :=
  let part := (r.shippers.drop position).take 12
  [b4 r.number, clk4 r.start, b1 r.slot, b1 (if r.metered then 0 else 1), b1 r.case.code, i8 r.c, b8 r.eIn, b8 r.eOut,
    i8 r.d, b8 r.f, i8 r.obaAlloc, b8 r.obaFuel, b1 r.shippers.length, b1 position, b1 part.length] ++
  part.flatMap fun e => [b1 e.account, i4 e.c, i4 e.a, b4 e.f]

/-- READ_PERIOD (R135, R187). A period being closed or due has been waited for by R124; one that the ring no longer holds
when the wait ends is refused with NO_SUCH (the model's choice, log entry 42). -/
def takeReadPeriod (number : Nat) (position : Option Nat) (s : State) : Ev × Answer :=
  let p := position.getD 0
  judged s [(2, p < 32)] <|
    match s.su.ring.find? (·.number == number) with
    | none => (s.ev, .refuse .noSuch)
    | some r => judged s [(2, r.shippers.isEmpty || p < r.shippers.length)] (answerOnly s (r.fields p))

/-- READ_PERIOD (R135). -/
def execReadPeriod (tag number : Nat) (position : Option Nat) (s : State) : Host.Outcome State Fault Refusal :=
  .next (serve (.readPeriod tag number position) (takeReadPeriod number position) s)

/-! ### The completion of a close (R125), and what has waited for it (R124, R179) -/

/-- What a request to the Account Book or to the Settlement Unit does when it is taken; none for the other requests, which
no close holds back (R124). -/
def closeTaking : Instr → Option (State → Ev × Answer)
  | .accountsReady _ => some takeAccountsReady
  | .openAccount _ a code cls space rin rwd => some (takeOpenAccount a code cls space rin rwd)
  | .loadInventory _ a inventory => some (takeLoadInventory a inventory)
  | .suspendAccount _ a => some (takeSuspendAccount a)
  | .resumeAccount _ a => some (takeResumeAccount a)
  | .closeAccount _ a => some (takeCloseAccount a)
  | .setRights _ a space rin rwd => some (takeSetRights a space rin rwd)
  | .transfer _ a b q => some (takeTransfer a b q)
  | .nominate _ a slot n => some (takeNominate a slot n)
  | .declareCapacity _ slot inj wd => some (takeDeclareCapacity slot inj wd)
  | .readCapacity _ first count => some (takeReadCapacity first count)
  | .readChanged _ => some takeReadChanged
  | .readAccount _ a => some (takeReadAccount a)
  | .readBook _ a first count => some (takeReadBook a first count)
  | .obaAdjust _ a q => some (takeObaAdjust a q)
  | .readOba _ => some takeReadOba
  | .readPeriod _ number position => some (takeReadPeriod number position)
  | _ => none

/-- A request that a close has held back has its turn tried. -/
def takeHeld (s : State) (e : QEntry) : State :=
  match closeTaking e.request with
  | some take => tryEntry take e s
  | none => s

/-- The requests that a close has held back are taken, oldest first, each in its own event, when no close is in flight
any more (R124, R179); with reset pending none is (R183). That they are taken within the command that completes the
close is the model's choice (log entry 3). -/
def State.takeWaiting (held : List QEntry) (s : State) : State :=
  if s.inFlight || s.slu.resetPending then s else held.foldl takeHeld s

/-- CLOSE_COMPLETE (R125). -/
def execCloseComplete (s : State) : Host.Outcome State Fault Refusal :=
  .next (match s.phase, s.su.current with
    | .running, some c => (completeClose c s.ev).finish.takeWaiting s.heldEntries
    | _, _ => s)

end Sys2Proof.Machine
end

