-- ==== Sys2Proof/Machine/WatchCommands.lean ====
section
/-! DEFINITION. The commands of watches and notices (8.1, 8.2): the WNU's requests, and the timeout of an
AWAIT_FLAGS. -/

namespace Sys2Proof.Machine

/-! ### SET_WATCH (R141) -/

/-- The fields of a SET_WATCH as the body carries them. -/
structure WatchFields where
  kind : Nat
  index : Nat
  event : Nat
  filter : Nat
  condition : Nat
  threshold : Int
  hysteresis : Nat
  channel : Nat
  action : Nat
  hostCode : Nat
  mode : Nat
deriving DecidableEq, Repr

/-- How many indices a source kind has; none for a kind whose index has no meaning (8.1, R186). -/
def sourceIndices : Nat → Option Nat
  | 0 => some 16
  | 1 => some 8
  | 2 => some 4
  | 4 => some 32
  | 5 => some 7
  | _ => none

/-- The filter fits the event: ANY, or an index in the event's range (R144). -/
def filterFits (event filter : Nat) : Bool :=
  filter == 255 || (eventOfCode event).any fun n => filter < n.indices

/-- The condition fits the source: OCCURS on an EVENT source and no other condition there (R141). -/
def conditionFits (kind condition : Nat) : Bool := condition ≤ 5 && ((kind == 6) == (condition == 5))

/-- The hysteresis has a meaning: the edge conditions alone take one (R143; log entry 14). -/
def WatchFields.hysteretic (w : WatchFields) : Bool := w.condition ≤ 2

/-- The verdicts of a SET_WATCH's fields, in the order of the record (R141); a field without meaning is not judged
(R186). -/
def WatchFields.verdicts (w : WatchFields) (watch : Nat) : List (Nat × Bool) :=
  [(1, watch < 24), (2, w.kind ≤ 6), (3, (sourceIndices w.kind).all fun n => w.index < n),
    (4, w.kind != 6 || w.event < 13), (5, w.kind != 6 || filterFits w.event w.filter),
    (6, conditionFits w.kind w.condition), (7, w.condition == 5 || w.threshold.natAbs ≤ 9999999999),
    (8, !w.hysteretic || w.hysteresis ≤ 99999999), (9, w.channel ≤ 3),
    (10, w.action ≤ 2 && (w.action != 1 || w.kind == 1)), (11, 0x800 ≤ w.hostCode && w.hostCode ≤ 0xFFF),
    (12, w.mode ≤ 1 && (w.mode == 0 || w.action == 0))]

/-- The source of a watch from its fields. -/
def WatchFields.source (w : WatchFields) : WatchSource :=
  match w.kind with
  | 0 => .channel w.index
  | 1 => .cavernPressure w.index
  | 2 => .trainLoading w.index
  | 3 => .obaBalance
  | 4 => .accountInventory w.index
  | 5 => .meterRate w.index
  | _ => .event ((eventOfCode w.event).getD .periodClosed) (if w.filter = 255 then none else some w.filter)

/-- The definition of a watch from its fields; what has no meaning for the condition is stored as 0 (R186). -/
def WatchFields.defn (w : WatchFields) : WatchDef :=
  { source := w.source
    condition := (conditionOfCode w.condition).getD .occurs
    threshold := if w.condition = 5 then 0 else w.threshold
    hysteresis := if w.hysteretic then w.hysteresis else 0
    channel := if w.channel < 3 then some w.channel else none
    action := (actionOfCode w.action).getD .notify
    hostCode := w.hostCode
    oneShot := w.mode == 0 }

/-- The watch names a channel in loop check, as its source or in the filter of SENSOR_LOST (R7, R141). -/
def State.sourceInCheck (s : State) (src : WatchSource) : Bool :=
  match src with
  | .channel i | .event .sensorLost (some i) => s.inCheck i
  | .cavernPressure _ | .trainLoading _ | .obaBalance | .accountInventory _ | .meterRate _ | .event _ _ => false

/-- SET_WATCH (R141). -/
def takeSetWatch (watch : Nat) (w : WatchFields) (s : State) : Ev × Answer :=
  judged s (w.verdicts watch) <|
    refuseIf s (s.sourceGone w.source) (.refuse .noSuch) <|
      refuseIf s (s.sourceInCheck w.source) (.refuse .wrongState)
        (s.ev.map fun t => t.updWatch watch fun _ => { defn := some w.defn, state := .armed },
          .ok [b1 watch, b1 WatchState.armed.code])

/-- SET_WATCH (R141). -/
def execSetWatch (tag watch sourceKind sourceIndex event filter condition : Nat) (threshold : Int)
    (hysteresis channel action hostCode mode : Nat) (s : State) : Host.Outcome State Fault Refusal :=
  .next (serve
    (.setWatch tag watch sourceKind sourceIndex event filter condition threshold hysteresis channel action hostCode mode)
    (takeSetWatch watch
      { kind := sourceKind, index := sourceIndex, event := event, filter := filter, condition := condition
        threshold := threshold, hysteresis := hysteresis, channel := channel, action := action, hostCode := hostCode
        mode := mode }) s)

/-! ### Other requests on watches -/

/-- CLEAR_WATCH (R146). -/
def takeClearWatch (watch : Nat) (s : State) : Ev × Answer :=
  judged s [(1, watch < 24)] (s.ev.map fun t => t.updWatch watch fun _ => {}, .ok [])

/-- CLEAR_WATCH (R146). -/
def execClearWatch (tag watch : Nat) (s : State) : Host.Outcome State Fault Refusal :=
  .next (serve (.clearWatch tag watch) (takeClearWatch watch) s)

/-- The 24 flags and the state of each watch (R147). -/
def State.watchesFields (s : State) : List Fld := s.flagFields ++ s.wnu.watches.map fun w => b1 w.state.code

/-- READ_WATCHES (R147): the flags reported are cleared. -/
def takeReadWatches (s : State) : Ev × Answer := (s.ev.map State.clearFlags, .ok s.watchesFields)

/-- READ_WATCHES (R147). -/
def execReadWatches (tag : Nat) (s : State) : Host.Outcome State Fault Refusal :=
  .next (serve (.readWatches tag) takeReadWatches s)

/-- Kind, index, event and filter of a source, as SET_WATCH carries them; what has no meaning is 0 (R186). -/
def WatchSource.fields : WatchSource → List Fld
  | .channel i => [b1 0, b1 i, b1 0, b1 0]
  | .cavernPressure i => [b1 1, b1 i, b1 0, b1 0]
  | .trainLoading i => [b1 2, b1 i, b1 0, b1 0]
  | .obaBalance => [b1 3, b1 0, b1 0, b1 0]
  | .accountInventory i => [b1 4, b1 i, b1 0, b1 0]
  | .meterRate i => [b1 5, b1 i, b1 0, b1 0]
  | .event n f => [b1 6, b1 0, b1 n.code, b1 (f.getD 255)]

/-- The definition of a watch in a reply; an EMPTY watch carries 0 everywhere. -/
def watchDefFields : Option WatchDef → List Fld
  | some d =>
    d.source.fields ++
      [b1 d.condition.code, i8 d.threshold, b4 d.hysteresis, b1 (d.channel.getD 3), b1 d.action.code, b2 d.hostCode,
        b1 (if d.oneShot then 0 else 1)]
  | none => [b1 0, b1 0, b1 0, b1 0, b1 0, i8 0, b4 0, b1 0, b1 0, b2 0, b1 0]

/-- The reply of READ_WATCH (R147). -/
def Watch.fields (w : Watch) : List Fld :=
  watchDefFields w.defn ++ [b1 w.state.code, yn w.fired, optU 1 (w.latch.map Latch.code)]

/-- READ_WATCH (R147). -/
def takeReadWatch (watch : Nat) (s : State) : Ev × Answer :=
  judged s [(1, watch < 24)] (answerOnly s (s.watch watch).fields)

/-- READ_WATCH (R147). -/
def execReadWatch (tag watch : Nat) (s : State) : Host.Outcome State Fault Refusal :=
  .next (serve (.readWatch tag watch) (takeReadWatch watch) s)

/-- AWAIT_FLAGS (R148). -/
def takeAwaitFlags (mask timeout : Nat) (s : State) : Ev × Answer :=
  judged s [(1, 1 ≤ mask && mask < 2 ^ 24), (2, 1 ≤ timeout && timeout ≤ 3600)] <|
    if s.flags &&& mask ≠ 0 then (s.ev.map State.clearFlags, .ok (s.watchesFields ++ [yn false]))
    else (s.ev, .wait mask (s.after timeout))

/-- AWAIT_FLAGS (R148). -/
def execAwaitFlags (tag mask timeout : Nat) (s : State) : Host.Outcome State Fault Refusal :=
  .next (serve (.awaitFlags tag mask timeout) (takeAwaitFlags mask timeout) s)

/-! ### Requests on channels (R151 to R153) -/

/-- A watch named for re-arming can be: ONE_SHOT and FIRED (R151). -/
def Watch.rearmable (w : Watch) : Bool := w.state == .fired && w.defn.any WatchDef.oneShot

/-- The channel after an acknowledgement (R151). -/
def NoticeChannel.acknowledged (c : NoticeChannel) : NoticeChannel :=
  if c.late.entries.isEmpty && !c.late.overflow then { c with state := .idle, list := {}, late := {} }
  else { c with state := .pending, list := c.late, late := {} }

/-- ACK_NOTICE (R151). That each index of the list is a field of its own, so that the first that offends is named by 2 and
its place, is the model's choice (log entry 11). -/
def takeAckNotice (channel : Nat) (rearm : List Nat) (s : State) : Ev × Answer :=
  judged s [(1, channel < 3)] <|
    match firstOffending (fun w => w < 24) rearm with
    | some i => (s.ev, .badField (2 + i))
    | none =>
      refuseIf s ((s.notice channel).state != .outstanding) (.refuse .wrongState) <|
        let armed := rearm.filter fun w => (s.watch w).rearmable
        let s1 := armed.foldl (fun t w => t.updWatch w fun r => { r with state := .armed, latch := none })
          (s.updNotice channel NoticeChannel.acknowledged)
        (s1.ev, .ok (b1 (s1.notice channel).state.code :: indexFields armed))

/-- ACK_NOTICE (R151). -/
def execAckNotice (tag channel : Nat) (rearm : List Nat) (s : State) : Host.Outcome State Fault Refusal :=
  .next (serve (.ackNotice tag channel rearm) (takeAckNotice channel rearm) s)

/-- Every channel is held, or released (R152). -/
def State.holdAll (s : State) (b : Bool) : State :=
  { s with wnu := { s.wnu with channels := s.wnu.channels.map fun c => { c with held := b } } }

/-- The states of the three channels in a reply. -/
def State.channelStates (s : State) : List Fld := s.wnu.channels.map fun c => b1 c.state.code

/-- HOLD_NOTICES (R152). -/
def takeHoldNotices (s : State) : Ev × Answer := ((s.holdAll true).ev, .ok s.channelStates)

/-- HOLD_NOTICES (R152). -/
def execHoldNotices (tag : Nat) (s : State) : Host.Outcome State Fault Refusal :=
  .next (serve (.holdNotices tag) takeHoldNotices s)

/-- RELEASE_NOTICES (R152). -/
def takeReleaseNotices (s : State) : Ev × Answer := ((s.holdAll false).ev, .ok s.channelStates)

/-- RELEASE_NOTICES (R152). -/
def execReleaseNotices (tag : Nat) (s : State) : Host.Outcome State Fault Refusal :=
  .next (serve (.releaseNotices tag) takeReleaseNotices s)

/-- DISCARD_NOTICE (R152). -/
def takeDiscardNotice (channel : Nat) (s : State) : Ev × Answer :=
  judged s [(1, channel < 3)] <|
    match (s.notice channel).state with
    | .pending => (s.ev.map fun t => t.updNotice channel fun c => { c with state := .idle, list := {} }, .ok [])
    | .idle => answerOnly s []
    | .outstanding => (s.ev, .refuse .wrongState)

/-- DISCARD_NOTICE (R152). -/
def execDiscardNotice (tag channel : Nat) (s : State) : Host.Outcome State Fault Refusal :=
  .next (serve (.discardNotice tag channel) (takeDiscardNotice channel) s)

/-- TEST_NOTICE (R152). -/
def takeTestNotice (channel : Nat) (s : State) : Ev × Answer :=
  judged s [(1, channel < 3)] (s.ev.map fun t => t.joinNotice channel .test 0, .ok [])

/-- TEST_NOTICE (R152). -/
def execTestNotice (tag channel : Nat) (s : State) : Host.Outcome State Fault Refusal :=
  .next (serve (.testNotice tag channel) (takeTestNotice channel) s)

/-- READ_NOTICE_STATE (R153, R187): every channel's state and held field, then one channel's two lists. -/
def takeReadNoticeState (channel : Option Nat) (s : State) : Ev × Answer :=
  let c := channel.getD 0
  judged s [(1, c < 3)] <|
    answerOnly s ((s.wnu.channels.flatMap fun x => [b1 x.state.code, yn x.held]) ++ (s.notice c).list.fields ++
      (s.notice c).late.fields)

/-- READ_NOTICE_STATE (R153). -/
def execReadNoticeState (tag : Nat) (channel : Option Nat) (s : State) : Host.Outcome State Fault Refusal :=
  .next (serve (.readNoticeState tag channel) (takeReadNoticeState channel) s)

/-! ### Event -/

/-- AWAIT_FLAGS_TIMEOUT (R148). -/
def execAwaitFlagsTimeout (arrival : Nat) (s : State) : Host.Outcome State Fault Refusal :=
  .next (onLink (·.awaitTimeout arrival) s)

end Sys2Proof.Machine
end

