-- ==== Sys2Proof/Machine/TripCommands.lean ====
section
/-! DEFINITION. The commands of the Trip Unit (8.3): CLEAR_TRIP, READ_TRIP, and the ESD input. -/

namespace Sys2Proof.Machine

/-- The first condition of the table of R159 that fails, as 11.1 names it. -/
def State.cannotClear (s : State) : Option Detail :=
  if s.tru.esd then some ⟨.condition, 1⟩
  else if s.headerChannel.any fun ch => (s.chan ch).quality == .lost then some ⟨.condition, 2⟩
  else if s.tru.headerAbove then some ⟨.condition, 3⟩
  else match (List.range 8).find? fun c =>
      (s.cavDef c).isSome && (s.cav c).state != .outOfService && (s.cav c).envelope != .inside with
    | some c => some ⟨.cavern, c⟩
    | none => ((List.range 6).find? fun u => (s.unit u).state == .stopping).map fun u => ⟨.unit, u⟩

/-- The current record is acknowledged, the station NORMAL, the cascade count 0 (R159). -/
def State.clearTrip (s : State) : State :=
  { s with tru :=
      { s.tru with
        tripped := false, cascade := 0
        current := s.tru.current.map fun r => { r with acknowledged := true } } }

/-- Station trip state in a reply: NORMAL 0, TRIPPED 1. -/
def State.tripCode (s : State) : Nat := if s.tru.tripped then 1 else 0

/-- The reply of CLEAR_TRIP (R159). -/
def State.clearReply (s : State) : List Fld :=
  [b1 s.tripCode, yn (s.tru.current.any TripRecord.acknowledged), b1 s.tru.cascade]

/-- CLEAR_TRIP (R159). -/
def takeClearTrip (s : State) : Ev × Answer :=
  refuseIf s s.tru.current.isNone (.refuse .noSuch) <|
    match (if s.tru.tripped then s.cannotClear else none) with
    | some d => (s.ev, .no .wrongState d)
    | none => (s.clearTrip.ev, .ok s.clearTrip.clearReply)

/-- CLEAR_TRIP (R159). -/
def execClearTrip (tag : Nat) (s : State) : Host.Outcome State Fault Refusal :=
  .next (serve (.clearTrip tag) takeClearTrip s)

/-- Bytes of nibbles, two codes to a byte, the first high (R185). -/
def nibbleFields : List Nat → List Fld
  | a :: b :: rest => nibbles a b :: nibbleFields rest
  | [a] => [nibbles a 0]
  | [] => []

/-- A cavern in a trip record (11.3); 0 in every field of an absent one (R186). -/
def tripCavernFields : Option (CavernState × Int × Quality × Int) → List Fld
  | some (st, v, q, sp) => [nibbles st.code q.code, ⟨2, v⟩, i4 sp]
  | none => [nibbles 0 0, b2 0, i4 0]

/-- A trip record (11.3). The seconds of a second failure are taken modulo 2³² and capped at 65,535 (the model's choice,
log entry 44). -/
def TripRecord.fields (r : TripRecord) : List Fld :=
  let p := r.snapshot
  [b2 r.code, optU 1 r.scope, clk4 r.clock, optU 1 (r.watch.map Prod.fst), optU 2 (r.watch.map Prod.snd),
    yn r.acknowledged, nibbles (if p.tripped then 1 else 0) (if p.active then 1 else 0), i4 p.setpoint] ++
  p.caverns.flatMap tripCavernFields ++ nibbleFields (p.units.map fun u => (u.map UnitState.code).getD 0) ++
  nibbleFields (p.trains.map TrainState.code) ++
  [i4 p.soFar, i8 p.balance, b1 r.secondFailures.length] ++
  r.secondFailures.flatMap fun (c, t) => [b1 c, b2 (min (t - r.clock).toNat 65535)]

/-- The reply of READ_TRIP (11.3); ASSERTED is the first of the two ESD levels (R185). -/
def State.tripFields (s : State) : List Fld :=
  let t := s.tru
  [b1 s.tripCode, b1 (if t.esd then 0 else 1), b1 (if t.headerAbove then 1 else 0), b1 t.cascade,
    b1 ((if t.current.isSome then 1 else 0) + if t.prior.isSome then 2 else 0)] ++
  (t.current.map TripRecord.fields).getD [] ++ (t.prior.map TripRecord.fields).getD []

/-- READ_TRIP (R160). -/
def takeReadTrip (s : State) : Ev × Answer := answerOnly s s.tripFields

/-- READ_TRIP (R160). -/
def execReadTrip (tag : Nat) (s : State) : Host.Outcome State Fault Refusal :=
  .next (serve (.readTrip tag) takeReadTrip s)

/-- A new level of the ESD input: ASSERTED launches a station trip (R154). -/
def esdChanged (ev : Ev) : Ev := if ev.s.tru.esd then ev.launch { code := 0x010 } else ev

/-- ESD_INPUT_CHANGE (R154). -/
def execEsdInputChange (asserted : Bool) (s : State) : Host.Outcome State Fault Refusal :=
  .next (inputChange (s.tru.esd != asserted) (fun t => { t with tru := { t.tru with esd := asserted } }) esdChanged s)

end Sys2Proof.Machine
end

