-- ==== Sys2Proof/Machine/StoreCommands.lean ====
section
/-! DEFINITION. The commands of operating profiles and start-up (09): the PST's requests, its deadlines and commits, and
supply, reset and start. -/

namespace Sys2Proof.Machine

/-! ### WRITE_PROFILE (R164, R165, R168) -/

/-- The staging record is emptied, or takes a value. -/
def State.setStaging (s : State) (x : Option Staging) : State := { s with pst := { s.pst with staging := x } }

/-- The staging record with a segment's bytes; none where the segment is not the one expected (R164). -/
def Staging.extend (old : Option Staging) (g : Group) (segment : Nat) (bytes : List Byte) : Option Staging :=
  if segment = 0 then some { group := g, next := 1, bytes := bytes }
  else match old with
    | some x =>
      if x.group = g ∧ x.next = segment then some { x with next := segment + 1, bytes := x.bytes ++ bytes } else none
    | none => none

/-- A whole write is judged, and applied when nothing refuses it (R165, R168). -/
def completeWrite (g : Group) (bytes : List Byte) (s : State) : Ev × Answer :=
  match judgeWrite s g bytes with
  | some a => (s.ev, a)
  | none =>
    let ev := applyWrite g (parseFields g.specs bytes) s.ev
    (ev, .ok [b1 g.code, b1 CommitState.committing.code])

/-- A segment is taken (R164); the last-segment mark is bit 0 of its byte, whose other bits are ignored (R186; the bit
is log entry 11's choice). That the byte count of the reply takes two bytes is the model's choice (log entry 9). -/
def takeSegment (g : Group) (segment last : Nat) (contents : List Byte) (s : State) : Ev × Answer :=
  let empty := s.setStaging none
  match Staging.extend s.pst.staging g segment contents with
  | none => (empty.ev, .refuse .wrongState)
  | some x =>
    if g.size < x.bytes.length then (empty.ev, .refuse .badLength)
    else if last % 2 = 0 then ((s.setStaging (some x)).ev, .ok [b2 x.bytes.length])
    else completeWrite g x.bytes empty

/-- WRITE_PROFILE (R164). A bad group code or segment index is named by its place in the request's layout (log entry
11). -/
def takeWriteProfile (group segment last : Nat) (contents : List Byte) (s : State) : Ev × Answer :=
  match groupOfCode group with
  | none => (s.ev, .badField 1)
  | some g => judged s [(2, segment < 16)] (takeSegment g segment last contents s)

/-- WRITE_PROFILE (R164). -/
def execWriteProfile (tag group segment last : Nat) (contents : List Byte) (s : State) :
    Host.Outcome State Fault Refusal :=
  .next (serve (.writeProfile tag group segment last contents) (takeWriteProfile group segment last contents) s)

/-! ### READ_PROFILE (R171) -/

/-- The reply of READ_PROFILE: validity (VALID 0, INVALID 1), commit state, length, segment, contents. That the length
takes two bytes is the model's choice (log entry 9). -/
def State.profileFields (s : State) (g : Group) (segment : Nat) : List Fld :=
  [b1 (if s.groupValid g then 0 else 1), optU 1 ((s.groupCommit g).map CommitState.code), b2 g.size, b1 segment] ++
  ((((s.groupBytes g).getD []).drop (segment * 224)).take 224).map fun b => b1 b.toNat

/-- READ_PROFILE (R171). -/
def takeReadProfile (group segment : Nat) (s : State) : Ev × Answer :=
  match groupOfCode group with
  | none => (s.ev, .badField 1)
  | some g => judged s [(2, segment * 224 < g.size)] (answerOnly s (s.profileFields g segment))

/-- READ_PROFILE (R171). -/
def execReadProfile (tag group segment : Nat) (s : State) : Host.Outcome State Fault Refusal :=
  .next (serve (.readProfile tag group segment) (takeReadProfile group segment) s)

/-! ### Events of the store -/

/-- COMMIT_COMPLETE (R170). -/
def execCommitComplete (verified : Bool) (s : State) : Host.Outcome State Fault Refusal :=
  .next (occurs (fun t => t.pst.writing.isSome)
    (fun ev => match ev.s.pst.writing with
      | some g => commitDone g verified ev
      | none => ev) s)

/-- PROFILE_TO_PROFILE_EXPIRY (R169). -/
def execProfileToProfileExpiry (s : State) : Host.Outcome State Fault Refusal :=
  .next (occurs (fun t => due t.clock t.pst.profile)
    (fun ev => ev.map fun t => { t with pst := { t.pst with profile := none } }) s)

/-- SETTLE_EXPIRY (R169). -/
def execSettleExpiry (s : State) : Host.Outcome State Fault Refusal :=
  .next (occurs (fun t => due t.clock t.pst.settle)
    (fun ev => ev.map fun t => { t with pst := { t.pst with settle := none } }) s)

/-! ### Supply, reset and start (R172 to R175) -/

/-- MAIN_SUPPLY_UP (R172): a power-up start begins, or waits for the reset input (log entry 6). -/
def execMainSupplyUp (s : State) : Host.Outcome State Fault Refusal :=
  .next (if s.phase = .off then
    (if s.resetInput then { s with phase := .held true } else beginStart true s) else s)

/-- MAIN_SUPPLY_LOST (R172). -/
def execMainSupplyLost (s : State) : Host.Outcome State Fault Refusal := .next { s with phase := .off }

/-- BACKUP_SUPPLY_LOST (R174): without main supply the domain's mark is lost; with it the mark is formed anew with every
event. -/
def execBackupSupplyLost (s : State) : Host.Outcome State Fault Refusal :=
  .next (if s.phase = .off then { s with pst := { s.pst with mark := false } } else s)

/-- The phase that an assertion of the reset input leaves (R172). -/
def Phase.reset : Phase → Phase
  | .off => .off
  | .held p => .held p
  | .starting p => .held p
  | .running => .held false

/-- RESET_INPUT_ASSERTED (R172). -/
def execResetInputAsserted (s : State) : Host.Outcome State Fault Refusal :=
  .next { s with resetInput := true, phase := s.phase.reset }

/-- RESET_INPUT_RELEASED (R172): the start begins. -/
def execResetInputReleased (s : State) : Host.Outcome State Fault Refusal :=
  let t : State := { s with resetInput := false }
  .next (match s.phase with
    | .held p => if s.resetInput then beginStart p t else t
    | .off | .starting _ | .running => t)

/-- START_COMPLETE (R175). -/
def execStartComplete (s : State) : Host.Outcome State Fault Refusal :=
  .next (match s.phase with
    | .starting _ => completeStart s
    | .off | .held _ | .running => s)

end Sys2Proof.Machine
end

