-- ==== Sys2Proof/Machine/LinkCommands.lean ====
section
/-! DEFINITION. The commands of the station link (10): IDENTIFY, RESET_CONTROLLER, and what happens on the line. -/

namespace Sys2Proof.Machine

/-- A group in the reply of IDENTIFY (R182). -/
def State.groupReply (s : State) (g : Group) : List Fld :=
  [b1 (if s.groupValid g then 0 else 1), optU 1 ((s.groupCommit g).map CommitState.code)]

/-- The reply of IDENTIFY (R182); part code and revision number in two bytes each (log entry 9). -/
def State.identity (s : State) : List Fld :=
  [b2 Config.partCode, b2 Config.revision, b1 s.pst.startKind.code, b1 (if s.acb.loaded then 1 else 0),
    b1 s.clockStateCode, b1 s.tripCode] ++
  s.groupReply .site ++ s.groupReply .caverns ++ s.groupReply .plant ++ [b1 s.slu.rate, b1 s.slu.queue.length]

/-- IDENTIFY (R182). -/
def takeIdentify (s : State) : Ev × Answer := answerOnly s s.identity

/-- IDENTIFY (R182). -/
def execIdentify (tag : Nat) (s : State) : Host.Outcome State Fault Refusal :=
  .next (serve (.identify tag) takeIdentify s)

/-- RESET_CONTROLLER (R183). -/
def takeResetController (s : State) : Ev × Answer :=
  (s.ev.map fun t => { t with slu := { t.slu with resetPending := true } }, .ok [])

/-- RESET_CONTROLLER (R183). -/
def execResetController (tag : Nat) (s : State) : Host.Outcome State Fault Refusal :=
  .next (serve (.resetController tag) takeResetController s)

/-- BYTE_RECEIVED (R177). -/
def execByteReceived (byte : Byte) (s : State) : Host.Outcome State Fault Refusal :=
  .next (onLink (·.receiveByte byte) s)

/-- FRAME_RECEIVED (R177, R178). -/
def execFrameReceived (s : State) : Host.Outcome State Fault Refusal := .next (onLink State.receiveFrame s)

/-- FRAME_GAP_TIMEOUT (R177). -/
def execFrameGapTimeout (s : State) : Host.Outcome State Fault Refusal := .next (onLink State.gapTimeout s)

/-- FRAMING_ERROR (R176, R177): the frame being gathered is discarded; one that is complete has been received. -/
def execFramingError (s : State) : Host.Outcome State Fault Refusal := .next (onLink (·.receiveFrame.hunt) s)

/-- REPLY_GRANT (R181). -/
def execReplyGrant (s : State) : Host.Outcome State Fault Refusal := .next (onLink State.grantReply s)

/-- NOTICE_SENT (R150, R181). -/
def execNoticeSent (s : State) : Host.Outcome State Fault Refusal := .next (onLink State.sendNotice s)

/-- TELEGRAM_COMPLETE (R181, R183). -/
def execTelegramComplete (s : State) : Host.Outcome State Fault Refusal := .next (onLink State.endTelegram s)

end Sys2Proof.Machine
end

