-- ==== Sys2Proof/Machine/Dispatch.lean ====
section
/-! DEFINITION. The effect of every command on everything but the queue of pending commands: one arm for each
constructor, each one call of its meaning. -/

namespace Sys2Proof.Machine

def exec (i : Instr) (s : State) : Host.Outcome State Fault Refusal :=
  match i with
  | .readChannel tag channel => Sys2Proof.Machine.execReadChannel tag channel s
  | .loopCheckBegin tag channel current => Sys2Proof.Machine.execLoopCheckBegin tag channel current s
  | .loopCheckEnd tag channel => Sys2Proof.Machine.execLoopCheckEnd tag channel s
  | .readMeter tag run => Sys2Proof.Machine.execReadMeter tag run s
  | .setGasQuality tag run cv => Sys2Proof.Machine.execSetGasQuality tag run cv s
  | .setClock tag value => Sys2Proof.Machine.execSetClock tag value s
  | .cavernServiceIn tag cavern => Sys2Proof.Machine.execCavernServiceIn tag cavern s
  | .cavernServiceOut tag cavern dir => Sys2Proof.Machine.execCavernServiceOut tag cavern dir s
  | .cavernEnable tag cavern => Sys2Proof.Machine.execCavernEnable tag cavern s
  | .cavernShut tag cavern => Sys2Proof.Machine.execCavernShut tag cavern s
  | .setMeritOrder tag dir caverns => Sys2Proof.Machine.execSetMeritOrder tag dir caverns s
  | .readMeritOrder tag dir => Sys2Proof.Machine.execReadMeritOrder tag dir s
  | .readCavern tag cavern => Sys2Proof.Machine.execReadCavern tag cavern s
  | .unitMaintenance tag unit => Sys2Proof.Machine.execUnitMaintenance tag unit s
  | .unitAvailable tag unit => Sys2Proof.Machine.execUnitAvailable tag unit s
  | .resetLockout tag unit => Sys2Proof.Machine.execResetLockout tag unit s
  | .setDuty tag unit duty => Sys2Proof.Machine.execSetDuty tag unit duty s
  | .setDutyOrder tag duty units => Sys2Proof.Machine.execSetDutyOrder tag duty units s
  | .readUnit tag unit => Sys2Proof.Machine.execReadUnit tag unit s
  | .readDuty tag => Sys2Proof.Machine.execReadDuty tag s
  | .trainOnline tag train => Sys2Proof.Machine.execTrainOnline tag train s
  | .trainOffline tag train => Sys2Proof.Machine.execTrainOffline tag train s
  | .forceSwitchover tag train => Sys2Proof.Machine.execForceSwitchover tag train s
  | .resetTower tag train tower => Sys2Proof.Machine.execResetTower tag train tower s
  | .readTrain tag train => Sys2Proof.Machine.execReadTrain tag train s
  | .accountsReady tag => Sys2Proof.Machine.execAccountsReady tag s
  | .openAccount tag account code cls space rin rwd => Sys2Proof.Machine.execOpenAccount tag account code cls space rin rwd s
  | .loadInventory tag account inventory => Sys2Proof.Machine.execLoadInventory tag account inventory s
  | .suspendAccount tag account => Sys2Proof.Machine.execSuspendAccount tag account s
  | .resumeAccount tag account => Sys2Proof.Machine.execResumeAccount tag account s
  | .closeAccount tag account => Sys2Proof.Machine.execCloseAccount tag account s
  | .setRights tag account space rin rwd => Sys2Proof.Machine.execSetRights tag account space rin rwd s
  | .transfer tag source dest quantity => Sys2Proof.Machine.execTransfer tag source dest quantity s
  | .nominate tag account slot n => Sys2Proof.Machine.execNominate tag account slot n s
  | .declareCapacity tag slot inj wd => Sys2Proof.Machine.execDeclareCapacity tag slot inj wd s
  | .readCapacity tag first count => Sys2Proof.Machine.execReadCapacity tag first count s
  | .readChanged tag => Sys2Proof.Machine.execReadChanged tag s
  | .readAccount tag account => Sys2Proof.Machine.execReadAccount tag account s
  | .readBook tag account first count => Sys2Proof.Machine.execReadBook tag account first count s
  | .dispatchEnable tag => Sys2Proof.Machine.execDispatchEnable tag s
  | .dispatchHold tag => Sys2Proof.Machine.execDispatchHold tag s
  | .readPlan tag => Sys2Proof.Machine.execReadPlan tag s
  | .obaAdjust tag account quantity => Sys2Proof.Machine.execObaAdjust tag account quantity s
  | .readOba tag => Sys2Proof.Machine.execReadOba tag s
  | .readPeriod tag number position => Sys2Proof.Machine.execReadPeriod tag number position s
  | .setWatch tag watch sourceKind sourceIndex event filter condition threshold hysteresis channel action hostCode mode => Sys2Proof.Machine.execSetWatch tag watch sourceKind sourceIndex event filter condition threshold hysteresis channel action hostCode mode s
  | .clearWatch tag watch => Sys2Proof.Machine.execClearWatch tag watch s
  | .readWatches tag => Sys2Proof.Machine.execReadWatches tag s
  | .readWatch tag watch => Sys2Proof.Machine.execReadWatch tag watch s
  | .awaitFlags tag mask timeout => Sys2Proof.Machine.execAwaitFlags tag mask timeout s
  | .ackNotice tag channel rearm => Sys2Proof.Machine.execAckNotice tag channel rearm s
  | .holdNotices tag => Sys2Proof.Machine.execHoldNotices tag s
  | .releaseNotices tag => Sys2Proof.Machine.execReleaseNotices tag s
  | .discardNotice tag channel => Sys2Proof.Machine.execDiscardNotice tag channel s
  | .testNotice tag channel => Sys2Proof.Machine.execTestNotice tag channel s
  | .readNoticeState tag channel => Sys2Proof.Machine.execReadNoticeState tag channel s
  | .clearTrip tag => Sys2Proof.Machine.execClearTrip tag s
  | .readTrip tag => Sys2Proof.Machine.execReadTrip tag s
  | .writeProfile tag group segment last contents => Sys2Proof.Machine.execWriteProfile tag group segment last contents s
  | .readProfile tag group segment => Sys2Proof.Machine.execReadProfile tag group segment s
  | .identify tag => Sys2Proof.Machine.execIdentify tag s
  | .resetController tag => Sys2Proof.Machine.execResetController tag s
  | .frameReceived => Sys2Proof.Machine.execFrameReceived s
  | .frameGapTimeout => Sys2Proof.Machine.execFrameGapTimeout s
  | .framingError => Sys2Proof.Machine.execFramingError s
  | .replyGrant => Sys2Proof.Machine.execReplyGrant s
  | .noticeSent => Sys2Proof.Machine.execNoticeSent s
  | .telegramComplete => Sys2Proof.Machine.execTelegramComplete s
  | .mainSupplyUp => Sys2Proof.Machine.execMainSupplyUp s
  | .mainSupplyLost => Sys2Proof.Machine.execMainSupplyLost s
  | .resetInputAsserted => Sys2Proof.Machine.execResetInputAsserted s
  | .resetInputReleased => Sys2Proof.Machine.execResetInputReleased s
  | .startComplete => Sys2Proof.Machine.execStartComplete s
  | .channelReading channel current => Sys2Proof.Machine.execChannelReading channel current s
  | .holdExpiry channel => Sys2Proof.Machine.execHoldExpiry channel s
  | .recalibrationBegin => Sys2Proof.Machine.execRecalibrationBegin s
  | .recalibrationComplete => Sys2Proof.Machine.execRecalibrationComplete s
  | .meterPulse run => Sys2Proof.Machine.execMeterPulse run s
  | .zeroFlowExpiry run => Sys2Proof.Machine.execZeroFlowExpiry run s
  | .clockSecond => Sys2Proof.Machine.execClockSecond s
  | .crystalStop => Sys2Proof.Machine.execCrystalStop s
  | .crystalResume => Sys2Proof.Machine.execCrystalResume s
  | .periodBoundary rotateFirst => Sys2Proof.Machine.execPeriodBoundary rotateFirst s
  | .closeComplete => Sys2Proof.Machine.execCloseComplete s
  | .valveLimitChange cavern openMade closedMade => Sys2Proof.Machine.execValveLimitChange cavern openMade closedMade s
  | .travelDeadlineExpiry cavern => Sys2Proof.Machine.execTravelDeadlineExpiry cavern s
  | .dwellExpiry cavern => Sys2Proof.Machine.execDwellExpiry cavern s
  | .dispatchIntervalExpiry => Sys2Proof.Machine.execDispatchIntervalExpiry s
  | .startPendingExpiry duty => Sys2Proof.Machine.execStartPendingExpiry duty s
  | .stopPendingExpiry duty => Sys2Proof.Machine.execStopPendingExpiry duty s
  | .minimumRunExpiry unit => Sys2Proof.Machine.execMinimumRunExpiry unit s
  | .unitRunningInputChange unit present => Sys2Proof.Machine.execUnitRunningInputChange unit present s
  | .startDeadlineExpiry unit => Sys2Proof.Machine.execStartDeadlineExpiry unit s
  | .stopDeadlineExpiry unit => Sys2Proof.Machine.execStopDeadlineExpiry unit s
  | .restDeadlineExpiry unit => Sys2Proof.Machine.execRestDeadlineExpiry unit s
  | .startHistoryAgeOut unit => Sys2Proof.Machine.execStartHistoryAgeOut unit s
  | .towerFeedbackChange train tower made => Sys2Proof.Machine.execTowerFeedbackChange train tower made s
  | .switchDeadlineExpiry train => Sys2Proof.Machine.execSwitchDeadlineExpiry train s
  | .towerStepExpiry train tower => Sys2Proof.Machine.execTowerStepExpiry train tower s
  | .offSpecExpiry train => Sys2Proof.Machine.execOffSpecExpiry train s
  | .esdInputChange asserted => Sys2Proof.Machine.execEsdInputChange asserted s
  | .awaitFlagsTimeout arrival => Sys2Proof.Machine.execAwaitFlagsTimeout arrival s
  | .commitComplete verified => Sys2Proof.Machine.execCommitComplete verified s
  | .profileToProfileExpiry => Sys2Proof.Machine.execProfileToProfileExpiry s
  | .settleExpiry => Sys2Proof.Machine.execSettleExpiry s
  | .byteReceived byte => Sys2Proof.Machine.execByteReceived byte s
  | .backupSupplyLost => Sys2Proof.Machine.execBackupSupplyLost s

end Sys2Proof.Machine
end

