-- ==== Sys2Proof/Machine/Step.lean ====
section
/-! DEFINITION. One step: the command at the front of the queue, or an idle millisecond on an empty queue. -/

namespace Sys2Proof.Machine

/-- An idle step: a millisecond passes, within the second the clock is in; the count goes on to the next second with
CLOCK_SECOND (log entry 4). -/
def State.idle (s : State) : State :=
  if s.mu.ms % 1000 = 999 then s else { s with mu := { s.mu with ms := s.mu.ms + 1 } }

/-- One step: take the command at the front of the queue, with the queue's rest; an empty queue idles. -/
def step (s : State) : Host.Outcome State Fault Refusal :=
  match s.pending with
  | c :: rest => exec c { s with pending := rest }
  | [] => .next s.idle

/-- The command that a word spells, put at the front of the queue; the state unchanged where it spells none. -/
def State.withFetchWord (s : State) (nbits w : Nat) : State :=
  match decodeTableWord nbits w with
  | some c => { s with pending := c :: s.pending }
  | none => s

end Sys2Proof.Machine
end

