-- ==== Sys2Proof/Safety.lean ====
section
/-! DEFINITION. What statements about the part speak of: when a request is taken, what its answer leaves, what
a written group may not hold, and the laws that every step keeps. -/

namespace Sys2Proof.Machine

/-! ### The taking of a request (R178 to R180) -/

/-- The state in which a request stands in the queue: the state itself when an IN_TURN entry that carries it has its
turn, otherwise the state after its arrival (log entry 3). -/
def State.arrived (s : State) (c : Instr) : State :=
  if (s.findEntry c).isSome then s else s.enqueue c (c.kind.getD 0)

/-- The request `c` is taken now, from the entry `e`: the part runs, no reset is pending, the body has a length its kind
allows, and the entry's turn has come with no close holding it back (R172, R178, R179, R183, R124). -/
def takes (c : Instr) (s : State) (e : QEntry) : Bool :=
  s.phase == .running && !s.slu.resetPending && lengthAllowed (c.kind.getD 0) c.body.length &&
    (s.arrived c).findEntry c == some e && (s.arrived c).inTurn e && !(s.arrived c).heldByClose e

/-- What the taking of an entry leaves when its event is `ev`: the event's end, what the link notes of it, and then the
reply, behind those of the AWAIT_FLAGS that the event answers (the model's choice, log entry 45). -/
def State.answered (s : State) (e : QEntry) (ev : Ev) (body : List Fld) : State :=
  (s.noteTaking ev.finish e.arrival).formReply e .ok {} body

/-- The request is done: the event that it is, to its end, and the reply OK with a body formed from the state the event
itself leaves, before its launches and its re-step (R180, R108, R156). -/
def completes (c : Instr) (s : State) (e : QEntry) (f : State → Ev) (body : State → List Fld) : Prop :=
  exec c s = .next ((s.arrived c).answered e (f (s.arrived c)) (body (f (s.arrived c)).s))

/-- The request is answered OK and nothing changes but the queue entry and the reply order. -/
def tells (c : Instr) (s : State) (e : QEntry) (body : State → List Fld) : Prop :=
  exec c s = .next ((s.arrived c).formReply e .ok {} (body (s.arrived c)))

/-- The request is refused and nothing changes but the queue entry and the reply order (R180). -/
def refuses (c : Instr) (s : State) (e : QEntry) (st : Status) (d : Detail) : Prop :=
  exec c s = .next ((s.arrived c).formReply e st d [])

/-! ### Events -/

/-- The event takes place: what it does, then the launches and the re-step it brings (R108, R156). -/
def happens (c : Instr) (s : State) (f : State → Ev) : Prop := exec c s = .next (f s).finish

end Sys2Proof.Machine

namespace Sys2Proof

/-! ### Families, for the statements of what a command leaves alone -/

/-- The commands of caverns, units, planner and trips, which leave measurement, trains, book, settlement and profiles
alone. -/
def Instr.flowOnly : Instr → Bool
  | .cavernServiceIn .. | .cavernServiceOut .. | .cavernEnable .. | .cavernShut .. | .setMeritOrder ..
  | .readMeritOrder .. | .readCavern .. | .unitMaintenance .. | .unitAvailable .. | .resetLockout .. | .setDuty ..
  | .setDutyOrder .. | .readUnit .. | .readDuty .. | .dispatchEnable .. | .dispatchHold .. | .readPlan ..
  | .clearTrip .. | .readTrip .. | .valveLimitChange .. | .travelDeadlineExpiry .. | .dwellExpiry ..
  | .dispatchIntervalExpiry | .startPendingExpiry .. | .stopPendingExpiry .. | .minimumRunExpiry ..
  | .unitRunningInputChange .. | .startDeadlineExpiry .. | .stopDeadlineExpiry .. | .restDeadlineExpiry ..
  | .startHistoryAgeOut .. | .esdInputChange .. => true
  | _ => false

/-- The commands of measurement and trains, which leave book, settlement and profiles alone; SET_CLOCK, the clock's
second and the period boundary are not among them. -/
def Instr.gasOnly : Instr → Bool
  | .readChannel .. | .loopCheckBegin .. | .loopCheckEnd .. | .readMeter .. | .setGasQuality .. | .channelReading ..
  | .holdExpiry .. | .recalibrationBegin | .recalibrationComplete | .meterPulse .. | .zeroFlowExpiry ..
  | .crystalStop | .crystalResume | .trainOnline .. | .trainOffline .. | .forceSwitchover .. | .resetTower ..
  | .readTrain .. | .towerFeedbackChange .. | .switchDeadlineExpiry .. | .towerStepExpiry .. | .offSpecExpiry .. => true
  | _ => false

/-- The requests on the account book and its settlement adjustment. -/
def Instr.bookOnly : Instr → Bool
  | .accountsReady .. | .openAccount .. | .loadInventory .. | .suspendAccount .. | .resumeAccount .. | .closeAccount ..
  | .setRights .. | .transfer .. | .nominate .. | .declareCapacity .. | .readCapacity .. | .readChanged ..
  | .readAccount .. | .readBook .. | .obaAdjust .. | .readOba .. | .readPeriod .. => true
  | _ => false

/-- The requests on watches and notices, and the timeout of a wait for flags. -/
def Instr.watchOnly : Instr → Bool
  | .setWatch .. | .clearWatch .. | .readWatches .. | .readWatch .. | .awaitFlags .. | .ackNotice .. | .holdNotices ..
  | .releaseNotices .. | .discardNotice .. | .testNotice .. | .readNoticeState .. | .awaitFlagsTimeout .. => true
  | _ => false

/-- What happens on the line, but for the end of a telegram and the grant to a notice. -/
def Instr.lineOnly : Instr → Bool
  | .byteReceived .. | .frameReceived | .frameGapTimeout | .framingError | .replyGrant | .identify ..
  | .resetController .. => true
  | _ => false

end Sys2Proof

namespace Sys2Proof.Machine

/-! ### What follows a change of a cavern's record -/

/-- A cavern's record once a change of it has been followed up: both permits recomputed, the setpoint cut to the permit
of its sign (R33), and the travel deadline by the supervision of the open and closed states (R23). -/
def Cavern.followed (s : State) (d : CavernDef) (r : Cavern) : Cavern :=
  { r with
    injPermit := d.injPermit r
    wdPermit := d.wdPermit r
    setpoint := if 0 < r.setpoint then min r.setpoint (d.injPermit r)
      else if r.setpoint < 0 then max r.setpoint (-(d.wdPermit r : Int))
      else 0
    travel :=
      if (r.state.isOpen = true ∧ r.position ≠ .opened) ∨ (r.state.isClosed = true ∧ r.position ≠ .closed) then
        r.travel.or (some (s.after d.travel))
      else if r.state.isOpen = true ∨ r.state.isClosed = true then none
      else r.travel }

/-! ### What a written group may not hold (9.1, R165, R166) -/

/-- The least number with a property; none where there is no such number. -/
def isLowest (p : Nat → Prop) (r : Option Nat) : Prop := ∀ k, r = some k ↔ p k ∧ ∀ j, j < k → ¬p j

/-- The values that 9.1, 2.1, 3.1 and 4.1 allow each field of a group, as intervals, in the order of ordinals; 255 is
none. -/
def Group.ranges : Group → List (List (Int × Int))
  | .site =>
    [[(0, 2)], [(100, 1000)], [(0, 23)], [(1, 4)], [(60, 900)], [(10, 300)], [(1, 60)], [(1, 30)], [(0, 1000000)],
      [(0, 100000000)], [(0, 99999999)], [(0, 99999999)]] ++
    List.replicate 16 [(0, 1000)] ++ [[(0, 15), (255, 255)], [(0, 25000)], [(0, 1)]] ++
    (List.replicate 16 [[(0, 3)], [(-99999999, 99999999)], [(-99999999, 99999999)], [(1, 600)]]).flatten ++
    (List.replicate 6 [[(0, 2)], [(1, 1), (10, 10), (100, 100)], [(0, 3), (255, 255)], [(2, 60)]]).flatten ++
    [[(1, 1), (10, 10), (100, 100)], [(2, 60)]]
  | .caverns =>
    (List.replicate 8
      [[(0, 1)], [(0, 15), (255, 255)], [(0, 25000)], [(0, 25000)], [(50, 2000)], [(0, 5000)], [(10, 5000)],
        [(1, 100000)], [(0, 99999999)], [(0, 99999999)], [(0, 25000)], [(60, 7200)], [(5, 300)]]).flatten
  | .plant =>
    (List.replicate 6
      [[(0, 1)], [(0, 10000000)], [(0, 1)], [(1, 6)], [(60, 7200)], [(60, 7200)], [(10, 600)], [(10, 600)], [(0, 600)],
        [(0, 3600)]]).flatten ++
    (List.replicate 4
      [[(0, 1)], [(0, 20000000)], [(1000, 2000000)], [(500, 990)], [(600, 43200)], [(300, 14400)],
        [(0, 15), (255, 255)], [(-10000, 5000)], [(50, 500)], [(10, 1800)], [(0, 15), (255, 255)],
        [(5, 120)]]).flatten ++
    (List.replicate 8 [[(-5000, 15000)], [(0, 5000)]]).flatten

/-- The field has no meaning in the group as written, so that it is not judged (R186; which fields these are is the
model's choice, log entry 14). -/
def Group.unjudged (g : Group) (v : List Int) (k : Nat) : Prop :=
  match g with
  | .site => (k = 30 ∧ num v 29 = 255) ∨ ∃ i, i < 6 ∧ num v (96 + 4 * i) = 2 ∧ (k = 97 + 4 * i ∨ k = 99 + 4 * i)
  | .caverns => ∃ c, c < 8 ∧ num v (1 + 13 * c) = 0 ∧ 1 + 13 * c < k ∧ k < 14 + 13 * c
  | .plant =>
    (∃ u, u < 6 ∧ num v (1 + 10 * u) = 0 ∧ 1 + 10 * u < k ∧ k < 11 + 10 * u) ∨
      ∃ t, t < 4 ∧ num v (61 + 12 * t) = 0 ∧ 61 + 12 * t < k ∧ k < 73 + 12 * t

/-- The field at an ordinal of a written group has a meaning and is out of its range. -/
def Group.outside (g : Group) (v : List Int) (k : Nat) : Prop :=
  1 ≤ k ∧ ¬g.unjudged v k ∧ ∃ l, g.ranges[k - 1]? = some l ∧ ∀ p ∈ l, ¬(p.1 ≤ num v k ∧ num v k ≤ p.2)

/-- The field at an ordinal of a written group names a channel that controls plant: the header, a present cavern's
pressure channel, a present train's dew-point or inlet channel. -/
def Group.names (g : Group) (v : List Int) (k ch : Nat) : Prop :=
  match g with
  | .site => k = 29 ∧ num v 29 ≠ 255 ∧ nat v 29 = ch
  | .caverns => ∃ c, c < 8 ∧ k = 2 + 13 * c ∧ num v (1 + 13 * c) ≠ 0 ∧ num v k ≠ 255 ∧ nat v k = ch
  | .plant => ∃ t, t < 4 ∧ (k = 67 + 12 * t ∨ k = 71 + 12 * t) ∧ num v (61 + 12 * t) ≠ 0 ∧ nat v k = ch

/-- A VALID group names a channel that controls plant; `r` is the role it needs there. -/
def State.liveNames (s : State) (g : Group) (ch : Nat) (r : Role) : Prop :=
  match g with
  | .site => s.headerChannel = some ch ∧ r = .pressure
  | .caverns =>
    r = .pressure ∧ ∃ l, s.pst.caverns.live = some l ∧ ∃ d, d ∈ l ∧ d.present = true ∧ d.channel = some ch
  | .plant =>
    ∃ p, s.pst.plant.live = some p ∧ ∃ d, d ∈ p.trains ∧ d.present = true ∧
      ((r = .dewpoint ∧ d.dewChannel = ch) ∨ (r = .temperature ∧ d.inletChannel = ch))

/-- A channel that the field at `k` names is named by another VALID group, or by an earlier field of the write. -/
def State.namedTwice (s : State) (g : Group) (v : List Int) (k ch : Nat) : Prop :=
  (∃ h r, h ≠ g ∧ s.liveNames h ch r) ∨ ∃ j, j < k ∧ g.names v j ch

/-- The channel has another role than `r` in a VALID SITE group. -/
def State.otherRole (s : State) (ch : Nat) (r : Role) : Prop := ∃ q, s.role ch = some q ∧ q ≠ r

/-- The field at an ordinal of a written group breaks a rule of R166. -/
def State.breaksRule (s : State) (g : Group) (v : List Int) (k : Nat) : Prop :=
  match g with
  | .site =>
    (k ∈ [15, 17, 19, 23, 25, 27] ∧ num v k ≤ num v (k - 2)) ∨
    (∃ i, i < 16 ∧ k = 34 + 4 * i ∧ num v k = num v (33 + 4 * i)) ∨
    (∃ i, i < 16 ∧ (k = 33 + 4 * i ∨ k = 34 + 4 * i) ∧ num v (32 + 4 * i) = 0 ∧
      ¬(0 ≤ num v k ∧ num v k ≤ 25000)) ∨
    (∃ i, i < 6 ∧ k = 98 + 4 * i ∧ num v k ≠ 255 ∧ num v (96 + 4 * i) ≠ 1) ∨
    (∃ ch, g.names v k ch ∧ (16 ≤ ch ∨ num v (32 + 4 * ch) ≠ 0 ∨ s.namedTwice g v k ch)) ∨
    (k = 3 ∧ s.acb.loaded = true ∧ nat v 3 ≠ s.startHour) ∨
    ∃ ch h r, ch < 16 ∧ k = 32 + 4 * ch ∧ h ≠ g ∧ s.liveNames h ch r ∧ num v k ≠ r.code
  | .caverns =>
    (∃ c, c < 8 ∧ k = 4 + 13 * c ∧ num v (1 + 13 * c) ≠ 0 ∧ nat v k ≤ nat v (k - 1)) ∨
    ∃ ch, g.names v k ch ∧ (s.otherRole ch .pressure ∨ s.namedTwice g v k ch)
  | .plant =>
    (∃ u, u < 6 ∧ k = 4 + 10 * u ∧ num v (1 + 10 * u) ≠ 0 ∧ nat v k < (s.unit u).history.length) ∨
    (∃ ch, g.names v k ch ∧
      (ch = 255 ∨ s.otherRole ch (if k % 12 = 7 then .dewpoint else .temperature) ∨ s.namedTwice g v k ch)) ∨
    (k ∈ [111, 113, 115, 117, 119, 121, 123] ∧ num v k ≤ num v (k - 2))

/-! ### Laws of the records -/

/-- The law of a cavern's setpoint and command (2.2, R34): a positive setpoint only while INJECTING and at most the
injection permit, a negative one only while WITHDRAWING and at most the withdrawal permit; a permit only in the states
that flow, with a pressure that is not LOST; the open command just in OPENING and the open states. -/
def Cavern.lawful (r : Cavern) : Prop :=
  (0 < r.setpoint → r.state = .injecting ∧ r.setpoint ≤ r.injPermit) ∧
  (r.setpoint < 0 → r.state = .withdrawing ∧ -r.setpoint ≤ r.wdPermit) ∧
  (0 < r.injPermit ∨ 0 < r.wdPermit → r.state.flows ∧ r.quality ≠ .lost) ∧
  (r.command = .driveOpen ↔ r.state = .opening ∨ r.state.isOpen)

/-- The law of a unit's command (3.2): RUN just in STARTING and RUNNING. -/
def CompUnit.lawful (r : CompUnit) : Prop := r.command = .run ↔ r.state.counts

/-- The law of a tower in STANDBY (R62): loading and residue zero. -/
def Tower.lawful (w : Tower) : Prop := w.state = .standby → w.loading = 0 ∧ w.residue = 0

/-- The law of a notice list (8.2, R149): at most 8 entries, no two of one source. -/
def NoticeList.lawful (l : NoticeList) : Prop := l.entries.length ≤ 8 ∧ (l.entries.map NoticeEntry.source).Nodup

/-- The law of a notification channel (8.2, R149): lawful lists, both empty in IDLE, the late one in PENDING. -/
def NoticeChannel.lawful (c : NoticeChannel) : Prop :=
  c.list.lawful ∧ c.late.lawful ∧ (c.state = .idle → c.list = {}) ∧ (c.state ≠ .outstanding → c.late = {})

/-! ### Laws of the part -/

/-- Every table of records has the size the part gives it: 16 channels, 7 runs, 8 caverns, 6 units, 4 trains, 32
accounts, 48 capacity slots, 24 watches, 3 notification channels. -/
def SizeLaw (s : State) : Prop :=
  s.mu.channels.length = 16 ∧ s.mu.runs.length = 7 ∧ s.cvc.caverns.length = 8 ∧ s.cdm.units.length = 6 ∧
  s.dtc.trains.length = 4 ∧ s.acb.accounts.length = 32 ∧ s.acb.caps.length = 48 ∧ s.wnu.watches.length = 24 ∧
  s.wnu.channels.length = 3

/-- Every cavern keeps the law of its setpoint and command. -/
def CavernLaw (s : State) : Prop := ∀ r ∈ s.cvc.caverns, r.lawful

/-- Every unit keeps the law of its command. -/
def UnitLaw (s : State) : Prop := ∀ r ∈ s.cdm.units, r.lawful

/-- Every tower keeps the law of STANDBY. -/
def TowerLaw (s : State) : Prop := ∀ t ∈ s.dtc.trains, t.towerA.lawful ∧ t.towerB.lawful

/-- Every notification channel keeps its law. -/
def NoticeLaw (s : State) : Prop := ∀ c ∈ s.wnu.channels, c.lawful

/-- While the station is TRIPPED the planner is HELD (R156). -/
def TripLaw (s : State) : Prop := s.tru.tripped = true → s.fpl.active = false

/-- The request queue holds at most 4 entries, in rising arrival order, each earlier than the next to arrive (10.3,
R178). -/
def QueueLaw (s : State) : Prop :=
  s.slu.queue.length ≤ 4 ∧ (s.slu.queue.map QEntry.arrival).Pairwise (· < ·) ∧
    ∀ e ∈ s.slu.queue, e.arrival < s.slu.arrivals

end Sys2Proof.Machine
end

