-- ==== Sys2Proof/Certificates/Slice0/Obligations.lean ====
section
/-! DEFINITION. The statements for the provers. A request is spoken of as taken (`takes`), done (`completes`, `tells`)
or refused (`refuses`), an event as taking place (`happens`); Safety.lean says what each means. Where a done request's
own event answers waiting AWAIT_FLAGS, its reply is formed behind theirs: the model's choice (log entry 45). -/

open Sys2Proof Sys2Proof.Machine

/-! ### The queue of commands, and every command -/

/-- A step takes the command at the front of the queue and runs it with the queue's rest. -/
def Obligations.StepRunsFrontCommand : Prop :=
  ∀ (c : Instr) (rest : List Instr) (s : State),
    step { s with pending := c :: rest } = exec c { s with pending := rest }

/-- Every command, in every state, answers a next state, and leaves the waiting commands as they are: no fault and no
refusal of the model. -/
def Obligations.EveryCommandAnswersNext : Prop :=
  ∀ (c : Instr) (s : State), ∃ t, exec c s = .next t ∧ t.pending = s.pending

/-- Outside running, and while a reset is pending, no request is taken and nothing changes (R172, R183). A request that
arrives at a full queue is answered QUEUE_FULL, or dropped when the refusal record is occupied, and the queue is
unchanged (R178; that the request command is the arrival too is the model's choice, log entry 3). While a close is in
flight a request to the Account Book or the Settlement Unit whose turn has come waits for it, but for a READ_PERIOD of
another period than those being closed or due (R124), and one that arrives behind an untaken request to its block stays
IN_TURN (R179). -/
def Obligations.RequestNotTaken : Prop :=
  ∀ (c : Instr) (k : Nat) (s : State), c.kind = some k →
    (s.phase ≠ .running ∨ s.slu.resetPending = true → exec c s = .next s) ∧
    (lengthAllowed k c.body.length = true → s.phase = .running → s.slu.resetPending = false →
      s.slu.queue.length = 4 → s.findEntry c = none →
      (s.slu.refusal = none →
        let r : Reply :=
          { origin := .refusal, kind := k + 0x80, tag := c.tag, status := .queueFull, detail := {}, body := [] }
        exec c s = .next { s with slu := { s.slu with refusal := some r, order := s.slu.order ++ [r] } }) ∧
      (s.slu.refusal ≠ none → exec c s = .next s)) ∧
    (∀ e : QEntry, s.phase = .running → s.slu.resetPending = false → lengthAllowed k c.body.length = true →
      (s.arrived c).findEntry c = some e → s.su.current ≠ none →
      ((c.bookOnly = true ∧ ∀ t n p, c ≠ .readPeriod t n p) ∨
        ∃ t n p, c = .readPeriod t n p ∧ ((∃ x, s.su.current = some x ∧ x.due.number = n) ∨
          ∃ d ∈ s.su.due, d.number = n)) →
      exec c s = .next ((s.arrived c).setEntry e.arrival .waitingClose)) ∧
    (∀ e : QEntry, s.phase = .running → s.slu.resetPending = false → lengthAllowed k c.body.length = true →
      s.slu.queue.length < 4 → e ∈ s.slu.queue → e.block = (blockOf c).getD .slu →
      e.state = .inTurn ∨ e.state = .waitingClose → e.arrival < s.slu.arrivals → s.findEntry c = none →
      exec c s = .next { s with slu :=
        { s.slu with
          arrivals := s.slu.arrivals + 1
          queue := s.slu.queue ++ [{ request := c, block := e.block, arrival := s.slu.arrivals, state := .inTurn }] } })

/-! ### Requests that only tell -/

/-- The reads of the plant answer from the records and change nothing else (R10, R16, R37, R38, R59, R79, R120). The
bodies of the replies are the model's form (log entries 9 and 10), and so are the ages of a start history after a
backward trim (log entry 37), the seconds shown for a deadline that stays after its expiry (log entry 51), and which
fields of an absent cavern, unit or train are 0 (R186; log entry 52). -/
def Obligations.PlantReadsOnlyTell : Prop :=
  ∀ (s : State) (e : QEntry) (t i : Nat),
    (takes (.readChannel t i) s e → i < 16 → tells (.readChannel t i) s e (·.channelFields i)) ∧
    (takes (.readMeter t i) s e → i < 7 → tells (.readMeter t i) s e (·.meterFields i)) ∧
    (takes (.readMeritOrder t i) s e → i < 2 → tells (.readMeritOrder t i) s e fun x => (x.merit i).map b1) ∧
    (takes (.readCavern t i) s e → i < 8 → tells (.readCavern t i) s e (·.cavernFields i)) ∧
    (takes (.readUnit t i) s e → i < 6 → tells (.readUnit t i) s e (·.unitFields i)) ∧
    (takes (.readDuty t) s e → tells (.readDuty t) s e fun x => x.dutyFields .inject ++ x.dutyFields .boost) ∧
    (takes (.readTrain t i) s e → i < 4 → tells (.readTrain t i) s e (·.trainFields i)) ∧
    (takes (.readPlan t) s e → tells (.readPlan t) s e State.planFields)

/-- The reads of the book and of settlement answer from the records and change nothing else; a read in parts carries at
most the slots or entries that fit, and one whose slots or position are out of range is refused (R91, R93, R133, R135,
R187; that slots in range whose end is not offend at the count, and that a position above 31 is refused before the
period is looked for, is the model's choice, log entry 11). The bodies of the replies are the model's form (log entry
9), and that a period which the ring no longer holds when the wait for its close ends is refused with NO_SUCH is its
choice (log entry 42). -/
def Obligations.BookReadsOnlyTell : Prop :=
  ∀ (s : State) (e : QEntry) (t a f n : Nat) (p : Option Nat) (r : PeriodRecord),
    (takes (.readCapacity t f n) s e → 1 ≤ n → f + n ≤ 48 →
      tells (.readCapacity t f n) s e fun x => (List.range' f (min n 13)).flatMap fun k =>
        [b4 (x.capSlot k).inj, b4 (x.capSlot k).wd, b1 (if (x.capSlot k).declared then 1 else 0),
          i8 (x.netConfirmed k)]) ∧
    (takes (.readCapacity t f n) s e →
      (48 ≤ f → refuses (.readCapacity t f n) s e .badField ⟨.field, 1⟩) ∧
      (f < 48 → n = 0 ∨ 48 < f + n → refuses (.readCapacity t f n) s e .badField ⟨.field, 2⟩)) ∧
    (takes (.readAccount t a) s e → a < 32 → tells (.readAccount t a) s e (·.accountFields a)) ∧
    (takes (.readBook t a f n) s e → a < 32 → 1 ≤ n → f + n ≤ 48 →
      tells (.readBook t a f n) s e fun x =>
        [b1 a, b1 f, b1 (min n 16)] ++ (List.range' f (min n 16)).flatMap (x.slotReply a)) ∧
    (takes (.readBook t a f n) s e → a < 32 →
      (48 ≤ f → refuses (.readBook t a f n) s e .badField ⟨.field, 2⟩) ∧
      (f < 48 → n = 0 ∨ 48 < f + n → refuses (.readBook t a f n) s e .badField ⟨.field, 3⟩)) ∧
    (takes (.readOba t) s e → tells (.readOba t) s e State.obaFields) ∧
    (takes (.readPeriod t n p) s e → s.su.ring.find? (·.number == n) = some r → p.getD 0 < r.shippers.length →
      p.getD 0 < 32 → tells (.readPeriod t n p) s e fun _ => r.fields (p.getD 0)) ∧
    (takes (.readPeriod t n none) s e → s.su.ring.find? (·.number == n) = some r → r.shippers = [] →
      tells (.readPeriod t n none) s e fun _ => r.fields 0) ∧
    (takes (.readPeriod t n p) s e →
      (32 ≤ p.getD 0 → refuses (.readPeriod t n p) s e .badField ⟨.field, 2⟩) ∧
      (p.getD 0 < 32 → s.su.ring.find? (·.number == n) = none → refuses (.readPeriod t n p) s e .noSuch {}) ∧
      (s.su.ring.find? (·.number == n) = some r → r.shippers ≠ [] → r.shippers.length ≤ p.getD 0 →
        refuses (.readPeriod t n p) s e .badField ⟨.field, 2⟩))

/-- The reads of watches, notices, trips, profiles and the part itself answer from the records and change nothing else
(R147, R153, R160, R171, R182, R187); a segment of a profile that begins at or beyond the group's length is refused
(R171). The bodies of the replies are the model's form (log entries 9, 10 and 44). -/
def Obligations.WatchTripProfileReadsOnlyTell : Prop :=
  ∀ (s : State) (e : QEntry) (t i seg : Nat) (ch : Option Nat) (g : Group),
    (takes (.readWatch t i) s e → i < 24 → tells (.readWatch t i) s e fun x => (x.watch i).fields) ∧
    (takes (.readNoticeState t ch) s e → ch.getD 0 < 3 →
      tells (.readNoticeState t ch) s e fun x =>
        (x.wnu.channels.flatMap fun c => [b1 c.state.code, yn c.held]) ++ (x.notice (ch.getD 0)).list.fields ++
          (x.notice (ch.getD 0)).late.fields) ∧
    (takes (.readTrip t) s e → tells (.readTrip t) s e State.tripFields) ∧
    (takes (.readProfile t g.code seg) s e → seg * 224 < g.size →
      tells (.readProfile t g.code seg) s e (·.profileFields g seg)) ∧
    (takes (.readProfile t g.code seg) s e → g.size ≤ seg * 224 →
      refuses (.readProfile t g.code seg) s e .badField ⟨.field, 2⟩) ∧
    (takes (.identify t) s e → tells (.identify t) s e State.identity)

/-! ### Refusals that every block shares -/

/-- A request that names an index its block does not have is refused with BAD_FIELD naming the first field, and one
that names an absent cavern, unit or train with NO_SUCH; nothing else changes (00, Units and ranges; 2.3, 3.3, 4.6,
5.2, 8.1; R6, R8, R10, R15, R16, R37, R38, R46, R59, R79, R93, R132, R141, R146, R147, R151, R152, R153, R164, R171,
R187). That the range of the index is judged before the other refusals, also of SET_DUTY_ORDER, SET_MERIT_ORDER and
LOOP_CHECK_BEGIN under an INVALID group, and that the NO_SUCH of an absent cavern, unit or train comes before the lines
of the tables of R26, R43 and R74 and before the other refusals of the rules, is the model's choice (log entry 11), and
so is that a bad group code of WRITE_PROFILE, which R164 refuses with BAD_FIELD, offends at field 1, by the request's
own layout, where R165 counts only the numbers of the group (log entry 11). -/
def Obligations.BadOrAbsentIndexRefused : Prop :=
  ∀ (s : State) (e : QEntry) (t i x y z w : Nat) (n : Int) (l : List Nat) (b : List Byte),
    let bad (c : Instr) : Prop := takes c s e → refuses c s e .badField ⟨.field, 1⟩
    let gone (c : Instr) : Prop := takes c s e → refuses c s e .noSuch {}
    (16 ≤ i → bad (.readChannel t i) ∧ bad (.loopCheckBegin t i x) ∧ bad (.loopCheckEnd t i)) ∧
    (7 ≤ i → bad (.readMeter t i) ∧ bad (.setGasQuality t i x)) ∧
    (8 ≤ i → bad (.cavernServiceIn t i) ∧ bad (.cavernServiceOut t i x) ∧ bad (.cavernEnable t i) ∧
      bad (.cavernShut t i) ∧ bad (.readCavern t i)) ∧
    (2 ≤ i → bad (.setMeritOrder t i l) ∧ bad (.readMeritOrder t i) ∧ bad (.setDutyOrder t i l)) ∧
    (6 ≤ i → bad (.unitMaintenance t i) ∧ bad (.unitAvailable t i) ∧ bad (.resetLockout t i) ∧ bad (.setDuty t i x) ∧
      bad (.readUnit t i)) ∧
    (4 ≤ i → bad (.trainOnline t i) ∧ bad (.trainOffline t i) ∧ bad (.forceSwitchover t i) ∧ bad (.resetTower t i x) ∧
      bad (.readTrain t i)) ∧
    (32 ≤ i → bad (.openAccount t i x y z w w) ∧ bad (.loadInventory t i x) ∧ bad (.suspendAccount t i) ∧
      bad (.resumeAccount t i) ∧ bad (.closeAccount t i) ∧ bad (.setRights t i x y z) ∧ bad (.transfer t i x y) ∧
      bad (.readAccount t i) ∧ bad (.readBook t i x y) ∧ bad (.obaAdjust t i n)) ∧
    (24 ≤ i → bad (.clearWatch t i) ∧ bad (.readWatch t i) ∧ bad (.setWatch t i x y z w x n y z w x y)) ∧
    (3 ≤ i → bad (.ackNotice t i l) ∧ bad (.discardNotice t i) ∧ bad (.testNotice t i) ∧
      bad (.readNoticeState t (some i)) ∧ bad (.writeProfile t i x y b) ∧ bad (.readProfile t i x)) ∧
    (i < 8 → s.cavDef i = none →
      gone (.cavernServiceIn t i) ∧ gone (.cavernServiceOut t i 1) ∧ gone (.cavernEnable t i) ∧
        gone (.cavernShut t i)) ∧
    (i < 6 → s.unitDef i = none →
      gone (.unitMaintenance t i) ∧ gone (.unitAvailable t i) ∧ gone (.resetLockout t i) ∧
        (x < 2 → gone (.setDuty t i x))) ∧
    (i < 4 → s.trainDef i = none →
      gone (.trainOnline t i) ∧ gone (.trainOffline t i) ∧ gone (.forceSwitchover t i) ∧
        (x < 2 → gone (.resetTower t i x)))

/-! ### Measurement and station time -/

/-- Conversion by zone (R2): the clamps give zero and span, out of range gives nothing, and in the linear zone the
result differs from zero by the whole number nearest to (current − 4,000) × (span − zero) / 16,000, a half going away
from zero; that the quotient is rounded, and not the sum, is the model's reading (log entry 32). -/
def Obligations.ConversionRoundsHalfAwayFromZero : Prop :=
  ∀ (d : ChanDef) (i : Nat),
    (i < 3600 ∨ 21000 < i → d.convert i = none) ∧
    (3600 ≤ i → i < 4000 → d.convert i = some d.zero) ∧
    (20000 < i → i ≤ 21000 → d.convert i = some d.span) ∧
    (4000 ≤ i → i ≤ 20000 → ∃ q : Int, d.convert i = some (d.zero + q) ∧
      let n : Int := (i - 4000 : Int) * (d.span - d.zero)
      2 * (16000 * q - n).natAbs ≤ 16000 ∧ (2 * (16000 * q - n).natAbs = 16000 → n.natAbs < (16000 * q).natAbs))

/-- An out-of-range reading of a LIVE channel (R3): the value stays, the count becomes 0; a GOOD channel becomes HELD
with its deadline and reports the quality change, any other keeps quality and deadline and reports nothing. -/
def Obligations.OutOfRangeReadingHolds : Prop :=
  ∀ (s : State) (ch i : Nat) (d : ChanDef), s.phase = .running → s.mu.pass ≠ .running → s.chanDef ch = some d →
    (s.chan ch).mode = .live → d.convert i = none → ch < s.mu.channels.length →
    ((s.chan ch).quality = .good →
      happens (.channelReading ch i) s fun s => qualityChange ch
        (s.updChan ch fun x =>
          { x with raw := some i, good := 0, quality := .held, hold := some (s.after d.hold) }).ev) ∧
    ((s.chan ch).quality ≠ .good →
      exec (.channelReading ch i) s = .next (s.updChan ch fun x => { x with raw := some i, good := 0 }))

/-- An in-range reading of a LIVE channel (R5): on a GOOD channel a new value; on a HELD or LOST one the count rises,
and the third restores the channel with a quality change and then a new value. A reading of a channel in CHECK takes
the test current and gives the check result alone (R7). While SITE is INVALID and during a recalibration pass no
channel is read (R1, R9). A new value reaches the caverns of the channel: the envelope is judged in service, and a
status that becomes ABOVE or BELOW is handed to the Trip Unit (R31), permits are recomputed, the setpoint cut, the
valve supervised (R23, R33), and the planner handed a change of a permit or of the low-pressure mark (R108). It reaches
the trains in service that it is the dew point of (R71, R73), the header's record and status, whose rise is handed to
the Trip Unit (R154), and then the watches. R142 orders the watches of one source, by ascending index; that those on
the channel and those on its caverns' pressure are evaluated in one ascending pass, after every other consumer, is the
model's choice (log entry 13). -/
def Obligations.ReadingsRestoreAndCheck : Prop :=
  (∀ (s : State) (ch i test : Nat) (d : ChanDef) (v : Int), s.phase = .running →
    (s.mu.pass ≠ .running → s.chanDef ch = some d → ch < s.mu.channels.length →
      ((s.chan ch).mode = .live → d.convert i = some v → (s.chan ch).quality = .good →
        happens (.channelReading ch i) s fun s => newValue ch v
          (s.updChan ch fun x => { x with raw := some i, value := v, good := 3 }).ev) ∧
      ((s.chan ch).mode = .live → d.convert i = some v → (s.chan ch).quality ≠ .good → (s.chan ch).good < 2 →
        exec (.channelReading ch i) s = .next (s.updChan ch fun x => { x with raw := some i, good := x.good + 1 })) ∧
      ((s.chan ch).mode = .live → d.convert i = some v → (s.chan ch).quality ≠ .good → 2 ≤ (s.chan ch).good →
        happens (.channelReading ch i) s fun s => newValue ch v (qualityChange ch
          (s.updChan ch fun x =>
            { x with
              raw := some i, value := v, quality := .good, hold := none, good := 3, passHeld := false }).ev)) ∧
      ((s.chan ch).mode = .check → (s.chan ch).test = some test →
        exec (.channelReading ch i) s = .next (s.updChan ch fun x =>
          { x with
            raw := some test
            check := some (match d.convert test with
              | some v => .value v
              | none => .outOfRange) }))) ∧
    (s.chanDef ch = none ∨ s.mu.pass = .running → exec (.channelReading ch i) s = .next s)) ∧
  ∀ (ev : Ev) (ch : Nat) (v : Int),
    let x := newValue ch v ev
    (∀ (c : Nat) (d : CavernDef), c < 8 → c < ev.s.cvc.caverns.length → ev.s.cavDef c = some d → d.channel = some ch →
      let r := ev.s.cav c
      let status : Envelope :=
        if r.state = .outOfService then r.envelope
        else if v > d.pMax + d.margin then .above
        else if v < (d.pMin : Int) - d.margin then .below
        else .inside
      x.s.cav c = Cavern.followed ev.s d { r with pressure := v, envelope := status } ∧
      (r.envelope ≠ status → status = .above → { code := 0x020, scope := some c } ∈ x.launches) ∧
      (r.envelope ≠ status → status = .below → { code := 0x030, scope := some c } ∈ x.launches) ∧
      ((x.s.cav c).injPermit ≠ r.injPermit ∨ (x.s.cav c).wdPermit ≠ r.wdPermit ∨
          ¬(v < d.boost ↔ r.pressure < d.boost) → x.restep = true)) ∧
    (∀ (t : Nat) (d : TrainDef), t < 4 → t < ev.s.dtc.trains.length → ev.s.trainDef t = some d →
      let r := ev.s.train t
      (d.dewChannel ≠ ch ∨ r.inService = false → x.s.train t = r) ∧
      (d.dewChannel = ch → r.inService = true →
        (r.offSpec = true → x.s.train t = { r with offSpec := decide (d.dewLimit - d.hysteresis < v) }) ∧
        (r.offSpec = false → d.dewLimit < v →
          x.s.train t = { r with offSpecDeadline := r.offSpecDeadline.or (some (ev.s.after d.dwell)) }) ∧
        (r.offSpec = false → v ≤ d.dewLimit → x.s.train t = { r with offSpecDeadline := none }))) ∧
    (∀ p : Site, ev.s.site = some p → p.header = some ch →
      x.s.fpl.header = v ∧ x.s.fpl.headerQuality = (ev.s.chan ch).quality ∧
      x.s.tru.headerAbove = decide (v > p.headerLimit) ∧
      (v > p.headerLimit → ev.s.tru.headerAbove = false → { code := 0x040 } ∈ x.launches)) ∧
    (ev.s.headerChannel ≠ some ch → x.s.fpl = ev.s.fpl ∧ x.s.tru = ev.s.tru) ∧
    ∃ y : Ev, y.s.wnu = ev.s.wnu ∧ x = (List.range 24).foldl (evaluateWatch (fun src => match src with
      | .channel i => i == ch
      | .cavernPressure c => (ev.s.cavDef c).any fun d => d.channel == some ch
      | .trainLoading _ | .obaBalance | .accountInventory _ | .meterRate _ | .event _ _ => false) v) y

/-- A hold expires: LOST, reported, SENSOR_LOST raised (R4). A recalibration pass puts each LIVE GOOD channel into HELD
without a deadline, marked as held by the pass, and gives each that it still holds back to GOOD, with a quality change
each time and every other channel as it was (R9); before its deadline, or with no pass pending or running, nothing
happens (log entry 2). A quality change reaches the caverns of the channel, whose permits are recomputed, setpoint cut
and valve supervised, the planner being handed a change of a permit or of the low-pressure mark (R23, R33, R108); a
change to LOST marks the trains in service that it is the dew point of OFF_SPEC (R73); the header's record follows, and
the Trip Unit is told nothing (R154). -/
def Obligations.HoldsExpireAndPassesRun : Prop :=
  (∀ (s : State) (ch : Nat), s.phase = .running →
    ((s.chan ch).quality = .held → due s.clock (s.chan ch).hold = true →
      happens (.holdExpiry ch) s (fun s => raise .sensorLost (some ch)
        (qualityChange ch (s.updChan ch fun x => { x with quality := .lost, hold := none }).ev)) ∧
      ∃ t, exec (.holdExpiry ch) s = .next t ∧ t.chan ch = { s.chan ch with quality := .lost, hold := none }) ∧
    ((s.chan ch).quality ≠ .held ∨ due s.clock (s.chan ch).hold = false → exec (.holdExpiry ch) s = .next s) ∧
    (s.mu.pass = .pending →
      happens .recalibrationBegin s (fun s => (List.range 16).foldl
        (fun ev i => if (ev.s.chan i).mode = .live ∧ (ev.s.chan i).quality = .good then
            qualityChange i { ev with s := ev.s.updChan i fun x =>
              { x with quality := .held, hold := none, passHeld := true } }
          else ev)
        ({ s with mu := { s.mu with pass := .running } } : State).ev) ∧
      ∃ t, exec .recalibrationBegin s = .next t ∧ t.mu.pass = .running ∧ ∀ i, i < 16 → t.chan i =
        if (s.chan i).mode = .live ∧ (s.chan i).quality = .good then
          { s.chan i with quality := .held, hold := none, passHeld := true }
        else s.chan i) ∧
    (s.mu.pass ≠ .pending → exec .recalibrationBegin s = .next s) ∧
    (s.mu.pass = .running →
      happens .recalibrationComplete s (fun s => (List.range 16).foldl
        (fun ev i => if (ev.s.chan i).passHeld = true then
            qualityChange i { ev with s := ev.s.updChan i fun x => { x with quality := .good, passHeld := false } }
          else ev)
        ({ s with mu := { s.mu with pass := .none } } : State).ev) ∧
      ∃ t, exec .recalibrationComplete s = .next t ∧ t.mu.pass = .none ∧ ∀ i, i < 16 → t.chan i =
        if (s.chan i).passHeld = true then { s.chan i with quality := .good, passHeld := false } else s.chan i) ∧
    (s.mu.pass ≠ .running → exec .recalibrationComplete s = .next s)) ∧
  ∀ (ev : Ev) (ch : Nat),
    let r := ev.s.chan ch
    let x := qualityChange ch ev
    (∀ (c : Nat) (d : CavernDef), c < 8 → c < ev.s.cvc.caverns.length → ev.s.cavDef c = some d → d.channel = some ch →
      x.s.cav c = Cavern.followed ev.s d { ev.s.cav c with pressure := r.value, quality := r.quality } ∧
      ((x.s.cav c).injPermit ≠ (ev.s.cav c).injPermit ∨ (x.s.cav c).wdPermit ≠ (ev.s.cav c).wdPermit ∨
          ¬(r.value < d.boost ↔ (ev.s.cav c).pressure < d.boost) → x.restep = true)) ∧
    (∀ (t : Nat) (d : TrainDef), t < 4 → t < ev.s.dtc.trains.length → ev.s.trainDef t = some d →
      (d.dewChannel = ch → r.quality = .lost → (ev.s.train t).inService = true → (ev.s.train t).offSpec = false →
        x.s.train t = { ev.s.train t with offSpec := true, offSpecDeadline := none } ∧
        ⟨.trainOffSpec, some t, .none⟩ ∈ x.raised) ∧
      (d.dewChannel ≠ ch ∨ r.quality ≠ .lost ∨ (ev.s.train t).inService = false ∨ (ev.s.train t).offSpec = true →
        x.s.train t = ev.s.train t)) ∧
    (ev.s.headerChannel = some ch → x.s.fpl.header = r.value ∧ x.s.fpl.headerQuality = r.quality) ∧
    (ev.s.headerChannel ≠ some ch → x.s.fpl = ev.s.fpl) ∧ x.s.tru = ev.s.tru

/-- A loop check begins on a channel that nothing uses, holding a GOOD channel with a deadline and a reported change
(R6), and giving one that the recalibration pass holds a deadline from the moment of the check (R9); it ends with the
channel LIVE in the quality it has (R8). It is refused with BAD_FIELD for a test current out of range, which the model
judges first (log entry 11), on a channel already in CHECK, and with NOT_AT_REST on the pressure channel of a cavern
that is not SHUT or OUT_OF_SERVICE and on a channel of a train that is not OFFLINE (R6); that the detail names the
lowest such cavern, else the lowest such train, is the model's choice (log entry 35). The bodies of the replies are the
model's form (log entry 9). -/
def Obligations.LoopChecksBeginAndEnd : Prop :=
  ∀ (s : State) (e : QEntry) (t ch i : Nat) (d : ChanDef), ch < 16 →
    (25000 < i → takes (.loopCheckBegin t ch i) s e →
      refuses (.loopCheckBegin t ch i) s e .badField ⟨.field, 2⟩) ∧
    (i ≤ 25000 →
    let cavernInUse (c : Nat) : Prop :=
      (∃ k, s.cavDef c = some k ∧ k.channel = some ch) ∧ (s.cav c).state ≠ .shut ∧ (s.cav c).state ≠ .outOfService
    let trainInUse (n : Nat) : Prop :=
      (∃ k, s.trainDef n = some k ∧ (k.dewChannel = ch ∨ k.inletChannel = ch)) ∧ s.trainState n ≠ .offline
    (takes (.loopCheckBegin t ch i) s e → s.chanDef ch = some d → (s.chan ch).mode = .live →
      s.channelInUse ch = none → (s.chan ch).quality = .good →
      completes (.loopCheckBegin t ch i) s e
        (fun x => qualityChange ch (x.updChan ch fun r =>
          { r with
            mode := .check, test := some i, check := none, good := 0, quality := .held
            hold := some (x.after d.hold), passHeld := false }).ev)
        fun x => [b1 ch, b2 i, b1 (x.chan ch).quality.code]) ∧
    (takes (.loopCheckBegin t ch i) s e → s.chanDef ch = some d → (s.chan ch).mode = .live →
      s.channelInUse ch = none → (s.chan ch).quality ≠ .good → (s.chan ch).passHeld = false →
      completes (.loopCheckBegin t ch i) s e
        (fun x => (x.updChan ch fun r => { r with mode := .check, test := some i, check := none, good := 0 }).ev)
        fun x => [b1 ch, b2 i, b1 (x.chan ch).quality.code]) ∧
    (takes (.loopCheckBegin t ch i) s e → s.chanDef ch = some d → (s.chan ch).mode = .live →
      s.channelInUse ch = none → (s.chan ch).quality ≠ .good → (s.chan ch).passHeld = true →
      completes (.loopCheckBegin t ch i) s e
        (fun x => (x.updChan ch fun r =>
          { r with
            mode := .check, test := some i, check := none, good := 0, hold := some (x.after d.hold)
            passHeld := false }).ev)
        fun x => [b1 ch, b2 i, b1 (x.chan ch).quality.code]) ∧
    (takes (.loopCheckEnd t ch) s e → (s.chan ch).mode = .check →
      completes (.loopCheckEnd t ch) s e
        (fun x => (x.updChan ch fun r => { r with mode := .live, test := none, check := none }).ev)
        fun x => [b1 ch, b1 (x.chan ch).quality.code]) ∧
    (takes (.loopCheckBegin t ch i) s e → s.chanDef ch = none →
      refuses (.loopCheckBegin t ch i) s e .wrongState {}) ∧
    (takes (.loopCheckBegin t ch i) s e → (s.chan ch).mode = .check →
      refuses (.loopCheckBegin t ch i) s e .wrongState {}) ∧
    (takes (.loopCheckBegin t ch i) s e → s.chanDef ch = some d → (s.chan ch).mode = .live →
      (∀ c, c < 8 → cavernInUse c → (∀ b, b < c → ¬cavernInUse b) →
        refuses (.loopCheckBegin t ch i) s e .notAtRest ⟨.cavern, c⟩) ∧
      ((∀ c, c < 8 → ¬cavernInUse c) →
        (∀ n, n < 4 → trainInUse n → (∀ m, m < n → ¬trainInUse m) →
          refuses (.loopCheckBegin t ch i) s e .notAtRest ⟨.train, n⟩) ∧
        ((∀ n, n < 4 → ¬trainInUse n) → s.channelInUse ch = none))) ∧
    (takes (.loopCheckEnd t ch) s e → (s.chan ch).mode = .live → refuses (.loopCheckEnd t ch) s e .wrongState {}))

/-- SET_GAS_QUALITY (R15): a first CV values the unvalued volume into the accumulator, any other CV only replaces the
old one, and a CV outside its range is refused. The bodies of the replies are the model's form (log entry 9). -/
def Obligations.GasQualityValuesHeldVolume : Prop :=
  ∀ (s : State) (e : QEntry) (t r cv : Nat), takes (.setGasQuality t r cv) s e → r < 7 →
    (8000 ≤ cv → cv ≤ 13500 → (s.run r).cv = 0 →
      completes (.setGasQuality t r cv) s e
        (fun x => addEnergy r ((s.run r).unvalued * cv) (x.updRun r fun m => { m with cv := cv, unvalued := 0 }).ev)
        (fun _ => [b1 r, b2 cv, b8 ((s.run r).unvalued * cv)]) ∧
      (r < s.mu.runs.length → ∃ t', exec (.setGasQuality t r cv) s = .next t' ∧ t'.run r =
        { s.run r with cv := cv, unvalued := 0, acc := (s.run r).acc + (s.run r).unvalued * cv })) ∧
    (cv = 0 ∨ (8000 ≤ cv ∧ cv ≤ 13500 ∧ (s.run r).cv ≠ 0) →
      completes (.setGasQuality t r cv) s e (fun x => (x.updRun r fun m => { m with cv := cv }).ev)
        fun _ => [b1 r, b2 cv, b8 0]) ∧
    (cv ≠ 0 → cv < 8000 ∨ 13500 < cv → refuses (.setGasQuality t r cv) s e .badField ⟨.field, 2⟩)

/-- A pulse (R12 to R15): the energy weight × CV to the accumulator of a run with its CV set and, of a WITHDRAW run, to
the train it is bound to; the weight to the unvalued volume of a run without, at most 999,999,999,999. Either way the
pulse is timed: with a last pulse time the rate becomes its energy × 360 over the milliseconds since, at least one, up
to 99,999,999, and 0 with the CV unset; the last pulse time is now and the zero-flow deadline is set. No other run
changes. A pulse of an UNUSED run, or under an INVALID SITE, is ignored. A zero-flow expiry makes the rate 0 and removes
the deadline; before its deadline it does nothing (log entry 2). A rate that changes is a new value to its watches
(R14). A SITE write that changes a run's direction or weight clears its timing and its rate, and no other write does
(R12). -/
def Obligations.PulsesCountEnergyOrVolume : Prop :=
  (∀ (s : State) (r : Nat) (d : RunDef), s.phase = .running →
    let x := s.run r
    let timed (energy : Nat) (y : Run) : Run :=
      { y with
        rate := match x.last with
          | some t => min (energy * 360 / max 1 (s.mu.ms - t)) 99999999
          | none => x.rate
        last := some s.mu.ms, zero := some (s.after d.timeout) }
    (s.metered r = some d → x.cv ≠ 0 →
      happens (.meterPulse r) s (fun s =>
        timePulse r (d.weight * (s.run r).cv) d (addEnergy r (d.weight * (s.run r).cv) s.ev)) ∧
      ∃ t, exec (.meterPulse r) s = .next t ∧ (∀ q, q ≠ r → t.run q = s.run q) ∧
        (r < s.mu.runs.length → t.run r = timed (d.weight * x.cv) { x with acc := x.acc + d.weight * x.cv })) ∧
    (s.metered r = some d → x.cv = 0 →
      happens (.meterPulse r) s (fun s => timePulse r 0 d
        (s.updRun r fun y => { y with unvalued := min (y.unvalued + d.weight) 999999999999 }).ev) ∧
      ∃ t, exec (.meterPulse r) s = .next t ∧ (∀ q, q ≠ r → t.run q = s.run q) ∧
        (r < s.mu.runs.length →
          t.run r = timed 0 { x with unvalued := min (x.unvalued + d.weight) 999999999999 })) ∧
    (s.metered r = none → exec (.meterPulse r) s = .next s) ∧
    (due s.clock x.zero = true →
      happens (.zeroFlowExpiry r) s (fun s => setRate r 0 (s.updRun r fun y => { y with zero := none }).ev) ∧
      ∃ t, exec (.zeroFlowExpiry r) s = .next t ∧ t.run r = { x with rate := 0, zero := none } ∧
        ∀ q, q ≠ r → t.run q = s.run q) ∧
    (due s.clock x.zero = false → exec (.zeroFlowExpiry r) s = .next s)) ∧
  (∀ (ev : Ev) (r e : Nat) (d : RunDef),
    let counted : Ev := { ev with s := ev.s.updRun r fun x => { x with acc := x.acc + e } }
    ev.s.runDef r = some d →
      (∀ n, d.dir = some .withdraw → d.train = some n → addEnergy r e ev = handOff n e counted) ∧
      (d.dir ≠ some .withdraw ∨ d.train = none → addEnergy r e ev = counted)) ∧
  (∀ (ev : Ev) (r v : Nat),
    let x : Ev := { ev with s := ev.s.updRun r fun x => { x with rate := v } }
    ((ev.s.run r).rate = v → setRate r v ev = ev) ∧
    ((ev.s.run r).rate ≠ v →
      setRate r v ev = (List.range 24).foldl (evaluateWatch (· == .meterRate r) v) x)) ∧
  (∀ e i : Nat, rateOf e i = min (e * 360 / (if i = 0 then 1 else i)) 99999999) ∧
  ∀ (ev : Ev) (v : List Int) (r : Nat) (d : RunDef) (old : Site), ev.s.site = some old → old.runs[r]? = some d →
    let x := (applyWrite .site v ev).s
    ∀ new, x.runDef r = some new →
      (d.dir = new.dir → d.weight = new.weight → x.run r = ev.s.run r) ∧
      (d.dir ≠ new.dir ∨ d.weight ≠ new.weight →
        x.run r = { ev.s.run r with last := none, zero := none, rate := 0 })

/-- On an empty queue a millisecond passes within the second the clock is in, and nothing else (the model's choice, log
entry 4). The clock's second (R18, R20, R58): the clock counts in every phase; in running, a set clock that comes to a
boundary raises it, and the run seconds count; nothing else changes (that both wait for running, as R172 has the clock
go on, is log entry 18). A fresh stop of the crystal makes the source INTERNAL and raises CLOCK_DEGRADED; outside running
it is recorded only (log entry 6), and a stop of a stopped crystal does nothing (log entry 2); a resumption raises
nothing. -/
def Obligations.ClockCountsEverySecond : Prop :=
  ∀ s : State,
    (s.pending = [] → s.mu.ms % 1000 ≠ 999 → step s = .next { s with mu := { s.mu with ms := s.mu.ms + 1 } }) ∧
    (s.pending = [] → s.mu.ms % 1000 = 999 → step s = .next s) ∧
    (∃ t, exec .clockSecond s = .next t ∧ t.mu.clock = s.mu.clock + 1#32 ∧
    t = { s with
      mu := { s.mu with clock := t.mu.clock, ms := (s.mu.ms / 1000 + 1) * 1000, boundaries := t.mu.boundaries }
      cdm := { s.cdm with units := t.cdm.units } } ∧
    (s.phase ≠ .running → t.mu.boundaries = s.mu.boundaries ∧ t.cdm.units = s.cdm.units) ∧
    (s.phase = .running → t.cdm.units = s.cdm.units.map fun u =>
      if (u.state = .running ∨ u.state = .stopping) ∧ u.feedback then
        { u with runSeconds := min (u.runSeconds + 1) 4294967295 }
      else u) ∧
    (s.phase = .running → s.mu.set = true → (t.mu.clock.toNat % 3600 = 0 →
      t.mu.boundaries = s.mu.boundaries ++
        [⟨t.mu.clock, t.mu.clock.toNat % 86400 == s.startHour * 3600 || t.mu.clock == 0#32⟩])) ∧
    (s.mu.set = false ∨ t.mu.clock.toNat % 3600 ≠ 0 → t.mu.boundaries = s.mu.boundaries)) ∧
    (s.phase = .running → s.mu.source = .crystal →
      happens .crystalStop s fun s =>
        raise .clockDegraded none ({ s with mu := { s.mu with source := .internal } } : State).ev) ∧
    (s.phase ≠ .running → exec .crystalStop s = .next { s with mu := { s.mu with source := .internal } }) ∧
    (s.mu.source = .internal → exec .crystalStop s = .next s) ∧
    exec .crystalResume s = .next { s with mu := { s.mu with source := .crystal } }

/-- SET_CLOCK (R19): on an UNSET clock any value, with every deadline moved by the same amount as the clock (that the
start history's entries move with them is the model's choice, log entry 26), no boundary raised, the running slot
taken from it by the start hour (R82; the count before the first start hour after the wrap is the model's choice,
log entry 25) and the open period start the start of its period (R139). On a set one a trim within the greatest trim
that does not go back over the period's start: nothing changes but the clock, no deadline moves, and a boundary is
raised just where a forward trim comes to the end of the period (R20). The bodies of the replies are the model's
form (log entry 9). -/
def Obligations.ClockIsSetOrTrimmed : Prop :=
  ∀ (s : State) (e : QEntry) (t v : Nat), takes (.setClock t v) s e →
    let c : Clk := BitVec.ofNat 32 v
    let trim : Int := (c - s.mu.clock).toInt
    let x := s.firstClock c
    let moved : Option Clk → Option Clk := Option.map (· + (c - s.mu.clock))
    let movedTimer : Option PendingTimer → Option PendingTimer := Option.map fun p =>
      { p with deadline := p.deadline + (c - s.mu.clock) }
    let left : Nat :=
      if 4294965600 ≤ s.mu.clock.toNat then 4294967296 - s.mu.clock.toNat else 3600 - s.mu.clock.toNat % 3600
    let stop : Clk := s.mu.clock + BitVec.ofNat 32 left
    (s.mu.set = false →
      completes (.setClock t v) s e (fun x => (x.firstClock c).ev) State.clockFields ∧
        x.mu.clock = c ∧ x.mu.set = true ∧ x.mu.boundaries = s.mu.boundaries ∧
        x.su = { s.su with openStart := some (BitVec.ofNat 32 (c.toNat / 3600 * 3600)) } ∧
        x.acb = { s.acb with running :=
          if s.startHour * 3600 ≤ c.toNat then (c.toNat - s.startHour * 3600) % 86400 / 3600 else c.toNat / 3600 } ∧
        (∀ ch : Nat, x.chan ch = { s.chan ch with hold := moved (s.chan ch).hold }) ∧
        (∀ r : Nat, x.run r = { s.run r with zero := moved (s.run r).zero }) ∧
        (∀ k : Nat, x.cav k = { s.cav k with dwell := moved (s.cav k).dwell, travel := moved (s.cav k).travel }) ∧
        (∀ u : Nat, x.unit u =
          { s.unit u with
            start := moved (s.unit u).start, stop := moved (s.unit u).stop, minRun := moved (s.unit u).minRun
            rest := moved (s.unit u).rest, history := (s.unit u).history.map (· + (c - s.mu.clock)) }) ∧
        (∀ q : Duty, x.duty q =
          { s.duty q with
            startPending := movedTimer (s.duty q).startPending, stopPending := movedTimer (s.duty q).stopPending }) ∧
        (∀ n : Nat, x.train n =
          { s.train n with
            offSpecDeadline := moved (s.train n).offSpecDeadline
            switch := (s.train n).switch.map fun w => { w with deadline := w.deadline + (c - s.mu.clock) }
            towerA := { (s.train n).towerA with step := moved (s.train n).towerA.step }
            towerB := { (s.train n).towerB with step := moved (s.train n).towerB.step } }) ∧
        x.fpl = { s.fpl with dispatch := moved s.fpl.dispatch } ∧
        x.pst = { s.pst with profile := moved s.pst.profile, settle := moved s.pst.settle } ∧
        x.slu.queue.map QEntry.state = s.slu.queue.map (fun y => match y.state with
          | .waitingFlags m d => .waitingFlags m (d + (c - s.mu.clock))
          | .inTurn => .inTurn
          | .waitingClose => .waitingClose
          | .answered => .answered) ∧
        x.wnu = s.wnu ∧ x.tru = s.tru ∧ x.phase = s.phase) ∧
    (s.mu.set = true → trim.natAbs ≤ s.maxTrim → -((s.mu.clock.toNat % 3600 : Nat) : Int) ≤ trim →
      completes (.setClock t v) s e (fun x => (x.trimClock c trim).ev) State.clockFields ∧
        s.trimClock c trim = { s with mu :=
          { s.mu with
            clock := c
            boundaries := if 0 < trim ∧ (left : Int) ≤ trim then
                s.mu.boundaries ++ [⟨stop, stop.toNat % 86400 == s.startHour * 3600 || stop == 0#32⟩]
              else s.mu.boundaries } }) ∧
    (s.mu.set = true → s.maxTrim < trim.natAbs → refuses (.setClock t v) s e .badField ⟨.field, 1⟩) ∧
    (s.mu.set = true → trim.natAbs ≤ s.maxTrim → trim < -((s.mu.clock.toNat % 3600 : Nat) : Int) →
      refuses (.setClock t v) s e .wrongState {})

/-- The oldest period boundary raised is taken by the Settlement Unit, and on a day boundary each duty list is rotated
by one, before the planner's step or after it as the operand says (R20, R47; log entry 21). -/
def Obligations.BoundaryGoesToSettlementAndRotation : Prop :=
  ∀ (s : State) (b : Boundary) (rest : List Boundary), s.phase = .running → s.mu.boundaries = b :: rest →
    let p : State := { s with mu := { s.mu with boundaries := rest } }
    (b.day = false → ∀ f, exec (.periodBoundary f) s = .next (suBoundary b.clk false p.ev).finish) ∧
    (b.day = true → exec (.periodBoundary true) s = .next (suBoundary b.clk true p.rotateDuties.ev).finish) ∧
    (b.day = true → exec (.periodBoundary false) s = .next ((suBoundary b.clk true p.ev).finish).rotateDuties) ∧
    (∀ (x : Nat) (l : List Nat), s.cdm.inject.order = x :: l → p.rotateDuties.cdm.inject.order = l ++ [x]) ∧
    (∀ (x : Nat) (l : List Nat), s.cdm.boost.order = x :: l → p.rotateDuties.cdm.boost.order = l ++ [x])

/-! ### The cavern table -/

/-- Permits (R32): 0 outside IDLE, INJECTING and WITHDRAWING, with a LOST pressure and without headroom; the base
min(Qmax, R × k, 99,999,999) with full headroom; base × headroom / taper band, truncated, inside the taper band.
Outputs (R22, R36, R172): the setpoint output is 4,000 + 16,000 × abs(setpoint) / Qmax µA of the setpoint's direction,
the direction line shows WITHDRAW with last direction WITHDRAW, one valve output is driven; outside running all are at
rest. -/
def Obligations.PermitsAndOutputsFollowRecord : Prop :=
  (∀ (d : CavernDef) (r : Cavern),
    let base (q : Nat) : Nat := min (min q (d.ramp * d.k)) 99999999
    let law (q : Nat) (h : Int) (p : Nat) : Prop :=
      (h ≤ 0 → p = 0) ∧ (0 < h → h < d.taper → p = base q * h.toNat / d.taper) ∧ (0 < h → d.taper ≤ h → p = base q)
    ((r.state = .idle ∨ r.state = .injecting ∨ r.state = .withdrawing) → r.quality ≠ .lost →
      law d.qInj (d.pMax - r.pressure) (d.injPermit r) ∧ law d.qWd (r.pressure - d.pMin) (d.wdPermit r)) ∧
    (¬(r.state = .idle ∨ r.state = .injecting ∨ r.state = .withdrawing) ∨ r.quality = .lost →
      d.injPermit r = 0 ∧ d.wdPermit r = 0)) ∧
  ∀ (s : State) (c : Nat) (d : CavernDef),
    (s.phase = .running → s.cavDef c = some d →
      s.setpointOutput c =
        4000 + 16000 * (s.cav c).setpoint.natAbs / (if (s.cav c).setpoint > 0 then d.qInj else d.qWd)) ∧
    (s.cavDef c = none → s.setpointOutput c = 4000) ∧
    (s.phase = .running →
      (s.directionWithdraw c = true ↔ (s.cav c).last = .withdraw) ∧
      (s.valveOutputs c = (true, false) ∨ s.valveOutputs c = (false, true)) ∧
      ((s.valveOutputs c).1 = true ↔ (s.cav c).command = .driveOpen)) ∧
    (s.phase ≠ .running →
      s.setpointOutput c = 4000 ∧ s.directionWithdraw c = false ∧ s.valveOutputs c = (false, false))

/-- CAVERN_SERVICE and CAVERN_ENABLE on a present cavern. Into service (R24): from OUT_OF_SERVICE it is SHUT, refused
with NOT_READY with no pressure channel or a valve position other than CLOSED, and from any other state refused with
WRONG_STATE. Out of service (R25): from SHUT, TRIPPED and VALVE_FAULT, and from any other state refused with
WRONG_STATE. CAVERN_ENABLE (R26): OPENING with a travel deadline, or refused by the first line of its table that
applies: SETTLING, TRIPPED, WRONG_STATE, or NOT_READY on a pressure that is not GOOD, not INSIDE or outside the trip
limits. A direction of CAVERN_SERVICE that is neither in nor out is refused with BAD_FIELD before the rest (log entry
11). A CAVERNS write (R21) takes an absent cavern and one without a channel out of service, begins one that becomes
present OUT_OF_SERVICE, and gives a SHUT one the pressure record of its channel with the envelope INSIDE; absent
caverns leave the merit lists, and those that become present are appended in ascending order; the planner is handed the
change (R108). That a cavern taken out of service so loses its travel deadline, and that one without a channel reads
pressure 0 and LOST, is the model's choice (log entry 36). The bodies of the replies are the model's form (log entry
9). -/
def Obligations.CavernServiceAndEnable : Prop :=
  (∀ (ev : Ev) (v : List Int),
    let l := cavernsOf v
    let x := applyWrite .caverns v ev
    let fits (old : List Nat) : List Nat :=
      old.filter (fun c => (l.getD c {}).present) ++
        (List.range 8).filter fun c => (l.getD c {}).present && !(ev.s.cav c).present && !old.contains c
    x.s.cvc.injMerit = fits ev.s.cvc.injMerit ∧ x.s.cvc.wdMerit = fits ev.s.cvc.wdMerit ∧ x.restep = true ∧
    ∀ c, c < 8 → c < ev.s.cvc.caverns.length →
      let d := l.getD c {}
      let r := ev.s.cav c
      let out (present : Bool) (p : Int) (q : Quality) : Cavern :=
        { r with
          present := present, state := .outOfService, target := none, command := .driveClose, travel := none
          injPermit := 0, wdPermit := 0, setpoint := 0, pressure := p, quality := q, envelope := .inside }
      (d.present = false → x.s.cav c = out false 0 .lost) ∧
      (d.present = true → d.channel = none → x.s.cav c = out true 0 .lost) ∧
      (∀ ch, d.present = true → d.channel = some ch → r.present = false ∨ r.state = .outOfService →
        x.s.cav c = out true (ev.s.chan ch).value (ev.s.chan ch).quality) ∧
      (∀ ch, d.present = true → d.channel = some ch → r.present = true → r.state = .shut → x.s.cav c =
        { r with
          injPermit := 0, wdPermit := 0, setpoint := 0, pressure := (ev.s.chan ch).value
          quality := (ev.s.chan ch).quality, envelope := .inside })) ∧
  ∀ (s : State) (e : QEntry) (t c k : Nat) (d : CavernDef), c < 8 → s.cavDef c = some d →
    let reply (x : State) : List Fld := [b1 (x.cav c).state.code, b1 (x.cav c).position.code, b1 (x.cav c).command.code]
    (takes (.cavernServiceIn t c) s e → (s.cav c).state = .outOfService → d.channel ≠ none →
      (s.cav c).position = .closed →
      completes (.cavernServiceIn t c) s e
        (fun x => changeCavern c (fun r => { r with state := .shut, command := .driveClose, envelope := .inside }) x.ev)
        reply) ∧
    (takes (.cavernServiceIn t c) s e →
      ((s.cav c).state ≠ .outOfService → refuses (.cavernServiceIn t c) s e .wrongState {}) ∧
      ((s.cav c).state = .outOfService → d.channel = none ∨ (s.cav c).position ≠ .closed →
        refuses (.cavernServiceIn t c) s e .notReady {})) ∧
    (takes (.cavernServiceOut t c 1) s e →
      ((s.cav c).state = .shut ∨ (s.cav c).state = .tripped ∨ (s.cav c).state = .valveFault) →
      completes (.cavernServiceOut t c 1) s e
        (fun x => changeCavern c
          (fun r => { r with state := .outOfService, command := .driveClose, travel := none }) x.ev)
        reply) ∧
    (takes (.cavernServiceOut t c 1) s e → (s.cav c).state ≠ .shut → (s.cav c).state ≠ .tripped →
      (s.cav c).state ≠ .valveFault → refuses (.cavernServiceOut t c 1) s e .wrongState {}) ∧
    (takes (.cavernServiceOut t c k) s e → 2 ≤ k → refuses (.cavernServiceOut t c k) s e .badField ⟨.field, 2⟩) ∧
    (takes (.cavernEnable t c) s e → s.settling = false → s.tru.tripped = false →
      ((s.cav c).state = .shut ∨ (s.cav c).state = .tripped) → (s.cav c).quality = .good →
      (s.cav c).envelope = .inside → d.envelopeOf (s.cav c).pressure = .inside →
      completes (.cavernEnable t c) s e
        (fun x => changeCavern c
          (fun r => { r with state := .opening, command := .driveOpen, travel := some (x.after d.travel) }) x.ev)
        reply) ∧
    (takes (.cavernEnable t c) s e →
      (s.settling = true → refuses (.cavernEnable t c) s e .settling {}) ∧
      (s.settling = false → s.tru.tripped = true → refuses (.cavernEnable t c) s e .tripped {}) ∧
      (s.settling = false → s.tru.tripped = false → (s.cav c).state ≠ .shut → (s.cav c).state ≠ .tripped →
        refuses (.cavernEnable t c) s e .wrongState {}) ∧
      (s.settling = false → s.tru.tripped = false → ((s.cav c).state = .shut ∨ (s.cav c).state = .tripped) →
        ((s.cav c).quality ≠ .good ∨ (s.cav c).envelope ≠ .inside ∨
          (s.cav c).pressure < (d.pMin : Int) - d.margin ∨ (d.pMax : Int) + d.margin < (s.cav c).pressure) →
        refuses (.cavernEnable t c) s e .notReady {}))

/-- CAVERN_SHUT (R28): OPENING and the open states begin a closure towards SHUT, SHUT and CLOSING change nothing, the
rest refuse. SET_MERIT_ORDER (R37) replaces a list whole and re-steps the planner; it is refused with BAD_FIELD naming
the first entry that is no present cavern or repeats an earlier one, and with NO_SUCH while CAVERNS is INVALID, which
comes before the entries are judged by the model's choice (log entry 11). The bodies of the replies are the model's
form (log entry 9). -/
def Obligations.CavernShutAndMeritOrder : Prop :=
  ∀ (s : State) (e : QEntry) (t c dir : Nat) (d : CavernDef) (l : List Nat),
    let reply (x : State) : List Fld := [b1 (x.cav c).state.code, b1 (x.cav c).position.code, b1 (x.cav c).command.code]
    (takes (.cavernShut t c) s e → c < 8 → s.cavDef c = some d →
      ((s.cav c).state = .opening ∨ (s.cav c).state.isOpen = true →
        completes (.cavernShut t c) s e
          (fun x => changeCavern c (fun r =>
            { r with
              setpoint := 0, command := .driveClose, travel := some (x.after d.travel), target := some .shut
              state := .closing }) x.ev) reply) ∧
      ((s.cav c).state = .shut ∨ (s.cav c).state = .closing → completes (.cavernShut t c) s e State.ev reply) ∧
      ((s.cav c).state = .outOfService ∨ (s.cav c).state = .tripped ∨ (s.cav c).state = .valveFault →
        refuses (.cavernShut t c) s e .wrongState {})) ∧
    (takes (.setMeritOrder t dir l) s e → dir < 2 → s.pst.caverns.live ≠ none → l.Nodup →
      (∀ i ∈ l, s.cavDef i ≠ none) →
      completes (.setMeritOrder t dir l) s e
        (fun x => (if dir = 0 then ({ x with cvc := { x.cvc with injMerit := l } } : State).ev
          else ({ x with cvc := { x.cvc with wdMerit := l } } : State).ev).hand true)
        fun _ => l.map b1) ∧
    (takes (.setMeritOrder t dir l) s e → dir < 2 →
      let offends (i : Nat) : Prop := i < l.length ∧ (s.cavDef (l.getD i 0) = none ∨ l.getD i 0 ∈ l.take i)
      (s.pst.caverns.live = none → refuses (.setMeritOrder t dir l) s e .noSuch {}) ∧
      (s.pst.caverns.live ≠ none → ∀ i, offends i → (∀ j, j < i → ¬offends j) →
        refuses (.setMeritOrder t dir l) s e .badField ⟨.field, min (2 + i) 255⟩))

/-- A change of a cavern's limit inputs is recorded, and completes the travel of a cavern that is OPENING or CLOSING
(R22, R27, R29). Inputs that stay as they are change nothing (log entry 2), and outside running they are recorded only
(log entry 6). -/
def Obligations.ValvePositionCompletesTravel : Prop :=
  ∀ (s : State) (c : Nat) (o k : Bool), c < s.cvc.caverns.length →
    let x : State := s.updCav c fun r => { r with openLimit := o, closedLimit := k }
    ((s.cav c).openLimit = o → (s.cav c).closedLimit = k → exec (.valveLimitChange c o k) s = .next s) ∧
    ((s.cav c).openLimit ≠ o ∨ (s.cav c).closedLimit ≠ k →
      (s.phase ≠ .running → exec (.valveLimitChange c o k) s = .next x) ∧
      (s.phase = .running → (s.cav c).state = .opening → o = true → k = false →
        happens (.valveLimitChange c o k) s fun _ =>
          changeCavern c (fun r => { r with state := .idle, setpoint := 0, travel := none }) x.ev) ∧
      (s.phase = .running → (s.cav c).state = .closing → (s.cav c).target = some .shut → o = false → k = true →
        happens (.valveLimitChange c o k) s fun _ =>
          changeCavern c (fun r => { r with state := .shut, target := none, travel := none }) x.ev) ∧
      (s.phase = .running → (s.cav c).state = .closing → (s.cav c).target = some .tripped → o = false → k = true →
        happens (.valveLimitChange c o k) s fun _ =>
          changeCavern c (fun r => { r with state := .tripped, target := none, travel := none }) x.ev) ∧
      (s.phase = .running → ((s.cav c).state = .opening → ¬(o = true ∧ k = false)) →
        ((s.cav c).state = .closing → ¬(o = false ∧ k = true)) →
        happens (.valveLimitChange c o k) s fun _ => changeCavern c id x.ev)) ∧
    x.cav c = { s.cav c with openLimit := o, closedLimit := k } ∧
    (x.cav c).position = (if o then (if k then .unknown else .opened) else if k then .closed else .travel)

/-- A travel deadline that passes takes a travelling cavern, and an open or closed one out of position, to VALVE_FAULT;
a failure during a trip closure is handed to the Trip Unit (R23, R27, R29). A dwell that passes clears the last
direction, and a cavern in DWELL becomes IDLE (R35). Before its
deadline neither expiry does anything (log entry 2). -/
def Obligations.CavernDeadlinesExpire : Prop :=
  ∀ (s : State) (c : Nat), s.phase = .running →
    let fault : State → Ev := fun x => changeCavern c (fun r =>
      { r with state := .valveFault, target := none, command := .driveClose, setpoint := 0, travel := none }) x.ev
    (due s.clock (s.cav c).travel = true →
      ((s.cav c).state = .opening ∨ ((s.cav c).state = .closing ∧ (s.cav c).target ≠ some .tripped) →
        happens (.travelDeadlineExpiry c) s fault) ∧
      ((s.cav c).state = .closing → (s.cav c).target = some .tripped →
        happens (.travelDeadlineExpiry c) s fun x => secondFailure c (fault x)) ∧
      ((s.cav c).state.isOpen = true → (s.cav c).position ≠ .opened → happens (.travelDeadlineExpiry c) s fault) ∧
      ((s.cav c).state.isClosed = true → (s.cav c).position ≠ .closed → happens (.travelDeadlineExpiry c) s fault)) ∧
    (due s.clock (s.cav c).travel = false → exec (.travelDeadlineExpiry c) s = .next s) ∧
    (due s.clock (s.cav c).dwell = true →
      happens (.dwellExpiry c) s fun x => changeCavern c (fun r =>
        { r with dwell := none, last := .none, state := if r.state = .dwell then .idle else r.state }) x.ev) ∧
    (due s.clock (s.cav c).dwell = false → exec (.dwellExpiry c) s = .next s)

/-- What a trip command does to a cavern, by its state and the command's scope (R30). -/
def Obligations.TripCommandActsByState : Prop :=
  ∀ (s : State) (d : CavernDef) (r : Cavern) (station : Bool),
    let closing : Cavern :=
      { r with
        setpoint := 0, command := .driveClose, travel := some (s.after d.travel), target := some .tripped
        state := .closing }
    (r.state = .opening ∨ r.state.isOpen = true → r.trip station s d = closing) ∧
    (r.state = .closing → r.trip station s d = { r with target := some .tripped }) ∧
    (r.state = .shut → r.trip true s d = r) ∧
    (r.state = .shut → r.position = .closed → r.trip false s d = { r with state := .tripped, travel := none }) ∧
    (r.state = .shut → r.position ≠ .closed → r.trip false s d = closing) ∧
    (r.state = .tripped ∨ r.state = .valveFault ∨ r.state = .outOfService → r.trip station s d = r)

/-! ### Compressor duty -/

/-- UNIT_MAINTENANCE (R42): taken in OFF, RESTING, FAILED and LOCKED_OUT, changing nothing but state and command;
changing nothing in MAINTENANCE; refused in STARTING, RUNNING and STOPPING. RESET_LOCKOUT (R44): in LOCKED_OUT, refused
while the running feedback is PRESENT, and otherwise OFF with failures, rest and command cleared and nothing else
changed; refused in every other state. The reply carries state, duty and command (3.3), a byte each (log entry 9). -/
def Obligations.MaintenanceAndLockoutReset : Prop :=
  ∀ (s : State) (e : QEntry) (t u : Nat) (d : UnitDef), u < 6 → s.unitDef u = some d →
    let reply (x : State) : List Fld :=
      [b1 (x.unit u).state.code, b1 (dutyCode (x.unit u).duty), b1 (x.unit u).command.code]
    (takes (.unitMaintenance t u) s e →
      ((s.unit u).state = .off ∨ (s.unit u).state = .resting ∨ (s.unit u).state = .failed ∨
          (s.unit u).state = .lockedOut →
        completes (.unitMaintenance t u) s e
          (fun x => (x.updUnit u fun r => { r with state := .maintenance, command := .stop }).ev) reply) ∧
      ((s.unit u).state = .maintenance → completes (.unitMaintenance t u) s e State.ev reply) ∧
      ((s.unit u).state = .starting ∨ (s.unit u).state = .running ∨ (s.unit u).state = .stopping →
        refuses (.unitMaintenance t u) s e .wrongState {})) ∧
    (takes (.resetLockout t u) s e →
      ((s.unit u).state = .lockedOut → (s.unit u).feedback = true → refuses (.resetLockout t u) s e .notReady {}) ∧
      ((s.unit u).state = .lockedOut → (s.unit u).feedback = false →
        completes (.resetLockout t u) s e
          (fun x => (x.updUnit u fun r => { r with failures := 0, rest := none, state := .off, command := .stop }).ev)
          reply) ∧
      ((s.unit u).state ≠ .lockedOut → refuses (.resetLockout t u) s e .wrongState {}))

/-- UNIT_AVAILABLE (R43), refused by the first line of its table that applies: SETTLING, WRONG_STATE, NOT_READY;
SET_DUTY (R45), refused with WRONG_STATE outside OFF, MAINTENANCE and LOCKED_OUT; SET_DUTY_ORDER (R46), refused with
NO_SUCH while PLANT is INVALID and with BAD_FIELD naming the first entry that is not of the duty's list or repeats an
earlier one (that the range of the duty and the INVALID group come before what else refuses, and that a list which
omits a unit offends at the place after its end, is the model's choice, log entry 11). The bodies of the replies are
the model's form (log entry 9). A PLANT write (R40) leaves a unit that stays present as it is; one that becomes present
is OFF in the duty at entry, at the end of its list, and locked out as uncommanded while its running feedback is
PRESENT (R41); an absent one is in MAINTENANCE with no deadline and in no list. -/
def Obligations.UnitReturnsAndDutiesChange : Prop :=
  (∀ (ev : Ev) (v : List Int),
    let l := (plantOf v).units
    let x := applyWrite .plant v ev
    (∀ q : Duty, (x.s.duty q).order =
      (ev.s.duty q).order.filter (fun u => 6 ≤ u || (l.getD u {}).present && (ev.s.unit u).present) ++
        (List.range 6).filter fun u =>
          (l.getD u {}).present && !(ev.s.unit u).present && (l.getD u {}).duty == q) ∧
    ∀ u, u < 6 → u < ev.s.cdm.units.length →
      let d := l.getD u {}
      let r := ev.s.unit u
      (d.present = true → r.present = true → x.s.unit u = r) ∧
      (d.present = true → r.present = false → r.feedback = false → x.s.unit u =
        { r with present := true, state := .off, command := .stop, failures := 0, duty := d.duty }) ∧
      (d.present = true → r.present = false → r.feedback = true →
        x.s.unit u =
          { r with
            present := true, state := .lockedOut, command := .stop, failures := 0, duty := d.duty, start := none
            stop := none, minRun := none, minRunTaken := false, rest := none } ∧
        ⟨.unitLockedOut, some u, .cause .uncommanded⟩ ∈ x.raised) ∧
      (d.present = false → x.s.unit u =
        { r with
          present := false, state := .maintenance, command := .stop, start := none, stop := none, minRun := none
          minRunTaken := false, rest := none })) ∧
  ∀ (s : State) (e : QEntry) (t u k : Nat) (d : UnitDef) (q : Duty) (l : List Nat),
    let reply (x : State) : List Fld :=
      [b1 (x.unit u).state.code, b1 (dutyCode (x.unit u).duty), b1 (x.unit u).command.code]
    (takes (.unitAvailable t u) s e → u < 6 → s.unitDef u = some d → s.settling = false →
      (s.unit u).state = .maintenance → (s.unit u).feedback = false →
      ((∃ x, (s.unit u).rest = some x ∧ passed s.clock x = false) →
        completes (.unitAvailable t u) s e
          (fun x => (x.updUnit u fun r => { r with failures := 0, state := .resting }).ev) reply) ∧
      ((∀ x, (s.unit u).rest = some x → passed s.clock x = true) →
        completes (.unitAvailable t u) s e
          (fun x => (x.updUnit u fun r => { r with failures := 0, rest := none, state := .off }).ev) reply)) ∧
    (takes (.setDuty t u k) s e → u < 6 → s.unitDef u = some d → dutyOfCode k = some q →
      ((s.unit u).state = .off ∨ (s.unit u).state = .maintenance ∨ (s.unit u).state = .lockedOut) →
      ((s.unit u).duty = q → completes (.setDuty t u k) s e State.ev reply) ∧
      ((s.unit u).duty ≠ q →
        completes (.setDuty t u k) s e
          (fun x => ((x.leaveDuty u).updUnit u fun r => { r with duty := q }).updDuty q
            (fun y => { y with order := y.order ++ [u] }) |>.ev) reply)) ∧
    (takes (.unitAvailable t u) s e → u < 6 → s.unitDef u = some d →
      (s.settling = true → refuses (.unitAvailable t u) s e .settling {}) ∧
      (s.settling = false → (s.unit u).state ≠ .maintenance → refuses (.unitAvailable t u) s e .wrongState {}) ∧
      (s.settling = false → (s.unit u).state = .maintenance → (s.unit u).feedback = true →
        refuses (.unitAvailable t u) s e .notReady {})) ∧
    (takes (.setDuty t u k) s e → u < 6 →
      (2 ≤ k → refuses (.setDuty t u k) s e .badField ⟨.field, 2⟩) ∧
      (k < 2 → s.unitDef u = some d → (s.unit u).state ≠ .off → (s.unit u).state ≠ .maintenance →
        (s.unit u).state ≠ .lockedOut → refuses (.setDuty t u k) s e .wrongState {})) ∧
    (takes (.setDutyOrder t k l) s e → s.pst.plant.live ≠ none → dutyOfCode k = some q → l.Nodup →
      (∀ i, i ∈ l ↔ i ∈ (s.duty q).order) → (s.duty q).order.Nodup →
      completes (.setDutyOrder t k l) s e (fun x => (x.updDuty q fun y => { y with order := l }).ev)
        fun _ => l.map b1) ∧
    (takes (.setDutyOrder t k l) s e → dutyOfCode k = some q →
      let offends (i : Nat) : Prop := i < l.length ∧ (l.getD i 0 ∉ (s.duty q).order ∨ l.getD i 0 ∈ l.take i)
      (s.pst.plant.live = none → refuses (.setDutyOrder t k l) s e .noSuch {}) ∧
      (s.pst.plant.live ≠ none → ∀ i, offends i → (∀ j, j < i → ¬offends j) →
        refuses (.setDutyOrder t k l) s e .badField ⟨.field, min (2 + i) 255⟩) ∧
      (s.pst.plant.live ≠ none → (∀ i, ¬offends i) → l.length < (s.duty q).order.length →
        refuses (.setDutyOrder t k l) s e .badField ⟨.field, min (2 + l.length) 255⟩))

/-- A change of a unit's running feedback is recorded, in every phase (log entry 6), and does what the unit's state makes
of it (R41): STARTING becomes RUNNING, with failures 0, one start more and the minimum run deadline set (R51); a stop is
complete and the rest deadline set (R54); a loss in RUNNING and uncommanded running lock the unit out, with command STOP,
no deadline and no place in a running order, UNIT_LOCKED_OUT carrying the cause (R41, R55), and a loss removing a
stop-pending deadline whose candidate the unit is and handing the planner the drop (R55, R56). Elsewhere only the record
changes. A level that is already there changes nothing (log entry 2). -/
def Obligations.RunningFeedbackActsByState : Prop :=
  ∀ (s : State) (u : Nat) (p : Bool), u < s.cdm.units.length →
    let x : State := s.updUnit u fun r => { r with feedback := p }
    let locked : State := x.updUnit u fun r =>
      { r with
        state := .lockedOut, command := .stop, start := none, stop := none, minRun := none, minRunTaken := false
        rest := none }
    let away (keep : Option PendingTimer → Option PendingTimer) (q : DutyRec) : DutyRec :=
      { q with running := q.running.filter (· != u), stopPending := keep q.stopPending }
    let out (keep : Option PendingTimer → Option PendingTimer) : State :=
      { locked with cdm :=
        { locked.cdm with inject := away keep locked.cdm.inject, boost := away keep locked.cdm.boost } }
    (x.unit u = { s.unit u with feedback := p } ∧ ∀ v, v ≠ u → x.unit v = s.unit v) ∧
    ((s.unit u).feedback = p → exec (.unitRunningInputChange u p) s = .next s) ∧
    ((s.unit u).feedback ≠ p →
      (s.phase ≠ .running → exec (.unitRunningInputChange u p) s = .next x) ∧
      (s.phase = .running → p = true →
        (∀ d, (s.unit u).state = .starting → s.unitDef u = some d →
          happens (.unitRunningInputChange u p) s fun _ =>
            (x.updUnit u fun r =>
              { r with
                state := .running, start := none, failures := 0, startCount := min (r.startCount + 1) 4294967295
                minRun := some (s.after d.minRun), minRunTaken := false }).ev.hand true) ∧
        ((s.unit u).state = .off ∨ (s.unit u).state = .resting ∨ (s.unit u).state = .failed →
          happens (.unitRunningInputChange u p) s fun _ =>
            raise .unitLockedOut (some u) (out id).ev (.cause .uncommanded)) ∧
        ((s.unit u).state = .running ∨ (s.unit u).state = .stopping ∨ (s.unit u).state = .lockedOut ∨
            (s.unit u).state = .maintenance →
          exec (.unitRunningInputChange u p) s = .next x)) ∧
      (s.phase = .running → p = false →
        (∀ d, (s.unit u).state = .stopping → s.unitDef u = some d →
          exec (.unitRunningInputChange u p) s = .next (x.updUnit u fun r =>
            { r with state := .resting, stop := none, rest := some (s.after d.minRest) })) ∧
        ((s.unit u).state = .running →
          happens (.unitRunningInputChange u p) s fun _ =>
            raise .unitLockedOut (some u)
              ((out (Option.filter fun t => t.candidate != some u)).ev.hand true) (.cause .runLost)) ∧
        ((s.unit u).state ≠ .stopping → (s.unit u).state ≠ .running →
          exec (.unitRunningInputChange u p) s = .next x)))

/-- A unit's deadlines (R48, R52, R54): a start that fails, twice in a row locking out, the events carrying the
failures and the cause; a stop that completes, or whose failure is handed to the Trip Unit with the unit's index; a
rest that ends OFF; a start-history entry that ages out from the head (that one behind a younger entry waits for it is
the model's choice, log entry 37). -/
def Obligations.UnitDeadlinesExpire : Prop :=
  ∀ (s : State) (u : Nat) (h : Clk) (l : List Clk), s.phase = .running →
    ((s.unit u).state = .starting → due s.clock (s.unit u).start = true →
      ((s.unit u).failures = 0 →
        happens (.startDeadlineExpiry u) s fun x => raise .startFailed (some u)
          ((x.updUnit u fun r =>
            { r with
              command := .stop, start := none, failures := 1, state := .failed
              rest := x.restUntil u }).leaveOrder u).ev (.failures 1)) ∧
      ((s.unit u).failures = 1 →
        happens (.startDeadlineExpiry u) s fun x => raise .unitLockedOut (some u) (raise .startFailed (some u)
          ((x.updUnit u fun r =>
            { r with command := .stop, start := none, failures := 2, state := .lockedOut, rest := none }).leaveOrder
              u).ev (.failures 2)) (.cause .start))) ∧
    ((s.unit u).state = .stopping → due s.clock (s.unit u).stop = true →
      ((s.unit u).feedback = false → exec (.stopDeadlineExpiry u) s = .next (s.completeStop u)) ∧
      ((s.unit u).feedback = true →
        happens (.stopDeadlineExpiry u) s fun x =>
          (x.updUnit u fun r => { r with stop := none }).ev.launch { code := 0x060, unit := some u })) ∧
    ((s.unit u).state = .resting ∨ (s.unit u).state = .failed → due s.clock (s.unit u).rest = true →
      exec (.restDeadlineExpiry u) s = .next (s.updUnit u fun r => { r with state := .off, rest := none })) ∧
    ((s.unit u).history = h :: l → u < s.cdm.units.length → passed s.clock (h + 3600#32) = true →
      ∃ t, exec (.startHistoryAgeOut u) s = .next t ∧ (t.unit u).history = l ∧
        ∀ v, v ≠ u → t.unit v = s.unit v)

/-- A pending start or stop deadline and a minimum run that pass bring a review of their duty (R49, R50, R53); that each
expiry is taken once, by its mark, is the model's choice (log entry 19). A review of a duty that is not short removes
its start-pending deadline; of a short one it sets it where none stands, with the first eligible unit as candidate and
its start delay, or without one and at once (R49); where the deadline has passed and no unit is eligible it raises
START_DEFERRED and leaves the deadline, its expiry taken (R50). It removes the stop-pending deadline where no stop is
warranted, sets one afresh for a new candidate with its stop delay, and waits for the candidate's minimum run (R53). A
review starts the first eligible unit of a short duty whose start-pending deadline has passed, one unit a review (R50,
R51; log entry 34), a shortage that is left being timed afresh, and stops the last unit of the running order when it is
warranted, its stop-pending deadline and its minimum run passed, timing a surplus that is left afresh against the new
last-started unit (R53); while the station is TRIPPED it starts no unit (R49, R156). -/
def Obligations.PendingDeadlinesReview : Prop :=
  (∀ (q : Duty) (ev : Ev) (u : Nat), ev.s.tru.tripped = true →
    ((review q ev).s.unit u).state.counts = true → (ev.s.unit u).state.counts = true) ∧
  (∀ (q : Duty) (ev : Ev) (u : Nat) (d : UnitDef) (p : PendingTimer), u < ev.s.cdm.units.length →
    ev.s.unitDef u = some d → p.taken = true ∨ passed ev.s.clock p.deadline = true →
    (ev.s.tru.tripped = false → ev.s.short q = true → (ev.s.duty q).startPending = some p → ev.s.eligible q = some u →
      (reviewStart q ev).s.unit u =
        { ev.s.unit u with
          command := .run, state := .starting, history := (ev.s.unit u).history ++ [ev.s.clock]
          start := some (ev.s.after d.startTimeout) } ∧
      ((reviewStart q ev).s.duty q).running = (ev.s.duty q).running ++ [u] ∧
      (let y := (reviewStart q ev).s
      (y.short q = false → (y.duty q).startPending = none) ∧
      (y.short q = true → y.eligible q = none →
        (y.duty q).startPending = some { deadline := ev.s.clock, candidate := none, taken := false }) ∧
      (∀ v k, y.short q = true → y.eligible q = some v → y.unitDef v = some k →
        (y.duty q).startPending = some { deadline := ev.s.after k.startDelay, candidate := some v, taken := false }))) ∧
    ((ev.s.duty q).running.getLast? = some u → (ev.s.unit u).state = .running →
      (ev.s.duty q).demand + d.rated ≤ ev.s.runningCapacity q → (ev.s.duty q).stopPending = some p →
      p.candidate = some u →
      (ev.s.unit u).minRunTaken = true ∨ (ev.s.unit u).minRun = none ∨ due ev.s.clock (ev.s.unit u).minRun = true →
      (reviewStop q ev).s.unit u =
        { ev.s.unit u with
          command := .stop, state := .stopping, start := none, minRun := none, minRunTaken := false
          stop := some (ev.s.after d.stopTimeout) } ∧
      ((reviewStop q ev).s.duty q).running = without (ev.s.duty q).running u ∧
      (let y := (reviewStop q ev).s
      (∀ v k, (y.duty q).running.getLast? = some v → (y.unit v).state = .running → y.unitDef v = some k →
        (y.duty q).demand + k.rated ≤ y.runningCapacity q →
        (y.duty q).stopPending = some { deadline := ev.s.after k.stopDelay, candidate := some v, taken := false }) ∧
      ((∀ v, (y.duty q).running.getLast? = some v → (y.unit v).state = .running →
          y.runningCapacity q < (y.duty q).demand + y.rated v) →
        (y.duty q).stopPending = none)))) ∧
  (∀ (q : Duty) (ev : Ev),
    let start (t : Option PendingTimer) : Ev := ev.map fun s => s.updDuty q fun x => { x with startPending := t }
    let now := ev.s.clock
    (ev.s.tru.tripped = true ∨ ev.s.short q = false → reviewStart q ev = start none) ∧
    (ev.s.tru.tripped = false → ev.s.short q = true →
      (∀ u d, (ev.s.duty q).startPending = none → ev.s.eligible q = some u → ev.s.unitDef u = some d →
        reviewStart q ev =
          reviewStart q (start (some { deadline := ev.s.after d.startDelay, candidate := some u, taken := false }))) ∧
      ((ev.s.duty q).startPending = none → ev.s.eligible q = none →
        reviewStart q ev = reviewStart q (start (some { deadline := now, candidate := none, taken := false }))) ∧
      (∀ p, (ev.s.duty q).startPending = some p →
        (p.taken = false → passed now p.deadline = false → reviewStart q ev = ev) ∧
        (p.taken = true ∨ passed now p.deadline = true → ev.s.eligible q = none →
          reviewStart q ev = raise .startDeferred (some (dutyCode q)) (start (some { p with taken := true }))))) ∧
    (∀ u, ev.s.eligible q = some u ↔ (ev.s.duty q).order.find? (fun v =>
      (ev.s.unit v).state == .off &&
        (ev.s.unitDef v).any fun d => (ev.s.unit v).history.length < d.budget) = some u)) ∧
  (∀ (q : Duty) (ev : Ev),
    let stop (t : Option PendingTimer) : Ev := ev.map fun s => s.updDuty q fun x => { x with stopPending := t }
    let warranted (u : Nat) : Prop :=
      (ev.s.duty q).running.getLast? = some u ∧ (ev.s.unit u).state = .running ∧
      (ev.s.duty q).demand + ev.s.rated u ≤ ev.s.runningCapacity q
    ((∀ u, ¬warranted u) → reviewStop q ev = stop none) ∧
    (∀ u d, warranted u → ev.s.unitDef u = some d →
      ((∀ p, (ev.s.duty q).stopPending = some p → p.candidate ≠ some u) →
        reviewStop q ev =
          reviewStop q (stop (some { deadline := ev.s.after d.stopDelay, candidate := some u, taken := false }))) ∧
      (∀ p, (ev.s.duty q).stopPending = some p → p.candidate = some u →
        (p.taken = false → passed ev.s.clock p.deadline = false → reviewStop q ev = ev) ∧
        (p.taken = true ∨ passed ev.s.clock p.deadline = true → (ev.s.unit u).minRunTaken = false →
          (∃ m, (ev.s.unit u).minRun = some m ∧ passed ev.s.clock m = false) →
          reviewStop q ev = stop (some { p with taken := true }))))) ∧
  ∀ (s : State) (q : Duty) (u : Nat) (p : PendingTimer), s.phase = .running →
    ((s.duty q).startPending = some p → p.taken = false → passed s.clock p.deadline = true →
      happens (.startPendingExpiry q) s fun x => review q x.ev) ∧
    ((s.duty q).stopPending = some p → p.taken = false → passed s.clock p.deadline = true →
      happens (.stopPendingExpiry q) s fun x => review q x.ev) ∧
    ((s.unit u).minRunTaken = false → due s.clock (s.unit u).minRun = true →
      u ∈ (s.duty (s.unit u).duty).running → u < s.cdm.units.length →
      happens (.minimumRunExpiry u) s fun x =>
        review (s.unit u).duty (x.updUnit u fun r => { r with minRunTaken := true }).ev)

/-! ### Drying trains -/

/-- The state of a train and the capacity it counts, by the first line of the table of R62 that applies. A PLANT write
(R61) leaves a train that stays present as it is, begins one that becomes present with two beds of unknown history, and
takes an absent one out of service with no deadline and no switch, an opening inlet shut. Watches whose source has
ceased to exist become DISARMED, keeping flag and latch (R146; the latch is log entry 48's choice), and each loading
figure that the group has changed is a new value of its watches (R142; that a figure which a PLANT write changes is
one, where R79 names a hand-off and a change of which tower adsorbs, is log entry 23's choice; before the units are
brought into line, log entry 13). -/
def Obligations.TrainStateByTable : Prop :=
  (∀ (ev : Ev) (v : List Int) (n : Nat), n < 4 → n < ev.s.dtc.trains.length →
    let d := (plantOf v).trains.getD n {}
    let r := ev.s.train n
    let x := (applyWrite .plant v ev).s
    let unknown (w : Tower) : Tower :=
      { w with
        state := .regenerating, loading := 0, residue := 0, step := some (ev.s.after d.regen), inletOpen := false }
    let idle (incoming : Bool) (w : Tower) : Tower :=
      { w with step := none, inletOpen := if incoming then false else w.inletOpen }
    (d.present = true → r.present = true → x.train n = r) ∧
    (d.present = true → r.present = false → x.train n =
      { present := true, inService := false, offSpec := false, offSpecDeadline := none, switch := none
        towerA := unknown r.towerA, towerB := unknown r.towerB }) ∧
    (d.present = false → x.train n =
      { present := false, inService := false, offSpec := false, offSpecDeadline := none, switch := none
        towerA := idle (r.switch.any (·.incoming == .a)) r.towerA
        towerB := idle (r.switch.any (·.incoming == .b)) r.towerB })) ∧
  (∀ (ev : Ev) (v : List Int),
    let share (s : State) (n : Nat) : Nat :=
      ((s.trainDef n).map fun d =>
        ((s.train n).adsorbing.map fun w => ((s.train n).tower w).loading * 1000 / d.water).getD 0).getD 0
    let told (e : Ev) (n : Nat) : Ev :=
      if share ev.s n = share e.s n then e else newWatchValue (· == .trainLoading n) (share e.s n) e
    ∃ z : State,
      applyWrite .plant v ev = (fitUnits true ((List.range 4).foldl told { ev with s := z })).map (fun y =>
        y.settleAfterWrite.enterCommit .plant) ∧
      z.dtc = (applyWrite .plant v ev).s.dtc ∧ z.pst.plant.live = some (plantOf v) ∧ z.cdm = ev.s.cdm ∧
      z.wnu.watches = ev.s.wnu.watches.map fun w =>
        { w with
          state := if (w.state = .armed ∨ w.state = .fired) ∧ w.defn.any (fun d => z.sourceGone d.source) = true then
              .disarmed
            else w.state }) ∧
  ∀ (d : TrainDef) (r : Train),
    r.state none = .offline ∧ r.counted none = 0 ∧
    (r.inService = false → r.state (some d) = .offline ∧ r.counted (some d) = 0) ∧
    (r.inService = true → r.offSpec = true → r.state (some d) = .offSpec ∧ r.counted (some d) = 0) ∧
    (r.inService = true → r.offSpec = false → r.full d = true →
      r.state (some d) = .saturated ∧ r.counted (some d) = 0) ∧
    (r.inService = true → r.offSpec = false → r.full d = false → r.switch ≠ none →
      r.state (some d) = .switching ∧ r.counted (some d) = d.capacity) ∧
    (r.inService = true → r.offSpec = false → r.full d = false → r.switch = none →
      r.state (some d) = .online ∧ r.counted (some d) = d.capacity)

/-- Water charged to a tower (R65): nothing of energy × factor is lost between loading and residue, until the loading
stands at its ceiling. A hand-off of energy to a train charges its ADSORBING tower by the factor of its inlet
temperature, the greatest of the table on a LOST one (R64), checks for a switch (R66) and hands the planner the net
change of the capacity counted (R78; that the event's own comings and goings bring no re-step is log entry 13); with no
ADSORBING tower it raises WET_GAS, and at an absent train it does nothing. -/
def Obligations.WaterChargeLosesNothing : Prop :=
  (∀ (ev : Ev) (n e : Nat),
    (ev.s.trainDef n = none → handOff n e ev = ev) ∧
    ∀ d, ev.s.trainDef n = some d →
      ((ev.s.train n).adsorbing = none → handOff n e ev = raise .wetGas (some n) ev) ∧
      (∀ w, (ev.s.train n).adsorbing = some w →
        let y := checkSwitch n d
          (changeTrain n (fun r => r.updTower w (Tower.charge e (ev.s.waterFactor d))) ev)
        (handOff n e ev).s = y.s ∧ (handOff n e ev).launches = y.launches ∧ (handOff n e ev).raised = y.raised ∧
        ((handOff n e ev).restep = true ↔
          ev.restep = true ∨ (ev.s.train n).counted (some d) ≠ (y.s.train n).counted (some d))) ∧
      ((ev.s.chan d.inletChannel).quality ≠ .lost →
        ev.s.waterFactor d = (interpolate ev.s.waterTable (ev.s.chan d.inletChannel).value).toNat) ∧
      ((ev.s.chan d.inletChannel).quality = .lost → (∀ p ∈ ev.s.waterTable, 0 ≤ p.2) →
        (∀ p ∈ ev.s.waterTable, p.2 ≤ ev.s.waterFactor d) ∧
        (ev.s.waterTable ≠ [] → ∃ p ∈ ev.s.waterTable, p.2 = ev.s.waterFactor d))) ∧
  ∀ (e f : Nat) (w : Tower), w.loading ≤ 4294967295 →
    let c := w.charge e f
    c.residue < 10000000 ∧
    (c.loading < 4294967295 → c.loading * 10000000 + c.residue = w.loading * 10000000 + w.residue + e * f) ∧
    c.loading ≤ 4294967295 ∧ w.loading ≤ c.loading ∧
    c = { w with loading := c.loading, residue := c.residue }

/-- TRAIN_ONLINE (R74), refused by the first line of its table that applies, also on a train already in service (the
model's choice, log entry 11): SETTLING, or NOT_READY with one of its channels in loop check or no bed to dry with;
TRAIN_OFFLINE (R75); FORCE_SWITCHOVER (R76), refused with BUSY while a switch is in flight and with NOT_READY where
there is no ADSORBING tower or the other is not STANDBY; and RESET_TOWER, refused with BAD_FIELD for a tower other than
A and B (4.6, R77): a FAULT tower becomes REGENERATING with its loading and residue kept, and a tower in any other
state refuses. The bodies of the replies are the model's form (log entries 9 and 10). A train comes into service in the
order of R74: the beds, the switch of a full one, the dew point, the check of R66, the planner handed the net change of
the capacity counted (that comings and goings within the event bring no re-step, and that a switch completed at once
and the loading watches come before what follows them, is the model's choice, log entry 13). A switch that begins opens
the incoming inlet and sets the deadline, and is complete at once where the incoming tower shows open already (R67,
R68). A change of a train's record leaves the other trains as they are, hands the planner a change of the capacity
counted (R78), and raises TRAIN_SATURATED where that condition begins to hold in service (R62). -/
def Obligations.TrainsGoOnlineOfflineAndSwitch : Prop :=
  (∀ (ev : Ev) (n : Nat) (f : Train → Train) (d : TrainDef), n < ev.s.dtc.trains.length → ev.s.trainDef n = some d →
    let x := changeTrain n f ev
    let before := ev.s.train n
    let after := f before
    x.s.train n = after ∧ (∀ m, m ≠ n → x.s.train m = ev.s.train m) ∧
    (before.counted (some d) ≠ after.counted (some d) → x.restep = true) ∧
    (before.counted (some d) = after.counted (some d) → x.restep = ev.restep) ∧
    (after.inService = true → after.full d = true → ¬(before.inService = true ∧ before.full d = true) →
      x.raised = ev.raised ++ [⟨.trainSaturated, some n, .none⟩]) ∧
    (¬(after.inService = true ∧ after.full d = true) ∨ (before.inService = true ∧ before.full d = true) →
      x.raised = ev.raised)) ∧
  (∀ (ev : Ev) (n : Nat) (d : TrainDef) (w : TowerId), n < ev.s.dtc.trains.length →
    let r := ev.s.train n
    ((r.tower w).feedback = false → (beginSwitch n d w ev).s.train n =
      ({ r with switch := some ⟨w, ev.s.after d.travel⟩ }.updTower w fun z => { z with inletOpen := true })) ∧
    ((r.tower w).feedback = true → (beginSwitch n d w ev).s.train n =
      (({ r with switch := none }.updTower (otherTower w) fun z =>
        { z with inletOpen := false, state := .regenerating, step := some (ev.s.after d.regen) }).updTower w fun z =>
        { z with state := .adsorbing, inletOpen := true }))) ∧
  (∀ (ev : Ev) (n : Nat) (d : TrainDef), n < ev.s.dtc.trains.length →
    let take (z : Tower) : Tower := { z with state := .adsorbing, inletOpen := true }
    let beds (r : Train) : Train :=
      if r.towerA.state = .adsorbing ∨ r.towerB.state = .adsorbing then { r with inService := true }
      else if r.towerA.state = .standby then { r with inService := true, towerA := take r.towerA }
      else if r.towerB.state = .standby then { r with inService := true, towerB := take r.towerB }
      else { r with inService := true }
    let a := changeTrain n beds ev
    let b := match (a.s.train n).switchTarget with
      | some w => if (a.s.train n).full d then beginSwitch n d w a else a
      | none => a
    let dew := b.s.chan d.dewChannel
    let c := if dew.quality = .lost then
        raise .trainOffSpec (some n) (changeTrain n (fun r => { r with offSpec := true, offSpecDeadline := none }) b)
      else changeTrain n (fun r => if r.inService then (if r.offSpec then
            (if dew.value ≤ d.dewLimit - d.hysteresis then { r with offSpec := false } else r)
          else if dew.value > d.dewLimit then
            { r with offSpecDeadline := r.offSpecDeadline.or (some (b.s.after d.dwell)) }
          else { r with offSpecDeadline := none }) else r) b
    let y := checkSwitch n d c
    let z := intoService n d ev
    z.s = y.s ∧ z.launches = y.launches ∧ z.raised = y.raised ∧ (z.restep = true ↔ ev.restep = true ∨
      (ev.s.train n).counted (ev.s.trainDef n) ≠ (y.s.train n).counted (y.s.trainDef n))) ∧
  ∀ (s : State) (e : QEntry) (t n k : Nat) (d : TrainDef) (w : TowerId), n < 4 → s.trainDef n = some d →
    (takes (.trainOnline t n) s e → s.settling = false → s.inCheck d.dewChannel = false →
      s.inCheck d.inletChannel = false → (s.train n).hasBed d = true →
      ((s.train n).inService = false →
        completes (.trainOnline t n) s e (fun x => intoService n d x.ev) (·.trainReply n)) ∧
      ((s.train n).inService = true → completes (.trainOnline t n) s e State.ev (·.trainReply n))) ∧
    (takes (.trainOnline t n) s e →
      (s.settling = true → refuses (.trainOnline t n) s e .settling {}) ∧
      (s.settling = false → s.inCheck d.dewChannel = true ∨ s.inCheck d.inletChannel = true →
        refuses (.trainOnline t n) s e .notReady {}) ∧
      (s.settling = false →
        (∀ y, ((s.train n).tower y).state ≠ .standby ∧
          (((s.train n).tower y).state = .adsorbing → d.water ≤ ((s.train n).tower y).loading)) →
        refuses (.trainOnline t n) s e .notReady {})) ∧
    (takes (.trainOffline t n) s e →
      ((s.train n).inService = true →
        completes (.trainOffline t n) s e
          (fun x => changeTrain n
            (fun r => { r with inService := false, offSpec := false, offSpecDeadline := none }) x.ev)
          (·.trainReply n)) ∧
      ((s.train n).inService = false → completes (.trainOffline t n) s e State.ev (·.trainReply n))) ∧
    (takes (.forceSwitchover t n) s e → (s.train n).switch = none → (s.train n).adsorbing = some (otherTower w) →
      ((s.train n).tower w).state = .standby →
      (s.train n).switchTarget = some w ∧ completes (.forceSwitchover t n) s e (fun x => beginSwitch n d w x.ev) fun x =>
        x.trainReply n ++ [b1 (towerCode w), optU 2 ((x.train n).switch.map fun y => left x.clock y.deadline)]) ∧
    (takes (.forceSwitchover t n) s e →
      ((s.train n).switch ≠ none → refuses (.forceSwitchover t n) s e .busy {}) ∧
      ((s.train n).switch = none →
        (∀ y, (s.train n).adsorbing = some y → ((s.train n).tower (otherTower y)).state ≠ .standby) →
        refuses (.forceSwitchover t n) s e .notReady {})) ∧
    (takes (.resetTower t n k) s e → 2 ≤ k → refuses (.resetTower t n k) s e .badField ⟨.field, 2⟩) ∧
    (takes (.resetTower t n k) s e → towerOfCode k = some w → ((s.train n).tower w).state = .fault →
      completes (.resetTower t n k) s e
        (fun x => changeTrain n (fun r => r.updTower w fun y =>
          { y with state := .regenerating, step := some (x.after d.regen) }) x.ev) (·.trainReply n)) ∧
    (takes (.resetTower t n k) s e → towerOfCode k = some w → ((s.train n).tower w).state ≠ .fault →
      refuses (.resetTower t n k) s e .wrongState {})

/-- A tower's open feedback is recorded, and completes a switch to it; a switch that fails to complete makes the
incoming tower FAULT (R63, R68, R69). A feedback that stays as it is changes nothing (log entry 2), and outside
running it is recorded only (log entry 6). -/
def Obligations.SwitchesCompleteOrFail : Prop :=
  ∀ (s : State) (n : Nat) (w : TowerId) (m : Bool) (d : TrainDef) (x : Switch),
    let y : State := s.updTrain n fun r => r.updTower w fun z => { z with feedback := m }
    (((s.train n).tower w).feedback = m → exec (.towerFeedbackChange n w m) s = .next s) ∧
    (((s.train n).tower w).feedback ≠ m → s.phase ≠ .running → exec (.towerFeedbackChange n w m) s = .next y) ∧
    (((s.train n).tower w).feedback ≠ m → s.phase = .running →
      (m = false ∨ (s.train n).switch.any (·.incoming == w) = false →
        exec (.towerFeedbackChange n w m) s = .next y) ∧
      (m = true → s.trainDef n = some d → n < s.dtc.trains.length → (s.train n).switch = some x → x.incoming = w →
        happens (.towerFeedbackChange n w m) s fun _ => changeTrain n (fun r =>
          (({ r with switch := none }.updTower (otherTower w) fun z =>
            { z with inletOpen := false, state := .regenerating, step := some (y.after d.regen) }).updTower w fun z =>
            { z with state := .adsorbing, inletOpen := true })) y.ev)) ∧
    (s.phase = .running → (s.train n).switch = some x → passed s.clock x.deadline = true →
      happens (.switchDeadlineExpiry n) s fun z => changeTrain n (fun r =>
        { r with switch := none }.updTower x.incoming fun v => { v with state := .fault, inletOpen := false }) z.ev)

/-- A tower's step that ends: REGENERATING goes on to COOLING, COOLING to STANDBY with loading and residue 0 and the
train checked for a switch (R70). An off-spec deadline that passes sets the mark, raises TRAIN_OFF_SPEC and begins a
switch where one can be made (R72). The check of R66 begins a switch in service where the loading of the ADSORBING tower
has reached the switch point and a switch can be made: none is in flight and the other tower is STANDBY (R67). -/
def Obligations.TowerStepsAndOffSpecExpire : Prop :=
  (∀ r : Train,
    (r.towerA.state = .adsorbing → r.adsorbing = some .a) ∧
    (r.towerA.state ≠ .adsorbing → r.towerB.state = .adsorbing → r.adsorbing = some .b) ∧
    (r.towerA.state ≠ .adsorbing → r.towerB.state ≠ .adsorbing → r.adsorbing = none) ∧
    ∀ w, r.switchTarget = some w ↔
      r.switch = none ∧ r.adsorbing = some (otherTower w) ∧ (r.tower w).state = .standby) ∧
  (∀ (ev : Ev) (n : Nat) (d : TrainDef),
    let r := ev.s.train n
    (∀ w, r.switchTarget = some w → r.inService = true →
      d.water * d.fraction / 1000 ≤ (r.tower (otherTower w)).loading → checkSwitch n d ev = beginSwitch n d w ev) ∧
    (r.switchTarget = none → checkSwitch n d ev = ev) ∧ (r.inService = false → checkSwitch n d ev = ev) ∧
    (∀ w, r.switchTarget = some w → (r.tower (otherTower w)).loading < d.water * d.fraction / 1000 →
      checkSwitch n d ev = ev)) ∧
  ∀ (s : State) (n : Nat) (w : TowerId) (d : TrainDef), s.phase = .running → s.trainDef n = some d →
    n < s.dtc.trains.length →
    let marked (x : State) : Ev := raise .trainOffSpec (some n)
      (changeTrain n (fun r => { r with offSpec := true, offSpecDeadline := none }) x.ev)
    (due s.clock ((s.train n).tower w).step = true → ((s.train n).tower w).state = .regenerating →
      happens (.towerStepExpiry n w) s fun x => changeTrain n (fun r => r.updTower w fun z =>
        { z with state := .cooling, step := some (x.after d.cool) }) x.ev) ∧
    (due s.clock ((s.train n).tower w).step = true → ((s.train n).tower w).state = .cooling →
      happens (.towerStepExpiry n w) s fun x => checkSwitch n d (changeTrain n (fun r => r.updTower w fun z =>
        { z with state := .standby, loading := 0, residue := 0, step := none }) x.ev)) ∧
    ((s.train n).inService = true → due s.clock (s.train n).offSpecDeadline = true →
      ((s.train n).switchTarget = none → happens (.offSpecExpiry n) s marked) ∧
      ((s.train n).switchTarget = some w → happens (.offSpecExpiry n) s fun x => beginSwitch n d w (marked x)))

/-! ### Shipper accounts and nominations -/

/-- OPEN_ACCOUNT (R83), refused on an index that is not CLOSED, and then at the first field that is out of range or a
code that is 0 or held by another account (that order is the model's choice, log entry 11), SUSPEND_ACCOUNT and
RESUME_ACCOUNT, refused on a CLOSED account (R85, R86), and CLOSE_ACCOUNT, refused naming the condition that fails: the
account state, the inventory or the first slot with a nonzero confirmation (R87). That the inventory is judged before
the confirmations, so that CLOSE_ACCOUNT of an account that has both names condition 7, is the model's choice (log
entry 11), and so is that the class is kept in the record of a CLOSED account (log entry 50). The bodies of the replies
are the model's form (log entry 9). -/
def Obligations.AccountsOpenSuspendAndClose : Prop :=
  ∀ (s : State) (e : QEntry) (t a code cls space rin rwd : Nat) (k : AccountClass), a < 32 →
    (takes (.openAccount t a code cls space rin rwd) s e → (s.account a).state = .closed → s.codeFree a code = true →
      classOfCode cls = some k → space ≤ 4000000000 → rin ≤ 99999999 → rwd ≤ 99999999 →
      completes (.openAccount t a code cls space rin rwd) s e
        (fun x => (x.updAccount a fun _ =>
          { state := .opened, code := code, cls := k, space := space, rin := rin, rwd := rwd, inventory := 0, fuel := 0
            mark := true, book := List.replicate 48 {} }).ev) (·.accountReply a)) ∧
    (takes (.openAccount t a code cls space rin rwd) s e →
      let bad (i : Nat) : Prop :=
        (i = 2 ∧ (code = 0 ∨ 65535 < code ∨
          ∃ b, b < 32 ∧ b ≠ a ∧ (s.account b).state ≠ .closed ∧ (s.account b).code = code)) ∨
        (i = 3 ∧ 2 ≤ cls) ∨ (i = 4 ∧ 4000000000 < space) ∨ (i = 5 ∧ 99999999 < rin) ∨ (i = 6 ∧ 99999999 < rwd)
      ((s.account a).state ≠ .closed →
        refuses (.openAccount t a code cls space rin rwd) s e .wrongState {}) ∧
      ((s.account a).state = .closed → ∀ i, bad i → (∀ j, j < i → ¬bad j) →
        refuses (.openAccount t a code cls space rin rwd) s e .badField ⟨.field, i⟩)) ∧
    (takes (.suspendAccount t a) s e →
      ((s.account a).state = .opened →
        completes (.suspendAccount t a) s e
          (fun x => reconfirm (if x.acb.loaded then x.acb.running + 1 else x.acb.running)
            (x.updAccount a fun r => { r with state := .suspended, mark := true }).ev) (·.accountReply a)) ∧
      ((s.account a).state = .suspended → completes (.suspendAccount t a) s e State.ev (·.accountReply a)) ∧
      ((s.account a).state = .closed → refuses (.suspendAccount t a) s e .wrongState {})) ∧
    (takes (.resumeAccount t a) s e →
      ((s.account a).state = .suspended →
        completes (.resumeAccount t a) s e
          (fun x => reconfirm (if x.acb.loaded then x.acb.running + 1 else x.acb.running)
            (x.updAccount a fun r => { r with state := .opened, mark := true }).ev) (·.accountReply a)) ∧
      ((s.account a).state = .opened → completes (.resumeAccount t a) s e State.ev (·.accountReply a)) ∧
      ((s.account a).state = .closed → refuses (.resumeAccount t a) s e .wrongState {})) ∧
    (takes (.closeAccount t a) s e →
      ((s.account a).state = .closed → refuses (.closeAccount t a) s e .wrongState ⟨.condition, 6⟩) ∧
      ((s.account a).state ≠ .closed → (s.account a).inventory ≠ 0 →
        refuses (.closeAccount t a) s e .wrongState ⟨.condition, 7⟩) ∧
      ((s.account a).state ≠ .closed → (s.account a).inventory = 0 →
        ∀ j, s.acb.running ≤ j → j < 48 → ((s.account a).slot j).c ≠ 0 →
          (∀ i, s.acb.running ≤ i → i < j → ((s.account a).slot i).c = 0) →
          refuses (.closeAccount t a) s e .wrongState ⟨.slot, j⟩) ∧
      ((s.account a).state ≠ .closed → (s.account a).inventory = 0 →
        (∀ j, s.acb.running ≤ j → j < 48 → ((s.account a).slot j).c = 0) →
        completes (.closeAccount t a) s e
          (fun x => ((x.updAccount a fun r =>
            { r with
              state := .closed, code := 0, space := 0, rin := 0, rwd := 0, fuel := 0, book := List.replicate 48 {}
              mark := true }).disarm).ev) (·.accountReply a)))

/-- ACCOUNTS_READY, which sets the open period start and is refused while the clock is UNSET (R81, R139);
LOAD_INVENTORY, refused under a LOADED book, on a CLOSED account and above the space right (R84); SET_RIGHTS, refused
on a CLOSED account, at a field out of range and below the inventory now or at the hour's end (R88); TRANSFER, refused
by the first line of its table that applies (R89). That a quantity of LOAD_INVENTORY out of range is refused before the
rest, that the refusals of LOAD_INVENTORY and SET_RIGHTS come in the order of the text, and that a TRANSFER from an
account to itself offends at field 2, is the model's choice (log entry 11). The bodies of the replies, that of TRANSFER
being the source's record and then the destination's, are the model's form (log entry 9), and that the watches on the
source's inventory take their new value before those on the destination's is its choice (log entry 13). -/
def Obligations.BookIsReadiedAndInventoriesMove : Prop :=
  ∀ (s : State) (e : QEntry) (t a b q space rin rwd : Nat), a < 32 →
    (takes (.accountsReady t) s e →
      (s.mu.set = false → refuses (.accountsReady t) s e .clockUnset {}) ∧
      (s.mu.set = true → s.acb.loaded = true → completes (.accountsReady t) s e State.ev State.bookReply) ∧
      (s.mu.set = true → s.acb.loaded = false →
        completes (.accountsReady t) s e
          (fun x => reconfirm x.acb.running
            ({ x with
              acb := { x.acb with loaded := true }
              su := { x.su with openStart := some (periodStart x.mu.clock) } } : State).ev) State.bookReply)) ∧
    (takes (.loadInventory t a q) s e → q ≤ 4000000000 → s.acb.loaded = false → (s.account a).state ≠ .closed →
      q ≤ (s.account a).space →
      completes (.loadInventory t a q) s e
        (fun x => reconfirm x.acb.running (setInventory a q (x.updAccount a fun r => { r with mark := true }).ev))
        (·.accountReply a)) ∧
    (takes (.loadInventory t a q) s e →
      (4000000000 < q → refuses (.loadInventory t a q) s e .badField ⟨.field, 2⟩) ∧
      (q ≤ 4000000000 → s.acb.loaded = true ∨ (s.account a).state = .closed →
        refuses (.loadInventory t a q) s e .wrongState {}) ∧
      (q ≤ 4000000000 → s.acb.loaded = false → (s.account a).state ≠ .closed → (s.account a).space < q →
        refuses (.loadInventory t a q) s e .noSpace {})) ∧
    (takes (.setRights t a space rin rwd) s e → (s.account a).state ≠ .closed → space ≤ 4000000000 →
      rin ≤ 99999999 → rwd ≤ 99999999 → (s.account a).inventory ≤ space →
      (s.account a).inventory + ((s.account a).slot s.acb.running).c ≤ space →
      completes (.setRights t a space rin rwd) s e
        (fun x => reconfirm (if x.acb.loaded then x.acb.running + 1 else x.acb.running)
          (x.updAccount a fun r => { r with space := space, rin := rin, rwd := rwd, mark := true }).ev)
        (·.accountReply a)) ∧
    (takes (.setRights t a space rin rwd) s e →
      let bad (i : Nat) : Prop :=
        (i = 2 ∧ 4000000000 < space) ∨ (i = 3 ∧ 99999999 < rin) ∨ (i = 4 ∧ 99999999 < rwd)
      ((s.account a).state = .closed → refuses (.setRights t a space rin rwd) s e .wrongState {}) ∧
      ((s.account a).state ≠ .closed →
        (∀ i, bad i → (∀ j, j < i → ¬bad j) →
          refuses (.setRights t a space rin rwd) s e .badField ⟨.field, i⟩) ∧
        ((∀ i, ¬bad i) →
          (space : Int) < (s.account a).inventory ∨
            (space : Int) < (s.account a).inventory + ((s.account a).slot s.acb.running).c →
          refuses (.setRights t a space rin rwd) s e .noSpace {}))) ∧
    (takes (.transfer t a b q) s e →
      (32 ≤ b ∨ b = a → refuses (.transfer t a b q) s e .badField ⟨.field, 2⟩) ∧
      (b < 32 → b ≠ a → q = 0 ∨ 4000000000 < q → refuses (.transfer t a b q) s e .badField ⟨.field, 3⟩) ∧
      (b < 32 → b ≠ a → 1 ≤ q → q ≤ 4000000000 →
        ((s.account a).state ≠ .opened ∨ (s.account b).state ≠ .opened →
          refuses (.transfer t a b q) s e .wrongState {}) ∧
        ((s.account a).state = .opened → (s.account b).state = .opened →
          let promised : Int := max 0 (-((s.account a).slot s.acb.running).c)
          ((s.account a).inventory - q < promised → refuses (.transfer t a b q) s e .insufficient {}) ∧
          (promised ≤ (s.account a).inventory - q →
            (s.account b).space < (s.account b).inventory + q + max 0 ((s.account b).slot s.acb.running).c →
            refuses (.transfer t a b q) s e .noSpace {})))) ∧
    (takes (.transfer t a b q) s e → b < 32 → b ≠ a → 1 ≤ q → q ≤ 4000000000 → (s.account a).state = .opened →
      (s.account b).state = .opened →
      max 0 (-((s.account a).slot s.acb.running).c) ≤ (s.account a).inventory - q →
      (s.account b).inventory + q + max 0 ((s.account b).slot s.acb.running).c ≤ (s.account b).space →
      completes (.transfer t a b q) s e
        (fun x => reconfirm (if x.acb.loaded then x.acb.running + 1 else x.acb.running)
          (setInventory b ((s.account b).inventory + q) (setInventory a ((s.account a).inventory - q) x.ev)))
        fun x => x.accountReply a ++ x.accountReply b)

/-- NOMINATE and DECLARE_CAPACITY, refused with an UNSET clock, at a field out of range, on an account that is not OPEN
and for a slot that is too late (R90, R91; that those of DECLARE_CAPACITY come in the order of the text is the model's
choice, log entry 11), and READ_CHANGED (R92). What a SITE group that has come into force does to the book (R101): a
new start hour empties an UNLOADED book, makes every capacity slot NOMINAL and takes the running slot from a set clock
(the count from 0 at the wrap until the first start hour after it is the model's choice, log entry 25); the NOMINAL
slots from the first open one on take the nominal capacities, those before it keep theirs, and while SITE is INVALID
every one holds 0 (R91); a re-confirmation from the first open slot follows where a write changed the nominal
capacities, the ratchet tables or the start hour (R99), or, at a start, where a capacity slot took another value (R102;
that a slot which an INVALID SITE sets to 0 counts is log entry 39's choice). That a start compares its start hour with
that of the group before, or 6 where there was none or is none now, and that another start hour under a LOADED book
changes nothing by itself, is the model's choice (log entry 28). The bodies of the replies are the model's form (log
entry 9). -/
def Obligations.NominationsAndCapacitiesTaken : Prop :=
  (∀ (old : Option Site) (load : Bool) (ev : Ev),
    let hour := ev.s.startHour
    let clock := ev.s.mu.clock.toNat
    let nominal : CapSlot :=
      { inj := (ev.s.site.map Site.nomInj).getD 0, wd := (ev.s.site.map Site.nomWd).getD 0, declared := false }
    let emptied : Acb :=
      { ev.s.acb with
        running := if ev.s.mu.set then
            (if hour * 3600 ≤ clock then (clock - hour * 3600) % 86400 / 3600 else clock / 3600)
          else ev.s.acb.running
        accounts := ev.s.acb.accounts.map fun a =>
          { a with book := List.replicate 48 {}, mark := a.mark || a.book.any fun x => x.c != 0 }
        caps := List.replicate 48 nominal }
    let b : Acb := if (old.map Site.startHour).getD 6 ≠ hour ∧ ev.s.acb.loaded = false then emptied else ev.s.acb
    let first : Nat := if b.loaded = true then b.running + 1 else b.running
    let caps := b.caps.mapIdx fun k c =>
      if c.declared = true ∨ (ev.s.site ≠ none ∧ k < first) then c else nominal
    let values (l : List CapSlot) : List (Nat × Nat) := l.map fun c => (c.inj, c.wd)
    let reached : Prop :=
      (load = true ∧ values caps ≠ values ev.s.acb.caps) ∨
      (load = false ∧ ((old.map Site.nomInj).getD 0 ≠ nominal.inj ∨ (old.map Site.nomWd).getD 0 ≠ nominal.wd ∨
        old.map Site.injRatchet ≠ ev.s.site.map Site.injRatchet ∨
        old.map Site.wdRatchet ≠ ev.s.site.map Site.wdRatchet ∨
        ((old.map Site.startHour).getD 6 ≠ hour ∧ ev.s.acb.loaded = false)))
    let y : Ev := { ev with s := { ev.s with acb := { b with caps := caps } } }
    (reached → siteToBook old load ev = reconfirm first y) ∧ (¬reached → siteToBook old load ev = y)) ∧
  ∀ (s : State) (e : QEntry) (t a k inj wd : Nat) (n : Int),
    (takes (.nominate t a k n) s e → s.mu.set = true → a < 32 → k < 48 → n.natAbs ≤ 99999999 →
      (s.account a).state = .opened →
      (s.acb.running + s.leadTime ≤ k →
        completes (.nominate t a k n) s e
          (fun x => reconfirm k (x.updAccount a fun r =>
            { r with book := r.book.modify k fun y => { y with n := n, nominated := true } }).ev)
          fun x => [b1 a, b1 k, i4 n, i4 ((x.account a).slot k).c, b1 ((x.account a).slot k).reason.code]) ∧
      (k < s.acb.running + s.leadTime → refuses (.nominate t a k n) s e .tooLate {})) ∧
    (takes (.declareCapacity t k inj wd) s e → s.mu.set = true → k < 48 → inj ≤ 99999999 → wd ≤ 99999999 →
      (s.acb.running < k →
        completes (.declareCapacity t k inj wd) s e
          (fun x => reconfirm k
            ({ x with acb :=
              { x.acb with
                caps := x.acb.caps.modify k fun _ => { inj := inj, wd := wd, declared := true } } } : State).ev)
          fun x => [b1 k, b4 inj, b4 wd, i8 (x.netConfirmed k)]) ∧
      (k ≤ s.acb.running → refuses (.declareCapacity t k inj wd) s e .tooLate {})) ∧
    (takes (.nominate t a k n) s e →
      let bad (i : Nat) : Prop := (i = 1 ∧ 32 ≤ a) ∨ (i = 2 ∧ 48 ≤ k) ∨ (i = 3 ∧ 99999999 < n.natAbs)
      (s.mu.set = false → refuses (.nominate t a k n) s e .clockUnset {}) ∧
      (s.mu.set = true →
        (∀ i, bad i → (∀ j, j < i → ¬bad j) → refuses (.nominate t a k n) s e .badField ⟨.field, i⟩) ∧
        ((∀ i, ¬bad i) → (s.account a).state ≠ .opened → refuses (.nominate t a k n) s e .wrongState {}))) ∧
    (takes (.declareCapacity t k inj wd) s e →
      let bad (i : Nat) : Prop := (i = 1 ∧ 48 ≤ k) ∨ (i = 2 ∧ 99999999 < inj) ∨ (i = 3 ∧ 99999999 < wd)
      (s.mu.set = false → refuses (.declareCapacity t k inj wd) s e .clockUnset {}) ∧
      (s.mu.set = true → ∀ i, bad i → (∀ j, j < i → ¬bad j) →
        refuses (.declareCapacity t k inj wd) s e .badField ⟨.field, i⟩)) ∧
    (takes (.readChanged t) s e →
      completes (.readChanged t) s e
        (fun x => ({ x with acb :=
          { x.acb with accounts := x.acb.accounts.map fun r => { r with mark := false } } } : State).ev)
        fun _ => ((List.range 32).filter fun i => (s.account i).mark).map b1)

/-- An account confirmed on its own (R95): by the table of cases and reasons, with the sign of the nomination and never
more than it. A ratcheted right is the right × rate ‰ at the fill of the projection in the account's space, truncated,
an account without space standing at fill 1,000, and the right itself while SITE is INVALID (R94). The value of a table
lies on the segment between two adjacent points, the quotient truncated toward zero, and is the first point's below it,
the last's at and above it (R64, R94). -/
def Obligations.ConfirmationStaysWithinNomination : Prop :=
  (∀ (l : List (Int × Int)) (x : Int), l.Pairwise (fun a b => a.1 < b.1) →
    (∀ p v, l.head? = some (p, v) → x < p → interpolate l x = v) ∧
    (∀ p v, l.getLast? = some (p, v) → p ≤ x → interpolate l x = v) ∧
    ∀ (i : Nat) (p v p' v' : Int), l[i]? = some (p, v) → l[i + 1]? = some (p', v') → p ≤ x → x < p' →
      interpolate l x = v + ((v' - v) * (x - p)).tdiv (p' - p)) ∧
  (∀ (t : List (Int × Int)) (right space : Nat) (p : Int),
    ratcheted none right space p = right ∧
    (space = 0 → ratcheted (some t) right space p = right * (interpolate t 1000).toNat / 1000) ∧
    (space ≠ 0 →
      ratcheted (some t) right space p = right * (interpolate t ((p * 1000).tdiv space)).toNat / 1000)) ∧
  ∀ (site : Option Site) (a : Account) (n p : Int),
    let c := (a.confirm site n p).1
    let why := (a.confirm site n p).2
    let rin : Int := ratcheted (site.map Site.injRatchet) a.rin a.space p
    let rwd : Int := ratcheted (site.map Site.wdRatchet) a.rwd a.space p
    (a.state = .suspended → c = 0 ∧ why = .suspended) ∧
    (a.state ≠ .suspended → n = 0 → c = 0 ∧ why = .none) ∧
    (a.state ≠ .suspended → 0 < n → c = min (min n rin) (max 0 (a.space - p)) ∧
      why = (if c = n then .none else if c = rin then .rate else .space)) ∧
    (a.state ≠ .suspended → n < 0 → c = -(min (min (-n) rwd) (max 0 p)) ∧
      why = (if c = n then .none else if -c = rwd then .rate else .inventory)) ∧
    (0 ≤ n → 0 ≤ c ∧ c ≤ n) ∧ (n ≤ 0 → n ≤ c ∧ c ≤ 0)

/-- Proportional reduction (R96): each share is its truncated part and at most one unit more, the units going to the
largest remainders, the lower index first among equals; the shares sum to the total, none exceeds its weight, and within
the station pass's ranges no product reaches 2⁶³. -/
def Obligations.ProportionalReductionSharesTotal : Prop :=
  ∀ (q : Nat) (w : List Nat), 0 < sumNat w → q ≤ sumNat w →
    let share (i : Nat) : Nat := (proportional q w).getD i 0
    let part (i : Nat) : Nat := q * w.getD i 0 / sumNat w
    let rem (i : Nat) : Nat := q * w.getD i 0 % sumNat w
    (proportional q w).length = w.length ∧
    sumNat (proportional q w) = q ∧
    (∀ i, i < w.length → share i = part i ∨ (share i = part i + 1 ∧ rem i ≠ 0)) ∧
    (∀ i j, i < w.length → j < w.length → share i = part i → share j = part j + 1 →
      rem i < rem j ∨ (rem i = rem j ∧ j < i)) ∧
    (∀ i, share i ≤ w.getD i 0) ∧
    (q ≤ 32 * 99999999 → (∀ x ∈ w, x ≤ 99999999) → ∀ x ∈ w, q * x < 2 ^ 63)

/-- The station pass (R97): the net of the confirmations comes within the slot's capacities, and every confirmation
moves toward zero or stays; one that changes has reason STATION. Where the net is within the capacities nothing changes;
otherwise the side opposite to the excess is untouched, and a FIRM account gives only once every INTERRUPTIBLE one of
its side stands at 0. A re-confirmation (R98, R99) leaves the slots before the given one as they are, and in each later
slot confirms every account on its own at its projection, takes the station pass with the slot's capacities, and carries
the projections on by the result; it marks each account whose confirmed quantities differ and raises one CURTAILMENT for
it, carrying the lowest slot that changed (R92; that they come in ascending account index is the model's choice, log
entry 13). -/
def Obligations.StationPassHoldsNetToCapacity : Prop :=
  (∀ (cap : CapSlot) (classes : List AccountClass) (cs : List (Int × Reason)), classes.length = cs.length →
    let out := stationPass cap classes cs
    let c (i : Nat) : Int := (cs.getD i (0, .none)).1
    let c' (i : Nat) : Int := (out.getD i (0, .none)).1
    let interruptible (sign : Int) : Int := sumInt (List.zipWith (fun (k : AccountClass) (x : Int × Reason) =>
      if k = .interruptible then max 0 (sign * x.1) else 0) classes cs)
    let net : Int := sumInt (cs.map Prod.fst)
    out.length = cs.length ∧
    sumInt (out.map Prod.fst) = max (-(cap.wd : Int)) (min net cap.inj) ∧
    (∀ i, (0 ≤ c' i ∧ c' i ≤ c i) ∨ (c i ≤ c' i ∧ c' i ≤ 0)) ∧
    (∀ i, c' i ≠ c i → (out.getD i (0, .none)).2 = .station) ∧
    (∀ i, c' i = c i → out.getD i (0, .none) = cs.getD i (0, .none)) ∧
    (-(cap.wd : Int) ≤ net → net ≤ cap.inj → out = cs) ∧
    (cap.inj < net → ∀ i, c i ≤ 0 → c' i = c i) ∧
    (net < -(cap.wd : Int) → ∀ i, 0 ≤ c i → c' i = c i) ∧
    (net - cap.inj ≤ interruptible 1 → -net - cap.wd ≤ interruptible (-1) →
      ∀ i, classes[i]? = some .firm → c' i = c i) ∧
    (∀ i j, classes[i]? = some .firm → c' i ≠ c i → classes[j]? = some .interruptible →
      (0 < c i → 0 < c j → c' j = 0) ∧ (c i < 0 → c j < 0 → c' j = 0))) ∧
  ∀ (ev : Ev) (h : Nat), ev.s.acb.running ≤ h → h ≤ 48 → ev.s.acb.accounts.length = 32 →
    (∀ a ∈ ev.s.acb.accounts, a.book.length = 48) →
    let old := ev.s
    let y := reconfirm h ev
    let changed (a : Nat) : Option Nat :=
      (List.range 48).find? fun k => ((old.account a).slot k).c != ((y.s.account a).slot k).c
    y.s.acb = { old.acb with accounts := y.s.acb.accounts } ∧ y.s.acb.accounts.length = 32 ∧
    (∀ a, a < 32 → y.s.account a =
      { old.account a with
        book := (y.s.account a).book, mark := (old.account a).mark || (changed a).isSome }) ∧
    (∀ a k, a < 32 → k < h → (y.s.account a).slot k = (old.account a).slot k) ∧
    (∃ p : Nat → List Int,
      p h = old.acb.accounts.map (fun a =>
        a.inventory + sumInt ((List.range' old.acb.running (h - old.acb.running)).map fun j => (a.slot j).c)) ∧
      ∀ k, h ≤ k → k < 48 →
        let own := List.zipWith (fun (a : Account) x => a.confirm old.site (a.slot k).n x) old.acb.accounts (p k)
        let out := stationPass (old.capSlot k) (old.acb.accounts.map Account.cls) own
        p (k + 1) = List.zipWith (fun x (c : Int × Reason) => x + c.1) (p k) out ∧
        ∀ a, a < 32 → (y.s.account a).slot k =
          { (old.account a).slot k with
            c := (out.getD a (0, .none)).1, reason := (out.getD a (0, .none)).2 }) ∧
    y.raised = ev.raised ++ (List.range 32).filterMap fun a =>
      (changed a).map fun k => ⟨.curtailment, some a, .slot k⟩

/-! ### Flow planning -/

/-- DISPATCH_ENABLE makes the planner ACTIVE with a step, or is refused while settling, TRIPPED, with an UNSET clock, an
UNLOADED book or an INVALID group, named the lowest first; DISPATCH_HOLD makes it HELD with a step; the dispatch
interval takes one by the planner's state and begins anew (R105, R106, R107), and does nothing before its deadline
(log entry 2). The bodies of the replies are the model's form (log entry 9). -/
def Obligations.DispatchEnablesHoldsAndSteps : Prop :=
  ∀ (s : State) (e : QEntry) (t : Nat),
    (takes (.dispatchEnable t) s e →
      (s.fpl.active = true → tells (.dispatchEnable t) s e State.dispatchReply) ∧
      (s.fpl.active = false → s.settling = true → refuses (.dispatchEnable t) s e .settling {}) ∧
      (s.fpl.active = false → s.settling = false → s.tru.tripped = true → refuses (.dispatchEnable t) s e .tripped {}) ∧
      (s.fpl.active = false → s.settling = false → s.tru.tripped = false →
        (s.mu.set = false → refuses (.dispatchEnable t) s e .clockUnset {}) ∧
        (s.mu.set = true → s.acb.loaded = false → refuses (.dispatchEnable t) s e .unloaded {}) ∧
        (s.mu.set = true → s.acb.loaded = true →
          (s.pst.site.live = none → refuses (.dispatchEnable t) s e .wrongState ⟨.group, 0⟩) ∧
          (s.pst.site.live ≠ none → s.pst.caverns.live = none →
            refuses (.dispatchEnable t) s e .wrongState ⟨.group, 1⟩) ∧
          (s.pst.site.live ≠ none → s.pst.caverns.live ≠ none → s.pst.plant.live = none →
            refuses (.dispatchEnable t) s e .wrongState ⟨.group, 2⟩))) ∧
      (s.fpl.active = false → s.settling = false → s.tru.tripped = false → s.mu.set = true → s.acb.loaded = true →
        s.pst.site.live ≠ none → s.pst.caverns.live ≠ none → s.pst.plant.live ≠ none →
        completes (.dispatchEnable t) s e
          (fun x => activeStep .enable ({ x with fpl := { x.fpl with active := true } } : State).ev)
          State.dispatchReply)) ∧
    (takes (.dispatchHold t) s e →
      (s.fpl.active = true →
        completes (.dispatchHold t) s e
          (fun x => heldStep .hold ({ x with fpl := { x.fpl with active := false } } : State).ev) fun _ => [b1 0]) ∧
      (s.fpl.active = false → completes (.dispatchHold t) s e State.ev fun _ => [b1 0])) ∧
    (s.phase = .running → due s.clock s.fpl.dispatch = true →
      let next (x : State) : State :=
        { x with fpl := { x.fpl with dispatch := s.site.map fun p => s.after p.dispatchInterval } }
      (s.fpl.active = true → happens .dispatchIntervalExpiry s fun x => activeStep .interval (next x).ev) ∧
      (s.fpl.active = false → happens .dispatchIntervalExpiry s fun x => heldStep .interval (next x).ev)) ∧
    (due s.clock s.fpl.dispatch = false → exec .dispatchIntervalExpiry s = .next s)

/-- An active step's record (R104, R109 to R115): the required rate from target, energy so far and effective time; the
withdrawal limit, and the injection limit from the INJECT capacity that runs once the demands are handed; the INJECT
demand, and the BOOST demand, 0 but for a withdrawal, whose trial walk without a pool says what low-pressure caverns
would take (R114); both handed to the CDM; the setpoint held to the limits. A held step's setpoint and demands are 0,
and its limits stand (log entry 24). That a close kept over a start ends a day by the start hour in force now is the
model's choice (log entry 43), and so is that M1..M6 count as UNUSED in the energy so far while SITE is INVALID (log
entry 47). -/
def Obligations.PlannerStepFollowsFigures : Prop :=
  ∀ (ev : Ev) (cause : StepCause),
    let x := (activeStep cause ev).s
    let held := (heldStep cause ev).s
    let p := x.fpl
    let h := held.fpl
    let cap := ev.s.capSlot ev.s.periodSlot
    let r : Int := (p.figures.map Figures.required).getD 0
    let trial := ev.s.walk false (min r.natAbs p.wdLimit) none
    let left : Nat :=
      if 4294965600 ≤ ev.s.mu.clock.toNat then 4294967296 - ev.s.mu.clock.toNat
      else 3600 - ev.s.mu.clock.toNat % 3600
    (ev.s.acb.loaded = true → ev.s.mu.set = true → ∃ f, p.figures = some f ∧ h.figures = some f ∧
      f.slot = ev.s.periodSlot ∧ f.target = sumInt (ev.s.acb.accounts.map fun a => (a.slot ev.s.periodSlot).c) ∧
      f.soFar = ev.s.soFar ∧ f.timeLeft = left ∧ f.effective = max left ev.s.catchUpFloor ∧
      f.required = max (-99999999) (min 99999999 (((f.target - f.soFar) * 3600).tdiv f.effective))) ∧
    (ev.s.su.current = none → ev.s.periodSlot = ev.s.acb.running) ∧
    (∀ c, ev.s.su.current = some c →
      ev.s.periodSlot = if ev.s.endsDay c.due.start then 24 else ev.s.acb.running + 1) ∧
    ev.s.soFar = (sumInt ((List.range 6).map fun i =>
      match ev.s.runDir i with
      | .inject => ((ev.s.run i).acc : Int)
      | .withdraw => -((ev.s.run i).acc : Int)
      | .unused => 0)).tdiv 10000 ∧
    (ev.s.acb.loaded = false ∨ ev.s.mu.set = false → p.figures = none ∧ h.figures = none) ∧
    (p.injDemand : Int) = max 0 (min r (min ev.s.injSum (ev.s.capSlot ev.s.periodSlot).inj : Nat)) ∧
    p.setpoint = max (-(p.wdLimit : Int)) (min p.injLimit r) ∧
    p.wdLimit = min (min ev.s.wdSum ev.s.dryingCapacity) (ev.s.capSlot ev.s.periodSlot).wd ∧
    p.injLimit = min (min ev.s.injSum (x.runningCapacity .inject)) cap.inj ∧
    p.injSum = sumNat (ev.s.cvc.injMerit.map fun c => (ev.s.cav c).injPermit) ∧
    p.wdSum = sumNat (ev.s.cvc.wdMerit.map fun c => (ev.s.cav c).wdPermit) ∧
    (0 ≤ r → p.boostDemand = 0) ∧
    (r < 0 → p.boostDemand =
      sumNat (trial.orders.map fun o => if ev.s.lowPressure o.1 then o.2.magnitude else 0)) ∧
    (x.duty .inject).demand = p.injDemand ∧ (x.duty .boost).demand = p.boostDemand ∧
    (held.duty .inject).demand = 0 ∧ (held.duty .boost).demand = 0 ∧
    h.injLimit = min (min ev.s.injSum (held.runningCapacity .inject)) cap.inj ∧ h.wdLimit = p.wdLimit ∧
    p.lastStep = some (ev.s.mu.clock, cause) ∧ (activeStep cause ev).restep = false ∧
    h.setpoint = 0 ∧ h.injDemand = 0 ∧ h.boostDemand = 0 ∧ h.placed = 0 ∧ h.lastStep = some (ev.s.mu.clock, cause)

/-- The walk down the merit list (R117, R118): what it places and what it leaves make the amount it began with, no
cavern is given more than its permit, and low-pressure caverns draw no more than the boost pool. It goes down the list in
order: a cavern that flows in the direction, or is IDLE with no last direction against it, is assigned what remains up to
its permit, and a low-pressure one on a withdrawal no more than the pool holds; an IDLE cavern with its last direction
against the flow is ordered into DWELL while anything remains, and assigned 0 otherwise; any other is passed over. A step
hands every open cavern one order, as it found the caverns (R119): DWELL where it flows against the setpoint (R116), the
walk's order, or an assignment of 0; no walk is made for a setpoint of 0. An assignment is cut to the permit, 0 on a LOST
signal, and leaves DWELL alone (R34); a dwell order stops the flow and begins the dwell where none runs (R35). -/
def Obligations.WalkPlacesWithinPermitsAndPool : Prop :=
  (∀ (s : State) (inject : Bool) (amount pool : Nat),
    let w := s.walk inject amount none
    let b := s.walk false amount (some pool)
    sumNat (w.orders.map fun o => o.2.magnitude) + w.remaining = amount ∧
    (∀ o ∈ w.orders, o.2.magnitude ≤ (if inject then (s.cav o.1).injPermit else (s.cav o.1).wdPermit)) ∧
    sumNat (b.orders.map fun o => o.2.magnitude) + b.remaining = amount ∧
    (∀ o ∈ b.orders, o.2.magnitude ≤ (s.cav o.1).wdPermit) ∧
    (∀ left, b.pool = some left →
      sumNat (b.orders.map fun o => if s.lowPressure o.1 then o.2.magnitude else 0) + left = pool)) ∧
  (∀ (s : State) (inject : Bool) (amount : Nat) (pool : Option Nat),
    s.walk inject amount pool = (if inject then s.cvc.injMerit else s.cvc.wdMerit).foldl (s.walkStep inject)
      { remaining := amount, pool := pool, orders := [] }) ∧
  (∀ (s : State) (w : Walk) (c : Nat),
    let r := s.cav c
    let up := min w.remaining r.injPermit
    let down := min w.remaining r.wdPermit
    let away (o : Order) : Walk := { w with orders := w.orders ++ [(c, o)] }
    let against : Order := if 0 < w.remaining then .dwell else .rate 0
    (r.state = .injecting ∨ (r.state = .idle ∧ r.last ≠ .withdraw) → s.walkStep true w c =
      { w with remaining := w.remaining - up, orders := w.orders ++ [(c, .rate up)] }) ∧
    (r.state = .idle → r.last = .withdraw → s.walkStep true w c = away against) ∧
    (r.state ≠ .idle → r.state ≠ .injecting → s.walkStep true w c = w) ∧
    (r.state = .withdrawing ∨ (r.state = .idle ∧ r.last ≠ .inject) →
      (s.lowPressure c = false ∨ w.pool = none → s.walkStep false w c =
        { w with remaining := w.remaining - down, orders := w.orders ++ [(c, .rate (-(down : Int)))] }) ∧
      (∀ left, s.lowPressure c = true → w.pool = some left → s.walkStep false w c =
        { remaining := w.remaining - min down left, pool := some (left - min down left)
          orders := w.orders ++ [(c, .rate (-(min down left : Nat)))] })) ∧
    (r.state = .idle → r.last = .inject → s.walkStep false w c = away against) ∧
    (r.state ≠ .idle → r.state ≠ .withdrawing → s.walkStep false w c = w)) ∧
  ∀ (ev : Ev) (cause : StepCause),
    let x := (activeStep cause ev).s
    let held := (heldStep cause ev).s
    let sp := x.fpl.setpoint
    let pool := x.runningCapacity .boost
    let w : Walk := if sp = 0 then { remaining := 0, pool := none, orders := [] }
      else if 0 < sp then ev.s.walk true sp.toNat none else ev.s.walk false (-sp).toNat (some pool)
    x.fpl.placed = sumNat (w.orders.map fun o => o.2.magnitude) ∧ x.fpl.poolLeft = w.pool.getD pool ∧
    ∀ (c : Nat) (d : CavernDef), c < 8 → c < ev.s.cvc.caverns.length → ev.s.cavDef c = some d →
      let r := ev.s.cav c
      let assigned (v : Int) : Cavern :=
        let u : Int := if r.quality = .lost then 0
          else if 0 < v then min v r.injPermit else if v < 0 then max v (-(r.wdPermit : Int)) else 0
        if r.state = .dwell then r
        else if 0 < u then { r with state := .injecting, setpoint := u, last := .inject, dwell := none }
        else if u < 0 then { r with state := .withdrawing, setpoint := u, last := .withdraw, dwell := none }
        else { r with state := .idle, setpoint := 0 }
      let dwelling : Cavern :=
        if r.state = .injecting ∨ r.state = .withdrawing ∨ (r.state = .idle ∧ r.last ≠ .none) then
          { r with state := .dwell, setpoint := 0, dwell := r.dwell.or (some (ev.s.after d.dwell)) }
        else r
      let order : Order :=
        if (0 < sp ∧ r.state = .withdrawing) ∨ (sp < 0 ∧ r.state = .injecting) then .dwell
        else ((w.orders.find? fun o => o.1 == c).map Prod.snd).getD (.rate 0)
      (r.state.isOpen = false → x.cav c = r ∧ held.cav c = r) ∧
      (r.state.isOpen = true → order = .dwell → x.cav c = Cavern.followed ev.s d dwelling) ∧
      (∀ v, r.state.isOpen = true → order = .rate v → x.cav c = Cavern.followed ev.s d (assigned v)) ∧
      (r.state.isOpen = true → held.cav c = Cavern.followed ev.s d (assigned 0))

/-! ### Period close and allocation -/

/-- Every close balances: the allocations and the OBA allocation entry sum to the metered net energy, the fuel charges
and the OBA fuel entry to the fuel; the fuel, as far as the weights go, is shared out in proportion to the injectors'
allocations or, where no account has injected, to the withdrawers' (R129), and with neither it goes to the OBA; each
fuel share is cut to what the account holds after its allocation, which never binds for an injector, and the OBA fuel
entry lies in 0..F (R130, and the laws under R131). -/
def Obligations.EveryCloseBalances : Prop :=
  ∀ (t l : Nat) (b : Int) (eIn eOut f : Nat) (accounts : List Account) (slot : Nat),
    let r := settle t l b eIn eOut f accounts slot
    let hold (i : Nat) : Int := (accounts.getD i {}).inventory + r.a.getD i 0
    let injectors : List Nat := r.a.map Int.toNat
    let weights : List Nat := if 0 < sumNat injectors then injectors else r.a.map fun x => (-x).toNat
    let share (i : Nat) : Nat := (proportional (min f (sumNat weights)) weights).getD i 0
    r.a.length = accounts.length ∧ r.fuel.length = accounts.length ∧
    sumInt r.a + r.obaAlloc = (eIn : Int) - eOut ∧
    sumNat r.fuel + r.obaFuel = f ∧ r.obaFuel ≤ f ∧
    (∀ i, i < accounts.length → r.fuel.getD i 0 = min (share i) (hold i).toNat) ∧
    (∀ i, i < accounts.length → 0 < r.a.getD i 0 → (share i : Int) ≤ r.a.getD i 0 ∧
      (0 ≤ (accounts.getD i {}).inventory → r.fuel.getD i 0 = share i)) ∧
    (∀ i, i < accounts.length → 0 ≤ hold i → 0 ≤ hold i - r.fuel.getD i 0)

/-- The case of a close (R126), and what it leaves an account: its confirmation in TOLERANCE and OBA, and never more
than it, nor past zero, where a shortfall is shared out. A shortfall Q is taken from the side it concerns, in proportion
from the INTERRUPTIBLE accounts as far as they go; what is left in proportion from the FIRM ones, the INTERRUPTIBLE then
at 0; and what is left after both stands in the OBA allocation entry (R127, R128). -/
def Obligations.CloseCaseAndAllocations : Prop :=
  ∀ (t l : Nat) (b : Int) (eIn eOut f : Nat) (accounts : List Account) (slot : Nat),
    let r := settle t l b eIn eOut f accounts slot
    let c : Int := sumInt (accounts.map fun a => (a.slot slot).c)
    let d : Int := (eIn : Int) - eOut - c
    let short (sign : Int) : Prop :=
      let side (k : AccountClass) : List Nat :=
        accounts.map fun a => if a.cls = k then (sign * (a.slot slot).c).toNat else 0
      let i := side .interruptible
      let k := side .firm
      let q := d.natAbs
      (q ≤ sumNat i → r.obaAlloc = 0 ∧ ∀ n, n < accounts.length →
        r.a.getD n 0 = r.cs.getD n 0 - sign * (proportional q i).getD n 0) ∧
      (sumNat i < q → q ≤ sumNat i + sumNat k → r.obaAlloc = 0 ∧ ∀ n, n < accounts.length →
        r.a.getD n 0 = r.cs.getD n 0 - sign * (i.getD n 0 + (proportional (q - sumNat i) k).getD n 0 : Nat)) ∧
      (sumNat i + sumNat k < q → r.obaAlloc = -(sign * (q - sumNat i - sumNat k : Nat)) ∧
        ∀ n, n < accounts.length → r.a.getD n 0 = r.cs.getD n 0 - sign * (i.getD n 0 + k.getD n 0 : Nat))
    (d.natAbs ≤ t → (b + d).natAbs ≤ l → r.case = .tolerance) ∧
    (t < d.natAbs ∨ l < (b + d).natAbs →
      (0 < c → d < 0 → r.case = .shortInject) ∧ (c < 0 → 0 < d → r.case = .shortWithdraw) ∧
      (¬(0 < c ∧ d < 0) → ¬(c < 0 ∧ 0 < d) → r.case = .oba)) ∧
    (r.case = .tolerance ∨ r.case = .oba →
      r.a = accounts.map (fun a => (a.slot slot).c) ∧ r.obaAlloc = d) ∧
    (r.case = .shortInject → short 1) ∧ (r.case = .shortWithdraw → short (-1)) ∧
    r.cs = accounts.map (fun a => (a.slot slot).c) ∧ r.a.length = accounts.length ∧
    (∀ i, (0 ≤ r.a.getD i 0 ∧ r.a.getD i 0 ≤ r.cs.getD i 0) ∨ (r.cs.getD i 0 ≤ r.a.getD i 0 ∧ r.a.getD i 0 ≤ 0))

/-- OBA_ADJUST moves energy between an account and the operator's balance, or is refused by its table (R132). A live
boundary under a LOADED book enters the period that has ended, with its snapshot, and its close begins, or waits its
turn behind the one in flight (R122, R123); under an UNLOADED book the snapshot is discarded, the book takes the
boundary and is confirmed anew (R139). A close in flight completes in the order of R125: posting (R131), record (R134)
and ring (R135), running slot or day roll (R100), re-confirmation, skip (R138), the next close due, the planner's
re-step, PERIOD_CLOSED and DAY_ROLLED, OBA_LIMIT (R131). When no close is in flight any more the requests that waited,
and those behind them, are then taken in their order of arrival, each in its own event (R124, R179; within the command
is log entry 3's choice), but with a reset pending none is (R183). It leaves each inventory with its allocation added
and its fuel taken, the fuel in the day's account unless the day rolls, the balance with both OBA entries, the record
as the newest of 24, and the next close due in flight, or none. In OBA_ADJUST the watches on the inventory take their
new value before those on the balance, which is the model's choice (log entry 13). That an idle hour has case OBA in
its record is the model's choice (log entry 38), and so are that the running slot stops at 23 (log entry 28), that a
skip counts the running slot from 0 at the wrap until the next start hour (log entry 25), that the start hour in force
at the completion says whether the period ends a day (log entry 43), that closes begin and complete also while SITE is
INVALID (log entry 46), that a snapshot taken then counts M1..M6 as UNUSED and takes FUEL (log entry 47) and that a
completion with no close in flight does nothing (log entry 2). The bodies of the replies are the model's form (log
entry 9). -/
def Obligations.SettlementEventsApply : Prop :=
  (∀ (s : State) (e : QEntry) (t a : Nat) (q : Int),
    (takes (.obaAdjust t a q) s e → a < 32 → q ≠ 0 → q.natAbs ≤ 4000000000 → (s.account a).state = .opened →
      (q < 0 → max 0 (-((s.account a).slot s.acb.running).c) ≤ (s.account a).inventory + q) →
      (0 < q → (s.account a).inventory + q + max 0 ((s.account a).slot s.acb.running).c ≤ (s.account a).space) →
      completes (.obaAdjust t a q) s e
        (fun x => raiseObaLimit (reconfirm (if x.acb.loaded then x.acb.running + 1 else x.acb.running)
          (setBalance (x.su.balance - q) (setInventory a ((s.account a).inventory + q) x.ev))))
        fun x => [⟨4, (x.account a).inventory⟩, i8 x.su.balance]) ∧
    (takes (.obaAdjust t a q) s e → a < 32 →
      (q = 0 ∨ 4000000000 < q.natAbs → refuses (.obaAdjust t a q) s e .badField ⟨.field, 2⟩) ∧
      (q ≠ 0 → q.natAbs ≤ 4000000000 →
        ((s.account a).state ≠ .opened → refuses (.obaAdjust t a q) s e .wrongState {}) ∧
        ((s.account a).state = .opened → q < 0 →
          (s.account a).inventory + q < max 0 (-((s.account a).slot s.acb.running).c) →
          refuses (.obaAdjust t a q) s e .insufficient {}) ∧
        ((s.account a).state = .opened → 0 < q →
          (s.account a).space < (s.account a).inventory + q + max 0 ((s.account a).slot s.acb.running).c →
          refuses (.obaAdjust t a q) s e .noSpace {}))) ∧
    (s.su.current = none → exec .closeComplete s = .next s)) ∧
  (∀ (s : State) (clk start : Clk) (day : Bool), s.su.openStart = some start →
    let ev := suBoundary clk day s.ev
    let x := ev.s
    let entered : Due := { number := s.su.lastNumber + 1, start := start, snapshot := some s.meterSnapshot }
    (∀ r, (x.run r).acc = if r = 6 ∨ s.runDir r ≠ .unused then (s.run r).acc % 10000 else (s.run r).acc) ∧
    (s.acb.loaded = true → ev.restep = true ∧ x.acb = s.acb ∧
      (s.su.current = none → s.su.due = [] → x.su = { s.su with
        lastNumber := s.su.lastNumber + 1, openStart := some clk
        current := some { due := entered, slot := s.acb.running } }) ∧
      (∀ c, s.su.current = some c → x.su = { s.su with
        lastNumber := s.su.lastNumber + 1, openStart := some clk, due := s.su.due ++ [entered] })) ∧
    (s.acb.loaded = false → x.su = { s.su with openStart := some clk } ∧
      ∃ z : State, ev = reconfirm z.acb.running z.ev ∧ z.mu = x.mu ∧ z.su = x.su ∧ z.acb = (s.advanceBook day).acb)) ∧
  (∀ s : State,
    s.advanceBook false = { s with acb := { s.acb with running := min (s.acb.running + 1) 23 } } ∧
    s.advanceBook true = { s with acb :=
      { s.acb with
        running := 0
        accounts := s.acb.accounts.map fun a => { a with book := a.book.drop 24 ++ List.replicate 24 {}, fuel := 0 }
        caps := s.acb.caps.drop 24 ++ List.replicate 24
          { inj := (s.site.map Site.nomInj).getD 0, wd := (s.site.map Site.nomWd).getD 0, declared := false } } }) ∧
  (∀ (s : State) (e : QEntry) (held : List QEntry) (c : Instr) (take : State → Ev × Answer),
    let untaken (x : QEntry) : Prop := x.state = .inTurn ∨ x.state = .waitingClose
    (closeTaking c = some take → c.bookOnly = true ∧ exec c s = .next (serve c take s)) ∧
    (closeTaking c = none → c.bookOnly = false) ∧
    s.heldEntries.Sublist s.slu.queue ∧
    (e ∈ s.heldEntries ↔ e ∈ s.slu.queue ∧ untaken e ∧ ∃ x ∈ s.slu.queue, x.block = e.block ∧ x.arrival ≤ e.arrival ∧
      ((x.state = .waitingClose ∧ s.su.current ≠ none) ∨ (x.state = .inTurn ∧ s.waitsForClose x.request = true))) ∧
    (s.su.current ≠ none ∨ s.slu.resetPending = true → s.takeWaiting held = s) ∧
    (s.su.current = none → s.slu.resetPending = false → s.takeWaiting held = held.foldl takeHeld s) ∧
    (s.su.current = none → closeTaking e.request = some take →
      (∀ ev body, s.inTurn e = true → take s = (ev, .ok body) → takeHeld s e = s.answered e ev body) ∧
      (∀ ev st d, s.inTurn e = true → take s = (ev, .no st d) →
        takeHeld s e = (s.noteTaking ev.finish e.arrival).formReply e st d []) ∧
      (s.inTurn e = false → takeHeld s e = s))) ∧
  ∀ (s : State) (c : Close), s.phase = .running → s.su.current = some c →
    let t := (completeClose c s.ev).finish
    let day := s.endsDay c.due.start
    let figure (d : RunDir) : Nat :=
      (c.due.snapshot.map fun p => sumNat (p.runs.map fun x => if x.1 = d then x.2 else 0)).getD 0
    let burnt : Nat := (c.due.snapshot.map Snapshot.fuel).getD 0
    let r := settle s.tolerance s.obaLimit s.su.balance (figure .inject) (figure .withdraw) burnt s.acb.accounts c.slot
    let idle : Prop := (∀ x ∈ r.cs, x = 0) ∧ figure .inject = 0 ∧ figure .withdraw = 0 ∧ burnt = 0
    let skips : Prop := s.su.due = [] ∧ s.su.skipped ≠ 0
    exec .closeComplete s = .next (t.takeWaiting s.heldEntries) ∧
    (s.heldEntries = [] → happens .closeComplete s (fun x => completeClose c x.ev)) ∧
    ∃ rec : PeriodRecord,
      (rec.number = c.due.number ∧ rec.start = c.due.start ∧ rec.slot = c.slot ∧
        rec.metered = c.due.snapshot.isSome ∧ rec.c = r.c ∧ rec.eIn = figure .inject ∧ rec.eOut = figure .withdraw ∧
        rec.d = r.d ∧ rec.f = burnt ∧ rec.obaAlloc = r.obaAlloc ∧ rec.obaFuel = r.obaFuel ∧
        (idle → rec.case = .oba) ∧ (¬idle → rec.case = r.case) ∧
        rec.shippers = ((List.range r.cs.length).filter fun a =>
            r.cs.getD a 0 != 0 || r.a.getD a 0 != 0 || r.fuel.getD a 0 != 0).map fun a =>
          { account := a, c := r.cs.getD a 0, a := r.a.getD a 0, f := r.fuel.getD a 0 }) ∧
      completeClose c s.ev = (
        let recorded : State → State := fun y =>
          ({ y with su := { y.su with ring := (y.su.ring ++ [rec]).drop (y.su.ring.length + 1 - 24) } } : State)
        let posted := (postClose r s.ev).map fun y => (recorded y).advanceBook day
        let confirmed := reconfirm posted.s.acb.running posted
        let opened := if confirmed.s.su.due.isEmpty && confirmed.s.su.skipped != 0 then skip confirmed else confirmed
        let planned := fplStep .restep (opened.map State.nextClose)
        let closed := raise .periodClosed none planned (.closed rec.number rec.case)
        let rolled := if day then raise .dayRolled none closed else closed
        if s.obaLimit < rolled.s.su.balance.natAbs then raise .obaLimit none rolled (.balance rolled.s.su.balance)
        else rolled) ∧
      t.su.ring = (s.su.ring ++ [rec]).drop (s.su.ring.length + 1 - 24) ∧
      t.su.balance = s.su.balance + r.obaAlloc - r.obaFuel ∧ t.su.openStart = s.su.openStart ∧
      t.mu = s.mu ∧ t.dtc = s.dtc ∧ t.pst = s.pst ∧
      (∀ a, a < s.acb.accounts.length →
        (t.account a).inventory = (s.account a).inventory + r.a.getD a 0 - r.fuel.getD a 0 ∧
        (t.account a).fuel = if day = true ∨ skips then 0
          else min ((s.account a).fuel + r.fuel.getD a 0) 4000000000) ∧
      (¬skips → t.su.lastNumber = s.su.lastNumber ∧ t.su.skipped = s.su.skipped ∧
        t.acb.running = (if day then 0 else min (s.acb.running + 1) 23) ∧
        (s.su.due = [] → t.su.current = none ∧ t.su.due = []) ∧
        (∀ d rest, s.su.due = d :: rest →
          t.su.current = some { due := d, slot := t.acb.running } ∧ t.su.due = rest)) ∧
      (skips → t.su.lastNumber = s.su.lastNumber + s.su.skipped ∧ t.su.skipped = 0 ∧ t.su.current = none ∧
        t.su.due = [] ∧
        t.acb.running = (if s.startHour * 3600 ≤ s.mu.clock.toNat then
            (s.mu.clock.toNat - s.startHour * 3600) % 86400 / 3600
          else s.mu.clock.toNat / 3600) ∧
        ∀ a k, (t.account a).slot k = { n := 0, nominated := false, c := 0, reason := .none })

/-! ### Watches, notices and trips -/

/-- SET_WATCH is refused with BAD_FIELD at the first field, counted by its layout, that is out of range or does not fit
the others (R141, R144), where a field without meaning is not judged (R186; that the hysteresis of IS_ABOVE and
IS_BELOW has none is log entry 14's choice, and that a CONTINUOUS trip offends at its mode is log entry 11's, and that
255 is filter ANY and 3 channel NONE is log entry 10's); one whose fields are all in range arms the watch with its
definition, unless its source does not exist or is in loop check (R7, R141; a source does not exist where it is an
absent cavern or train or a CLOSED account, `State.sourceGone`, and that an EVENT source's filter does not count there,
while that of SENSOR_LOST does name its channel for the loop check, is log entry 49's choice); CLEAR_WATCH empties it;
READ_WATCHES reports the flags and clears them; AWAIT_FLAGS answers at once or waits, until its time is out, and is
refused with an empty mask or a timeout out of range (R146, R147, R148); the bodies of its two replies are the model's
form (log entry 30), as are the other replies' bodies (log entry 9) but for the flags, one byte each (R185), and a
timeout before its time does nothing (log entry 2). A watch that fires sets its flag, answers the waiting AWAIT_FLAGS
whose mask holds it, joins its channel, hands its trip to the Trip Unit, and, ONE_SHOT, is FIRED with no latch (R145,
R148). An event that is raised is offered to every watch in ascending index, and fires each ARMED OCCURS watch that
names it and whose filter passes its index (R144). -/
def Obligations.WatchesSetClearedAndAwaited : Prop :=
  let flags (s : State) : List Fld := s.wnu.watches.map fun y => yn y.fired
  (∀ (ev : Ev) (w : Nat) (d : WatchDef),
    let flagged := (ev.s.updWatch w fun r => { r with fired := true }).answerAwaits w
    let told := match d.channel with
      | some n => flagged.joinNotice n (.watch w) d.hostCode
      | none => flagged
    let shot : State := if d.oneShot then told.updWatch w fun r => { r with state := .fired, latch := none } else told
    let trip : List Launch := match d.action, d.source with
      | .tripStation, _ => [{ code := 0x070, watch := some (w, d.hostCode) }]
      | .tripCavern, .cavernPressure c => [{ code := 0x080, scope := some c, watch := some (w, d.hostCode) }]
      | _, _ => []
    fireWatch w d ev = { ev with s := shot, launches := ev.launches ++ trip }) ∧
  (∀ (s : State) (w : Nat), (s.slu.queue.map QEntry.arrival).Nodup →
    let waits (e : QEntry) : Bool := match e.state with
      | .waitingFlags mask _ => mask.testBit w
      | .inTurn => false
      | .waitingClose => false
      | .answered => false
    let t := s.answerAwaits w
    (s.slu.queue.filter waits = [] → t = s) ∧
    (s.slu.queue.filter waits ≠ [] →
      t = { s with wnu := t.wnu, slu := { s.slu with queue := t.slu.queue, order := t.slu.order } } ∧
      t.wnu = { s.wnu with watches := s.wnu.watches.map fun x => { x with fired := false } } ∧
      t.slu.queue = s.slu.queue.map (fun e => if waits e then { e with state := .answered } else e) ∧
      t.slu.order = s.slu.order ++ (s.slu.queue.filter waits).map fun e =>
        { origin := .entry e.arrival, kind := e.request.kind.getD 0 + 0x80, tag := e.request.tag, status := .ok
          detail := {}, body := flags s ++ [yn false] })) ∧
  (∀ (ev : Ev) (name : EventName) (index : Option Nat) (data : EventData),
    raise name index ev data =
      (List.range 24).foldl (offerEvent name index) { ev with raised := ev.raised ++ [⟨name, index, data⟩] }) ∧
  (∀ (ev : Ev) (name : EventName) (index : Option Nat) (w : Nat) (d : WatchDef), (ev.s.watch w).defn = some d →
    let heard : Prop := (ev.s.watch w).state = .armed ∧ d.condition = .occurs ∧
      ∃ filter, d.source = .event name filter ∧ (filter = none ∨ filter = index)
    (heard → offerEvent name index ev w = fireWatch w d ev) ∧ (¬heard → offerEvent name index ev w = ev)) ∧
  ∀ (s : State) (e : QEntry) (t i : Nat) (w : WatchFields) (mask d : Nat),
    let set : Instr :=
      .setWatch t i w.kind w.index w.event w.filter w.condition w.threshold w.hysteresis w.channel w.action w.hostCode
        w.mode
    let indices : List Nat := [0, 0, 16, 2, 6, 6, 4, 4, 4, 0, 0, 3, 32]
    let bad (k : Nat) : Prop :=
      (k = 1 ∧ 24 ≤ i) ∨ (k = 2 ∧ 6 < w.kind) ∨
      (k = 3 ∧ ((w.kind = 0 ∧ 16 ≤ w.index) ∨ (w.kind = 1 ∧ 8 ≤ w.index) ∨ (w.kind = 2 ∧ 4 ≤ w.index) ∨
        (w.kind = 4 ∧ 32 ≤ w.index) ∨ (w.kind = 5 ∧ 7 ≤ w.index))) ∨
      (k = 4 ∧ w.kind = 6 ∧ 13 ≤ w.event) ∨
      (k = 5 ∧ w.kind = 6 ∧ w.filter ≠ 255 ∧ indices.getD w.event 0 ≤ w.filter) ∨
      (k = 6 ∧ (5 < w.condition ∨ (w.kind = 6 ∧ w.condition ≠ 5) ∨ (w.kind ≠ 6 ∧ w.condition = 5))) ∨
      (k = 7 ∧ w.condition ≠ 5 ∧ (w.threshold < -9999999999 ∨ 9999999999 < w.threshold)) ∨
      (k = 8 ∧ w.condition ≤ 2 ∧ 99999999 < w.hysteresis) ∨ (k = 9 ∧ 3 < w.channel) ∨
      (k = 10 ∧ (2 < w.action ∨ (w.action = 1 ∧ w.kind ≠ 1))) ∨
      (k = 11 ∧ (w.hostCode < 0x800 ∨ 0xFFF < w.hostCode)) ∨
      (k = 12 ∧ (1 < w.mode ∨ (w.mode = 1 ∧ w.action ≠ 0)))
    (takes set s e → ∀ k, bad k → (∀ j, j < k → ¬bad j) → refuses set s e .badField ⟨.field, k⟩) ∧
    ((w.verdicts i).all Prod.snd = true ↔ ∀ k, ¬bad k) ∧
    (takes set s e → (w.verdicts i).all Prod.snd = true → s.sourceGone w.source = false →
      s.sourceInCheck w.source = false →
      completes set s e (fun x => (x.updWatch i fun _ =>
        { defn := some w.defn, state := .armed, fired := false, latch := none }).ev) fun _ => [b1 i, b1 2]) ∧
    (takes set s e → (w.verdicts i).all Prod.snd = true → s.sourceGone w.source = true → refuses set s e .noSuch {}) ∧
    (takes set s e → (w.verdicts i).all Prod.snd = true → s.sourceGone w.source = false →
      (∃ ch, (w.source = .channel ch ∨ w.source = .event .sensorLost (some ch)) ∧ (s.chan ch).mode = .check) →
      refuses set s e .wrongState {}) ∧
    ((∀ ch, w.source = .channel ch ∨ w.source = .event .sensorLost (some ch) → (s.chan ch).mode = .live) →
      s.sourceInCheck w.source = false) ∧
    (takes (.clearWatch t i) s e → i < 24 →
      completes (.clearWatch t i) s e (fun x => (x.updWatch i fun _ => {}).ev) fun _ => []) ∧
    (takes (.readWatches t) s e →
      completes (.readWatches t) s e (fun x => x.clearFlags.ev)
        fun _ => flags s ++ s.wnu.watches.map fun y => b1 y.state.code) ∧
    (takes (.awaitFlags t mask d) s e → 1 ≤ mask → mask < 16777216 → 1 ≤ d → d ≤ 3600 →
      (s.flags &&& mask ≠ 0 →
        completes (.awaitFlags t mask d) s e (fun x => x.clearFlags.ev)
          fun _ => flags s ++ (s.wnu.watches.map fun y => b1 y.state.code) ++ [yn false]) ∧
      (s.flags &&& mask = 0 →
        exec (.awaitFlags t mask d) s = .next
          ((s.arrived (.awaitFlags t mask d)).setEntry e.arrival (.waitingFlags mask (s.after d))))) ∧
    (takes (.awaitFlags t mask d) s e →
      (mask = 0 → refuses (.awaitFlags t mask d) s e .badField ⟨.field, 1⟩) ∧
      (1 ≤ mask → mask < 16777216 → d = 0 ∨ 3600 < d →
        refuses (.awaitFlags t mask d) s e .badField ⟨.field, 2⟩)) ∧
    (∀ c, s.phase = .running → s.slu.queue.find? (·.arrival == i) = some e → e.state = .waitingFlags mask c →
      (passed s.clock c = true →
        exec (.awaitFlagsTimeout i) s = .next (s.formReply e .ok {} (flags s ++ [yn true]))) ∧
      (passed s.clock c = false → exec (.awaitFlagsTimeout i) s = .next s))

/-- ACK_NOTICE, refused with BAD_FIELD at the first index that is out of range or repeats an earlier one, and then with
WRONG_STATE on a channel that is not OUTSTANDING (R151; that order, and that each index of the list is a field of its
own, is the model's choice, log entry 11), HOLD_NOTICES, RELEASE_NOTICES, DISCARD_NOTICE, refused on an OUTSTANDING
channel, and TEST_NOTICE (R152), and the joining of an event to a channel: an IDLE channel becomes PENDING with the
event in its list, a PENDING one has it join the list, an OUTSTANDING one the late list (R149). The bodies of the
replies are the model's form (log entry 9). -/
def Obligations.NoticesJoinedAndAcknowledged : Prop :=
  (∀ (s : State) (n : Nat) (src : NoticeSource) (code : Nat) (c : NoticeChannel) (now : Clk) (b : Bool),
    s.joinNotice n src code = s.updNotice n (fun x => x.join src code s.mu.clock) ∧
    (c.state = .idle → c.join src code now = { c with state := .pending, list := c.list.join src code now }) ∧
    (c.state = .pending → c.join src code now = { c with list := c.list.join src code now }) ∧
    (c.state = .outstanding → c.join src code now = { c with late := c.late.join src code now }) ∧
    s.holdAll b = { s with wnu := { s.wnu with channels := s.wnu.channels.map fun x => { x with held := b } } }) ∧
  (∀ (s : State) (e : QEntry) (t n : Nat) (l : List Nat), n < 3 →
    (takes (.ackNotice t n l) s e → (∀ w ∈ l, w < 24) → l.Nodup → (s.notice n).state = .outstanding →
      let armed := l.filter fun w => (s.watch w).state == .fired && (s.watch w).defn.any WatchDef.oneShot
      completes (.ackNotice t n l) s e
        (fun x => (armed.foldl (fun y w => y.updWatch w fun r => { r with state := .armed, latch := none })
          (x.updNotice n fun c =>
            if c.late = {} then { c with state := .idle, list := {} }
            else { c with state := .pending, list := c.late, late := {} })).ev)
        fun x => b1 (x.notice n).state.code :: armed.map b1) ∧
    (takes (.ackNotice t n l) s e →
      let offends (i : Nat) : Prop := i < l.length ∧ (24 ≤ l.getD i 0 ∨ l.getD i 0 ∈ l.take i)
      (∀ i, offends i → (∀ j, j < i → ¬offends j) →
        refuses (.ackNotice t n l) s e .badField ⟨.field, min (2 + i) 255⟩) ∧
      ((∀ i, ¬offends i) → (s.notice n).state ≠ .outstanding →
        refuses (.ackNotice t n l) s e .wrongState {})) ∧
    (takes (.holdNotices t) s e → completes (.holdNotices t) s e (fun x => (x.holdAll true).ev) State.channelStates) ∧
    (takes (.releaseNotices t) s e →
      completes (.releaseNotices t) s e (fun x => (x.holdAll false).ev) State.channelStates) ∧
    (takes (.discardNotice t n) s e →
      ((s.notice n).state = .pending →
        completes (.discardNotice t n) s e
          (fun x => (x.updNotice n fun c => { c with state := .idle, list := {} }).ev) fun _ => []) ∧
      ((s.notice n).state = .idle → completes (.discardNotice t n) s e State.ev fun _ => []) ∧
      ((s.notice n).state = .outstanding → refuses (.discardNotice t n) s e .wrongState {})) ∧
    (takes (.testNotice t n) s e →
      completes (.testNotice t n) s e (fun x => (x.joinNotice n .test 0).ev) fun _ => [])) ∧
  ∀ (l : NoticeList) (src : NoticeSource) (code : Nat) (now : Clk),
    ((∃ x ∈ l.entries, x.source = src) →
      l.join src code now = { l with entries := l.entries.map fun x =>
        if x.source = src then { x with count := min (x.count + 1) 255 } else x }) ∧
    ((∀ x ∈ l.entries, x.source ≠ src) → l.entries.length < 8 →
      l.join src code now = { l with entries := l.entries ++ [⟨src, code, now, 1⟩] }) ∧
    ((∀ x ∈ l.entries, x.source ≠ src) → 8 ≤ l.entries.length → l.join src code now = { l with overflow := true })

/-- A new value at an ARMED watch, by condition and latch: the latch after it and whether the watch fires (R143); any
other watch is left alone. -/
def Obligations.WatchConditionTable : Prop :=
  ∀ (d : WatchDef) (v : Int),
    let hi : Option Latch := some .high
    let lo : Option Latch := some .low
    (d.condition = .risesAbove →
      d.evaluate none v = (if v > d.threshold then hi else lo, false) ∧
      d.evaluate lo v = (if v > d.threshold then (hi, true) else (lo, false)) ∧
      d.evaluate hi v = (if v ≤ d.threshold - d.hysteresis then lo else hi, false)) ∧
    (d.condition = .fallsBelow →
      d.evaluate none v = (if v < d.threshold then lo else hi, false) ∧
      d.evaluate lo v = (if v ≥ d.threshold + d.hysteresis then hi else lo, false) ∧
      d.evaluate hi v = (if v < d.threshold then (lo, true) else (hi, false))) ∧
    (d.condition = .crosses →
      d.evaluate none v = (if v > d.threshold then hi else lo, false) ∧
      d.evaluate lo v = (if v > d.threshold then (hi, true) else (lo, false)) ∧
      d.evaluate hi v = (if v < d.threshold - d.hysteresis then (lo, true) else (hi, false))) ∧
    (d.condition = .isAbove → ∀ l, d.evaluate l v = (l, decide (v > d.threshold))) ∧
    (d.condition = .isBelow → ∀ l, d.evaluate l v = (l, decide (v < d.threshold))) ∧
    ∀ (on : WatchSource → Bool) (ev : Ev) (w : Nat), on d.source = true → (ev.s.watch w).defn = some d →
      let result := d.evaluate (ev.s.watch w).latch v
      let seen : Ev := { ev with s := ev.s.updWatch w fun x => { x with latch := result.1 } }
      ((ev.s.watch w).state = .armed → result.2 = true → evaluateWatch on v ev w = fireWatch w d seen) ∧
      ((ev.s.watch w).state = .armed → result.2 = false → evaluateWatch on v ev w = seen) ∧
      ((ev.s.watch w).state ≠ .armed → evaluateWatch on v ev w = ev)

/-- Where the record of a launch is placed (R157). -/
def Obligations.TripRecordPlacement : Prop :=
  ∀ (u : Tru) (r : TripRecord),
    (u.current = none → u.place r = { u with current := some r }) ∧
    (∀ c, u.current = some c → c.acknowledged = true → u.place r = { u with current := some r }) ∧
    (∀ c, u.current = some c → c.acknowledged = false →
      u.place r = { u with prior := some c, current := some r, cascade := min (u.cascade + 1) 255 }) ∧
    ∀ (s : State) (l : Launch), ∃ new : TripRecord, (s.record l).tru = s.tru.place new ∧
      new = { code := l.code, scope := l.scope, clock := s.mu.clock, watch := l.watch, acknowledged := false
              secondFailures := [], snapshot := s.snapshot }

/-- CLEAR_TRIP (R159): refused with no record, and while TRIPPED by the first condition of the table that fails, which
the refusal names as 11.1 does; otherwise the record is acknowledged, the station NORMAL and the count 0. The body of
the reply, its widths and its codes, is the model's form (log entries 9 and 10). -/
def Obligations.ClearTripByConditions : Prop :=
  ∀ (s : State) (e : QEntry) (t : Nat), takes (.clearTrip t) s e →
    let refused (d : Detail) : Prop := refuses (.clearTrip t) s e .wrongState d
    let headerLost : Prop := ∃ ch, s.headerChannel = some ch ∧ (s.chan ch).quality = .lost
    let out (c : Nat) : Prop :=
      (s.cavDef c).isSome = true ∧ (s.cav c).state ≠ .outOfService ∧ (s.cav c).envelope ≠ .inside
    let stopping (u : Nat) : Prop := (s.unit u).state = .stopping
    (s.tru.current = none → refuses (.clearTrip t) s e .noSuch {}) ∧
    (s.tru.current ≠ none → s.tru.tripped = true →
      (s.tru.esd = true → refused ⟨.condition, 1⟩) ∧
      (s.tru.esd = false → headerLost → refused ⟨.condition, 2⟩) ∧
      (s.tru.esd = false → ¬headerLost → s.tru.headerAbove = true → refused ⟨.condition, 3⟩) ∧
      (s.tru.esd = false → ¬headerLost → s.tru.headerAbove = false →
        (∀ c, c < 8 → out c → (∀ b, b < c → ¬out b) → refused ⟨.cavern, c⟩) ∧
        ((∀ c, c < 8 → ¬out c) →
          (∀ u, u < 6 → stopping u → (∀ v, v < u → ¬stopping v) → refused ⟨.unit, u⟩) ∧
          ((∀ u, u < 6 → ¬stopping u) →
            completes (.clearTrip t) s e
              (fun x => ({ x with tru :=
                { x.tru with
                  tripped := false, cascade := 0
                  current := x.tru.current.map fun r => { r with acknowledged := true } } } : State).ev)
              State.clearReply)))) ∧
    (s.tru.current ≠ none → s.tru.tripped = false →
      completes (.clearTrip t) s e
        (fun x => ({ x with tru :=
          { x.tru with
            cascade := 0, current := x.tru.current.map fun r => { r with acknowledged := true } } } : State).ev)
        State.clearReply)

/-- A change of the ESD input is recorded, and its assertion hands a station trip to the Trip Unit (R154). A station
trip taken (R156): the record is formed first and placed, the station is TRIPPED, the planner HELD with setpoint 0, no
present cavern is OPENING or open, and, where the part has its six units, none is STARTING or RUNNING and no demand or
pending start or stop is left. A launch of cavern scope (R30, R156) forms the record and trips that cavern alone; every
launch adds an entry of its code to N1, and a station trip brings no re-step of its own (log entry 13). A second failure
(R158) is added to the current record and to N1. The end of an event (R108, R156) takes the launches it handed on, in
ascending code and then watch index, each whole, then makes the one re-step, and then what that has handed on in turn
(log entry 13). A level that stays changes nothing (log entry 2), and outside running it is recorded only (log entry 6).
-/
def Obligations.StationTripStopsTheStation : Prop :=
  (∀ s : State,
    (∀ b, s.tru.esd = b → exec (.esdInputChange b) s = .next s) ∧
    (s.tru.esd = false → s.phase = .running →
      happens (.esdInputChange true) s fun x =>
        ({ x with tru := { x.tru with esd := true } } : State).ev.launch { code := 0x010 }) ∧
    (s.tru.esd = true → exec (.esdInputChange false) s = .next { s with tru := { s.tru with esd := false } }) ∧
    (s.tru.esd = false → s.phase ≠ .running →
      exec (.esdInputChange true) s = .next { s with tru := { s.tru with esd := true } })) ∧
  (∀ ev : Ev,
    let first (a b : Launch) : Prop :=
      a.code < b.code ∨ (a.code = b.code ∧ (a.watch.map Prod.fst).getD 0 ≤ (b.watch.map Prod.fst).getD 0)
    let ls := sortLaunches ev.launches
    ls.Perm ev.launches ∧ ls.Pairwise first ∧ (fplStep .restep ev).restep = false ∧
    (ev.launches ≠ [] → ev.finish = (ls.foldl launchTrip { ev with launches := [] }).finish) ∧
    (ev.launches = [] → ev.restep = true → ev.finish = (fplStep .restep ev).finish) ∧
    (ev.launches = [] → ev.restep = false → ev.finish = ev.s)) ∧
  (∀ (ev : Ev) (code c : Nat) (w : Option (Nat × Nat)) (u : Option Nat),
    let l : Launch := { code := code, scope := some c, watch := w, unit := u }
    let y := launchTrip ev l
    let r := ev.s.cav c
    y.launches = ev.launches ∧ y.raised = ev.raised ∧
    y.s = { ev.s with
      cvc := y.s.cvc
      tru := (ev.s.record l).tru
      wnu := (ev.s.joinNotice 0 (.trip code) code).wnu } ∧
    (∀ k, k ≠ c → y.s.cav k = ev.s.cav k) ∧
    y.s.cvc.injMerit = ev.s.cvc.injMerit ∧ y.s.cvc.wdMerit = ev.s.cvc.wdMerit ∧
    (ev.s.cavDef c = none → y.s.cvc = ev.s.cvc ∧ y.restep = ev.restep) ∧
    (∀ d, ev.s.cavDef c = some d → c < ev.s.cvc.caverns.length →
      y.s.cav c = Cavern.followed ev.s d (r.trip false ev.s d) ∧
      ((y.s.cav c).state ≠ r.state → y.restep = true))) ∧
  (∀ (ev : Ev) (c : Nat),
    secondFailure c ev = ev.map fun s => { s with
      tru := { s.tru with current := s.tru.current.map fun r =>
        { r with secondFailures := r.secondFailures ++ [(c, s.mu.clock)] } }
      wnu := (s.joinNotice 0 (.trip 0x050) 0x050).wnu }) ∧
  ∀ (ev : Ev) (code : Nat) (w : Option (Nat × Nat)) (v : Option Nat),
    let l : Launch := { code := code, scope := none, watch := w, unit := v }
    let x := (launchTrip ev l).s
    x.wnu = (ev.s.joinNotice 0 (.trip code) code).wnu ∧ x.slu = ev.s.slu ∧
    (launchTrip ev l).launches = ev.launches ∧ (launchTrip ev l).restep = ev.restep ∧
    x.tru.tripped = true ∧ x.fpl.active = false ∧ x.fpl.setpoint = 0 ∧
    (∃ r, x.tru.current = some r ∧ r.code = code ∧ r.scope = none ∧ r.clock = ev.s.mu.clock ∧ r.watch = w ∧
      r.acknowledged = false ∧ r.secondFailures = [] ∧ r.snapshot = ev.s.snapshot) ∧
    (∀ c, c < 8 → ev.s.cavDef c ≠ none → (x.cav c).state ≠ .opening ∧ (x.cav c).state.isOpen = false) ∧
    (SizeLaw ev.s → (∀ u, (x.unit u).state.counts = false) ∧
      ∀ q, (x.duty q).demand = 0 ∧ (x.duty q).startPending = none ∧ (x.duty q).stopPending = none) ∧
    x.mu = ev.s.mu ∧ x.dtc = ev.s.dtc ∧ x.acb = ev.s.acb ∧ x.su = ev.s.su ∧ x.pst = ev.s.pst

/-! ### Profiles, starts and supply -/

/-- WRITE_PROFILE (R164, R165, R168): a first segment begins a staging record and the expected one extends it; a segment
of another group or with another index is refused with WRONG_STATE, one that makes too many bytes with BAD_LENGTH, and a
whole write by the first check of R165 that applies, the staging record being emptied each time; the last-segment mark
is bit 0 of its byte, and the ordinal of a bad segment index is that of the request (log entry 11). The field named is
the lowest that is out of range or breaks a rule of R166 (that a span 'different from zero' is one different from the
channel's zero field is the model's reading, log entry 33; fields without meaning unjudged, R186 and log entry 14), then
the lowest that names a channel in loop check (R7, R165), then what is not at rest (R167); a whole write that nothing
refuses is applied. An applied write replaces the group's live contents, sets both deadlines (R169), makes the group
COMMITTING and puts it into the commit queue (R170); of SITE, it requests a recalibration pass (R9), begins the dispatch
interval where none runs (R107), takes over another header channel's record (that this is its present value and quality,
and that a header of none reads 0, LOST and not ABOVE, is the model's choice, log entry 22) and reaches the book by
R101. A commit completes verified, the live contents becoming the stored image, or fails, and the next of the queue
begins (R170); the two deadlines of a write expire (R169); an expiry before its time and a completion with no commit do
nothing (log entry 2). The bodies of the replies are the model's form (log entry 9). -/
def Obligations.ProfileWritesStageApplyAndCommit : Prop :=
  (∀ (s : State) (e : QEntry) (t k j : Nat) (g : Group) (b all : List Byte), k < 16 →
    let c : Instr := .writeProfile t g.code k j b
    let expected (all : List Byte) : Prop :=
      (k = 0 ∧ all = b) ∨
      ∃ old, 1 ≤ k ∧ s.pst.staging = some old ∧ old.group = g ∧ old.next = k ∧ all = old.bytes ++ b
    let refused (st : Status) (d : Detail) : Prop :=
      exec c s = .next (((s.arrived c).setStaging none).formReply e st d [])
    (∀ m, 16 ≤ m → takes (.writeProfile t g.code m j b) s e →
      refuses (.writeProfile t g.code m j b) s e .badField ⟨.field, 2⟩) ∧
    (takes c s e →
      ((∀ all, ¬expected all) → refused .wrongState {}) ∧
      (expected all → g.size < all.length → refused .badLength {}) ∧
      (expected all → all.length ≤ g.size → j % 2 = 0 →
        completes c s e (fun x => (x.setStaging (some { group := g, next := k + 1, bytes := all })).ev)
          fun _ => [b2 all.length]) ∧
      (expected all → all.length ≤ g.size → j % 2 = 1 →
        (∀ st d, judgeWrite (s.setStaging none) g all = some (.no st d) → refused st d) ∧
        (judgeWrite (s.setStaging none) g all = none →
          completes c s e (fun x => applyWrite g (parseFields g.specs all) (x.setStaging none).ev)
            fun _ => [b1 g.code, b1 1])))) ∧
  (∀ (s : State) (g : Group) (all : List Byte),
    let v := parseFields g.specs all
    let judged := judgeWrite s g all
    (all.length ≠ g.size → judged = some (.no .badLength {})) ∧
    (all.length = g.size → s.groupCommit g = some .committing → judged = some (.no .busy {})) ∧
    (all.length = g.size → s.groupCommit g ≠ some .committing →
      ((∃ d, s.pst.profile = some d ∧ passed s.clock d = false) → judged = some (.no .settling {})) ∧
      ((∀ d, s.pst.profile = some d → passed s.clock d = true) →
        (∀ n, badField s g v = some n → judged = some (.no .badField ⟨.field, min n 255⟩)) ∧
        (badField s g v = none →
          (∀ n, checkedField s g v = some n → judged = some (.no .wrongState ⟨.field, min n 255⟩)) ∧
          (checkedField s g v = none → judged = (notAtRest s g).map fun d => .no .notAtRest d))))) ∧
  (∀ (s : State) (g : Group) (v : List Int),
    isLowest (fun k => g.outside v k ∨ s.breaksRule g v k) (badField s g v) ∧
    isLowest (fun k => ∃ ch, (g.names v k ch ∨ (g = .site ∧ ch < 16 ∧ k = 32 + 4 * ch)) ∧ (s.chan ch).mode = .check)
      (checkedField s g v) ∧
    (s.fpl.active = true → notAtRest s .site = some ⟨.condition, 4⟩) ∧
    (s.fpl.active = false → s.su.current ≠ none → notAtRest s .site = some ⟨.condition, 5⟩) ∧
    (s.fpl.active = false → s.su.current = none → notAtRest s .site = none) ∧
    (let moves (c : Nat) : Prop := (s.cav c).state ≠ .shut ∧ (s.cav c).state ≠ .outOfService
    (∀ c, c < 8 → moves c → (∀ b, b < c → ¬moves b) → notAtRest s .caverns = some ⟨.cavern, c⟩) ∧
    ((∀ c, c < 8 → ¬moves c) → notAtRest s .caverns = none)) ∧
    (let runs (u : Nat) : Prop :=
      (s.unit u).state = .starting ∨ (s.unit u).state = .running ∨ (s.unit u).state = .stopping
    (∀ u, u < 6 → runs u → (∀ b, b < u → ¬runs b) → notAtRest s .plant = some ⟨.unit, u⟩) ∧
    ((∀ u, u < 6 → ¬runs u) →
      (∀ n, n < 4 → s.trainState n ≠ .offline → (∀ b, b < n → s.trainState b = .offline) →
        notAtRest s .plant = some ⟨.train, n⟩) ∧
      ((∀ n, n < 4 → s.trainState n = .offline) → notAtRest s .plant = none)))) ∧
  (∀ (ev : Ev) (g : Group) (v : List Int),
    let x := (applyWrite g v ev).s
    let new := ev.s.after ((x.pst.site.live.map Site.settleInterval).getD 5)
    (g = .site → x.pst.site.live = some (siteOf v) ∧ x.pst.caverns = ev.s.pst.caverns ∧
      x.pst.plant = ev.s.pst.plant) ∧
    (g = .caverns → x.pst.caverns.live = some (cavernsOf v) ∧ x.pst.site = ev.s.pst.site ∧
      x.pst.plant = ev.s.pst.plant) ∧
    (g = .plant → x.pst.plant.live = some (plantOf v) ∧ x.pst.site = ev.s.pst.site ∧
      x.pst.caverns = ev.s.pst.caverns) ∧
    x.groupCommit g = some .committing ∧ x.pst.profile = some (ev.s.after 1) ∧
    (ev.s.pst.settle = none → x.pst.settle = some new) ∧
    (∀ d, ev.s.pst.settle = some d → x.pst.settle = some (if passed d new then d else new)) ∧
    (∀ h, ev.s.pst.writing = some h → x.pst.writing = some h ∧ x.pst.queue = ev.s.pst.queue ++ [g]) ∧
    (ev.s.pst.writing = none → ev.s.pst.queue = [] → x.pst.writing = some g ∧ x.pst.queue = [])) ∧
  (∀ (ev : Ev) (v : List Int),
    let p := siteOf v
    ∃ z : State,
      applyWrite .site v ev = (siteToBook ev.s.site false { ev with s := z }).map (fun y =>
        y.settleAfterWrite.enterCommit .site) ∧
      z.pst = { ev.s.pst with site := { ev.s.pst.site with live := some p } } ∧ z.acb = ev.s.acb ∧
      z.mu.channels = ev.s.mu.channels ∧ z.mu.clock = ev.s.mu.clock ∧
      z.mu.pass = (if num v 31 = 1 ∧ ev.s.mu.pass = .none then .pending else ev.s.mu.pass) ∧
      z.fpl.dispatch = ev.s.fpl.dispatch.or (some (ev.s.after p.dispatchInterval)) ∧
      (p.header = ev.s.headerChannel → z.fpl = { ev.s.fpl with dispatch := z.fpl.dispatch } ∧ z.tru = ev.s.tru) ∧
      (∀ ch, p.header = some ch → ev.s.headerChannel ≠ some ch → z.fpl.header = (ev.s.chan ch).value ∧
        z.fpl.headerQuality = (ev.s.chan ch).quality ∧ z.tru = ev.s.tru) ∧
      (p.header = none → ev.s.headerChannel ≠ none → z.fpl.header = 0 ∧ z.fpl.headerQuality = .lost ∧
        z.tru = { ev.s.tru with headerAbove := false })) ∧
  ∀ (s : State) (g : Group), s.phase = .running →
    (s.pst.writing = some g →
      happens (.commitComplete true) s (fun x => raise .profileCommitted (some g.code)
        (({ (x.storeImage g).setCommit g (some .committed) with
          pst :=
            { ((x.storeImage g).setCommit g (some .committed)).pst with writing := none } } : State).beginCommit).ev) ∧
      (∃ t, exec (.commitComplete true) s = .next t ∧ t.groupCommit g = some .committed ∧
        t.pst.writing = s.pst.queue.head? ∧ t.pst.queue = s.pst.queue.tail ∧
        (∀ p, g = .site → s.pst.site.live = some p → t.pst.site = ⟨some p, some .committed, some ⟨p, true⟩⟩) ∧
        (∀ p, g = .caverns → s.pst.caverns.live = some p →
          t.pst.caverns = ⟨some p, some .committed, some ⟨p, true⟩⟩) ∧
        (∀ p, g = .plant → s.pst.plant.live = some p → t.pst.plant = ⟨some p, some .committed, some ⟨p, true⟩⟩) ∧
        ∀ h, h ≠ g → t.groupCommit h = s.groupCommit h ∧ t.groupValid h = s.groupValid h) ∧
      exec (.commitComplete false) s =
        .next ({ s.setCommit g (some .failed) with
          pst := { (s.setCommit g (some .failed)).pst with writing := none } } : State).beginCommit ∧
      (∃ t, exec (.commitComplete false) s = .next t ∧ t.groupCommit g = some .failed ∧
        t.pst.writing = s.pst.queue.head? ∧ t.pst.queue = s.pst.queue.tail ∧
        t.pst.site.live = s.pst.site.live ∧ t.pst.site.image = s.pst.site.image ∧
        t.pst.caverns.live = s.pst.caverns.live ∧ t.pst.caverns.image = s.pst.caverns.image ∧
        t.pst.plant.live = s.pst.plant.live ∧ t.pst.plant.image = s.pst.plant.image)) ∧
    (s.pst.writing = none → ∀ b, exec (.commitComplete b) s = .next s) ∧
    (due s.clock s.pst.profile = true →
      exec .profileToProfileExpiry s = .next { s with pst := { s.pst with profile := none } }) ∧
    (due s.clock s.pst.profile = false → exec .profileToProfileExpiry s = .next s) ∧
    (due s.clock s.pst.settle = true →
      exec .settleExpiry s = .next { s with pst := { s.pst with settle := none } }) ∧
    (due s.clock s.pst.settle = false → exec .settleExpiry s = .next s)

/-- Supply, reset input and start (R172 to R175): a start begins when the main supply comes up or the reset input is
released, an assertion of the reset input abandons what runs, and a start completes (what the two inputs do together is
log entry 6, a command without its start or loss log entry 2; the order of what the SITE group and the missed
boundaries bring to the book is log entry 41; that the loss of the backup supply acts only with the main supply off,
and that the retention check is a mark and a match, log entry 27). The groups are loaded or kept by the start kind and
CAVERNS, then PLANT, judged against those before them (R173; that what an INVALID group holds becomes absent is log
entry 15); the domain is checked (R174); every block keeps or clears its records by the start kind: the MU (R9, R11,
R17, R18), the CVC with its merit lists (R21, R37, R39), the CDM (R60; the model's choices are that R40 comes first,
log entry 16, a start history aged from the head, log entry 37, and the duty of an absent unit, log entry 40), the DTC
(R80), the ACB (R102; the start hour before the load is log entry 28), the planner (R121), the SU (R140), the WNU
(R161), the TRU (R162) and the SLU (R184). Missed boundaries (R136): entered for closing, oldest first, up to 48 closes
due, the first METERED and the rest UNMETERED, and skipped beyond; an UNLOADED book takes the first 48 that the start
finds, at its beginning and at its completion together, and the rest as one skip (R138, R139; that an abandoned start
counts its own is log entry 20). That the missed boundaries which end a day are those by the start hour in force at the
start, after the groups are loaded, is the model's choice (log entry 43), and so is that a snapshot taken while SITE is
INVALID counts M1..M6 as UNUSED and takes FUEL (log entry 47). A skip empties every nomination book and brings the
running slot to the clock (R138; log entry 25, and entry 13 for the order of its CURTAILMENT events). The start
completes in one event, in which towers and units take up their timers (R60, R63, R80), the ESD input is read (R162),
the first close due begins (R136; also while SITE is INVALID, log entry 46) and kept COMMITTING groups re-enter the
commit queue (R173); the order within the completion, the missed boundaries and the dropped notices are the model's
choices (log entries 18 and 20). -/
def Obligations.StartsBeginAndComplete : Prop :=
  (∀ (s : State) (p : Bool),
    (s.phase = .off → s.resetInput = false → exec .mainSupplyUp s = .next (beginStart true s)) ∧
    (s.phase = .off → s.resetInput = true → exec .mainSupplyUp s = .next { s with phase := .held true }) ∧
    (s.phase ≠ .off → exec .mainSupplyUp s = .next s) ∧
    exec .mainSupplyLost s = .next { s with phase := .off } ∧
    (s.phase = .off → exec .backupSupplyLost s = .next { s with pst := { s.pst with mark := false } }) ∧
    (s.phase ≠ .off → exec .backupSupplyLost s = .next s) ∧
    (s.phase = .running → exec .resetInputAsserted s = .next { s with resetInput := true, phase := .held false }) ∧
    (s.phase = .starting p → exec .resetInputAsserted s = .next { s with resetInput := true, phase := .held p }) ∧
    (s.phase = .off → exec .resetInputAsserted s = .next { s with resetInput := true }) ∧
    (s.phase = .held p → s.resetInput = true →
      exec .resetInputReleased s = .next (beginStart p { s with resetInput := false })) ∧
    (s.phase = .off → exec .resetInputReleased s = .next { s with resetInput := false }) ∧
    (s.phase = .starting p → exec .startComplete s = .next (completeStart s)) ∧
    (s.phase = .running ∨ s.phase = .off → exec .startComplete s = .next s) ∧
    (beginStart p s).pst.startKind =
      (if s.pst.mark && s.pst.checkMatches then (if p then .retained else .controller) else .cold) ∧
    (beginStart p s).phase = .starting p ∧ (completeStart s).phase = .running ∧
    (completeStart s).fpl.active = false) ∧
  (∀ (α : Type) (power : Bool) (r : GroupRec α),
    (∀ i, power = true ∨ r.live = none → r.image = some i → i.checked = true →
      r.start power = ⟨some i.contents, some .committed, some i⟩) ∧
    (power = true ∨ r.live = none → (∀ i, r.image = some i → i.checked = false) →
      r.start power = ⟨none, none, r.image⟩) ∧
    (power = false → r.live ≠ none → r.start power = r)) ∧
  (∀ (s : State) (p : Bool),
    let g := s.startGroups p
    let alone : State :=
      { s with pst :=
        { s.pst with
          site := s.pst.site.start p, caverns := s.pst.caverns.start p
          plant := { s.pst.plant.start p with live := none, commit := none } } }
    let judged : State := { g with pst := { g.pst with plant := s.pst.plant.start p } }
    g.pst.site = s.pst.site.start p ∧
    (∀ l, (s.pst.caverns.start p).live = some l →
      ((∀ c, c < 8 → cavernChannelOk alone l c = true) → g.pst.caverns = s.pst.caverns.start p) ∧
      ((∃ c, c < 8 ∧ cavernChannelOk alone l c = false) →
        g.pst.caverns = { s.pst.caverns.start p with live := none, commit := none })) ∧
    ∀ l, (s.pst.plant.start p).live = some l →
      let ok (n : Nat) : Prop := (l.trains.getD n {}).present = true →
        trainChannelOk judged l n (l.trains.getD n {}).dewChannel .dewpoint false = true ∧
        trainChannelOk judged l n (l.trains.getD n {}).inletChannel .temperature true = true
      ((∀ n, n < 4 → ok n) → g.pst.plant = s.pst.plant.start p) ∧
      ((∃ n, n < 4 ∧ ¬ok n) → g.pst.plant = { s.pst.plant.start p with live := none, commit := none })) ∧
  (∀ (s : State) (p valid : Bool), (s.pst.mark && s.pst.checkMatches) = valid →
    let x := ((s.startGroups p).startPst p).restoreBlocks (!valid)
    beginStart p s = (missedBoundaries (siteToBook s.site true x.ev)).finish ∧
    (siteToBook s.site true x.ev).s.su = x.su ∧
    (beginStart p s).su = (missedBoundaries (siteToBook s.site true x.ev)).s.su ∧
    x.pst = { (s.startGroups p).pst with
      staging := none, profile := none, settle := none, queue := [], writing := none
      startKind := if valid then (if p then .retained else .controller) else .cold
      mark := true, checkMatches := true } ∧
    x.mu = { s.mu with
      channels := List.replicate 16
        { mode := .live, raw := none, value := 0, quality := .lost, hold := none, good := 0, test := none
          check := none, passHeld := false }
      runs := s.mu.runs.map fun r =>
        { r with
          cv := if valid then r.cv else 0, acc := if valid then r.acc else 0
          unvalued := if valid then r.unvalued else 0, last := none, rate := 0, zero := none }
      pass := .none, boundaries := [], clock := if valid then s.mu.clock else 0#32, set := valid && s.mu.set } ∧
    (∀ c, c < 8 → c < s.cvc.caverns.length →
      let r := s.cav c
      let out (present : Bool) (st : CavernState) : Cavern :=
        { r with
          present := present, state := st, target := none, command := .driveClose
          last := if valid then r.last else .none
          dwell := none, travel := none, injPermit := 0, wdPermit := 0, setpoint := 0, pressure := 0, quality := .lost
          envelope := .inside }
      (x.cavDef c = none → x.cav c = out false .outOfService) ∧
      ∀ d, x.cavDef c = some d →
        (d.channel = none → x.cav c = out true .outOfService) ∧
        (d.channel ≠ none → valid = false → x.cav c = out true .shut) ∧
        (d.channel ≠ none → valid = true → r.present = false → x.cav c = out true .outOfService) ∧
        (d.channel ≠ none → valid = true → r.present = true →
          x.cav c = out true (if r.state = .outOfService ∨ r.state = .tripped ∨ r.state = .valveFault then r.state
            else .shut))) ∧
    (let merit (l : List Nat) : List Nat :=
      let kept := if valid then l else []
      kept.filter (fun c => (x.cavDef c).isSome) ++ (List.range 8).filter fun c =>
        (x.cavDef c).isSome && !(valid && (s.cav c).present) && !kept.contains c
    x.cvc.injMerit = merit s.cvc.injMerit ∧ x.cvc.wdMerit = merit s.cvc.wdMerit) ∧
    (∀ u, u < 6 → u < s.cdm.units.length →
      let r := s.unit u
      let kept : CompUnit :=
        { r with
          command := .stop, start := none, stop := none, minRun := none, minRunTaken := false, rest := none
          failures := if valid then r.failures else 0
          history := if valid then r.history.dropWhile fun h => passed s.mu.clock (h + 3600#32) else []
          runSeconds := if valid then r.runSeconds else 0, startCount := if valid then r.startCount else 0 }
      (x.unitDef u = none → x.unit u = { kept with present := false, state := .maintenance }) ∧
      ∀ d, x.unitDef u = some d →
        (valid = false → x.unit u =
          { kept with present := true, state := .off, failures := 0, duty := d.duty }) ∧
        (valid = true → r.present = false → x.unit u =
          { kept with present := true, state := .resting, failures := 0, duty := d.duty }) ∧
        (valid = true → r.present = true → x.unit u =
          { kept with state :=
            if r.state = .maintenance ∨ r.state = .lockedOut then r.state else .resting })) ∧
    (∀ q : Duty, x.duty q =
      { order :=
          (if valid then (s.duty q).order else []).filter
              (fun u => 6 ≤ u || (x.unitDef u).isSome && (s.unit u).present) ++
            (List.range 6).filter fun u => (x.unitDef u).any fun d =>
              !(valid && (s.unit u).present) && d.duty == q
        running := [], demand := 0, startPending := none, stopPending := none }) ∧
    (∀ n, n < 4 → n < s.dtc.trains.length →
      let r := s.train n
      let bed (w : Tower) : Tower :=
        { w with
          state := if valid then w.state else .regenerating, loading := if valid then w.loading else 0
          residue := if valid then w.residue else 0, step := none, inletOpen := false }
      let unknown (d : TrainDef) (w : Tower) : Tower :=
        { w with
          state := .regenerating, loading := 0, residue := 0, step := some (x.after d.regen), inletOpen := false }
      let idle (present : Bool) (a b : Tower) : Train :=
        { present := present, inService := false, offSpec := false, offSpecDeadline := none, switch := none, towerA := a
          towerB := b }
      (x.trainDef n = none → x.train n = idle false (bed r.towerA) (bed r.towerB)) ∧
      ∀ d, x.trainDef n = some d →
        (valid = true → r.present = true → x.train n = idle true (bed r.towerA) (bed r.towerB)) ∧
        (valid = false ∨ r.present = false → x.train n = idle true (unknown d r.towerA) (unknown d r.towerB))) ∧
    (valid = true → x.acb = s.acb ∧ x.su = { s.su with missedTaken := 0 } ∧
      x.tru = { s.tru with headerAbove := false } ∧
      x.wnu.watches = s.wnu.watches.map fun w =>
        { w with
          latch := none
          state := if (w.state = .armed ∨ w.state = .fired) ∧ w.defn.any (fun d => x.sourceGone d.source) = true then
              .disarmed
            else w.state }) ∧
    (valid = false → x.acb = {} ∧ x.su = {} ∧ x.tru = { esd := s.tru.esd } ∧
      x.wnu.watches = List.replicate 24 {}) ∧
    x.wnu.channels = List.replicate 3 {} ∧ x.slu = { rate := (x.pst.site.live.map Site.linkRate).getD 1 } ∧
    x.fpl = { dispatch := x.pst.site.live.map fun q => x.after q.dispatchInterval }) ∧
  (∀ (ev : Ev) (u : Nat) (d : UnitDef), u < ev.s.cdm.units.length → ev.s.unitDef u = some d →
    let r := ev.s.unit u
    let x := completeStartUnit ev u
    (r.state = .resting → r.feedback = true → x.s.unit u =
      { r with
        command := .stop, state := .stopping, start := none, minRun := none, minRunTaken := false
        stop := some (ev.s.after d.stopTimeout) }) ∧
    (r.state = .resting → r.feedback = false → x.s.unit u = { r with rest := some (ev.s.after d.minRest) }) ∧
    (r.state = .off → r.feedback = true → (x.s.unit u).state = .lockedOut ∧
      x.raised = ev.raised ++ [⟨.unitLockedOut, some u, .cause .uncommanded⟩]) ∧
    (r.state = .off → r.feedback = false → x = ev) ∧ (r.state ≠ .resting → r.state ≠ .off → x = ev)) ∧
  (∀ ev : Ev,
    let m := missedBoundaries ev
    let su := ev.s.su
    (su.openStart = none ∨ ev.s.mu.set = false → m = ev) ∧
    ∀ start, su.openStart = some start → ev.s.mu.set = true →
      let now := ev.s.mu.clock.toNat
      let n : Nat := (if start.toNat ≤ now then 0 else 1193047) + now / 3600 - start.toNat / 3600
      let bound (k : Nat) : Clk := BitVec.ofNat 32 ((start.toNat / 3600 + k) % 1193047 * 3600)
      (ev.s.acb.loaded = true →
        let taken := min n (48 - su.due.length)
        m = { ev with s := { ev.s with
          mu := if 0 < taken ∧ su.missedTaken = 0 then ev.s.keepResidues.mu else ev.s.mu
          su := { su with
            lastNumber := su.lastNumber + taken, skipped := su.skipped + (n - taken)
            missedTaken := su.missedTaken + taken, openStart := some (if n = 0 then start else bound n)
            due := su.due ++ (List.range taken).map fun k =>
              { number := su.lastNumber + 1 + k, start := if k = 0 then start else bound k
                snapshot := if k = 0 ∧ su.missedTaken = 0 then some ev.s.meterSnapshot else none } } } }) ∧
      (ev.s.acb.loaded = false →
        let discard (e : Ev) (b : Clk) : Ev :=
          let day := b.toNat % 86400 == e.s.startHour * 3600 || b == 0#32
          let t := ({ e.s.keepResidues with
            su := { e.s.su with openStart := some b, missedTaken := e.s.su.missedTaken + 1 } } : State).advanceBook day
          reconfirm t.acb.running { e with s := t }
        let taken := min n (48 - su.missedTaken)
        let y := ((List.range taken).map fun k => bound (k + 1)).foldl discard ev
        (n = taken → m = y) ∧
        (taken < n → m = skipBook { y with s := { y.s with su := { y.s.su with openStart := some (bound n) } } }))) ∧
  (∀ ev : Ev,
    let x := skipBook ev
    let now := ev.s.mu.clock.toNat
    let changed (a : Nat) : Option Nat := (List.range 48).find? fun k => ((ev.s.account a).slot k).c != 0
    x.s = { ev.s with wnu := x.s.wnu, slu := x.s.slu, acb := x.s.acb } ∧
    x.s.acb = { ev.s.acb with
      running := if ev.s.startHour * 3600 ≤ now then (now - ev.s.startHour * 3600) % 86400 / 3600 else now / 3600
      caps := List.replicate 48
        { inj := (ev.s.site.map Site.nomInj).getD 0, wd := (ev.s.site.map Site.nomWd).getD 0, declared := false }
      accounts := ev.s.acb.accounts.map fun a =>
        { a with
          book := List.replicate 48 {}, fuel := 0
          mark := a.mark || (a.book.any fun k => k.c != 0) || a.state != .closed } } ∧
    x.raised = ev.raised ++ (List.range 32).filterMap fun a =>
      (changed a).map fun k => ⟨.curtailment, some a, .slot k⟩) ∧
  ∀ s : State,
    let z := (missedBoundaries ({ s with phase := .running } : State).ev).s
    let y := completeStart s
    let commits := [Group.site, Group.caverns, Group.plant].filter fun g => s.groupCommit g == some .committing
    let tower (d : Option TrainDef) (w : Tower) : Tower :=
      { w with
        inletOpen := if w.state = .adsorbing then true else w.inletOpen
        step := if w.state = .regenerating then (d.map fun k => some (s.after k.regen)).getD w.step
          else if w.state = .cooling then (d.map fun k => some (s.after k.cool)).getD w.step
          else w.step }
    y.slu = { rate := (s.pst.site.live.map Site.linkRate).getD 1 } ∧
    (∀ n, n < s.dtc.trains.length → y.train n =
      { s.train n with
        towerA := tower (s.trainDef n) (s.train n).towerA, towerB := tower (s.trainDef n) (s.train n).towerB }) ∧
    (z.su.current ≠ none ∨ z.su.due = [] → y.su = z.su) ∧
    (∀ d rest, z.su.current = none → z.su.due = d :: rest →
      y.su = { z.su with current := some { due := d, slot := z.acb.running }, due := rest }) ∧
    (s.tru.esd = true → s.tru.tripped = false → y.tru.tripped = true) ∧
    (s.pst.queue = [] → s.pst.writing = none → y.pst.writing = commits.head? ∧ y.pst.queue = commits.tail)

/-! ### The station link -/

/-- The body of a well-formed request reads back as the request (11.2, 11.5, R185, R186). -/
def Obligations.RequestBodyReadsBack : Prop :=
  ∀ (c : Instr) (k : Nat), c.wellFormed = true → c.kind = some k → decodeRequest k c.tag c.body = some c

/-- The bytes of a well-formed request's frame, received one after another by a hunting receiver, and the frame's end
put that request into the queue of a running part (R177, R178). -/
def Obligations.RequestBytesReachTheQueue : Prop :=
  ∀ (c : Instr) (k : Nat) (s : State), c.wellFormed = true → c.kind = some k → s.phase = .running →
    s.slu.resetPending = false → s.slu.receiver = .hunting → s.slu.queue.length < 4 →
    let bytes := frameBytes k c.tag c.body
    core.run (bytes.length + 1) { s with pending := bytes.map Instr.byteReceived ++ [.frameReceived] } =
      .next { s with
        pending := []
        slu := { s.slu with
          queue := s.slu.queue ++
            [{ request := c, block := (blockOf c).getD .slu, arrival := s.slu.arrivals, state := .inTurn }]
          arrivals := s.slu.arrivals + 1 } }

/-- What happens on the line of a running part (R150, R177, R181, R183): bytes gathered, a length byte above 240 sending
the receiver back to HUNTING, a frame discarded by a gap or an error, a whole frame with a good CRC judged in the order
of R178 (UNKNOWN_KIND, BAD_LENGTH, QUEUE_FULL, each dropped where the refusal record is occupied, or a place in the
queue), or discarded unjudged with a reset pending, the line granted by the arbiter to the N1 notice, the oldest reply,
the N2 or the N3 notice, in that order, a PENDING channel that is not held being offered, a telegram's end freeing its
place in the queue or the refusal record (a notice has none), a link rate that waited for the reply taken up with the
frame being gathered discarded (R176; that one with all its bytes there goes too is the model's choice, log entry 31),
and the reset that RESET_CONTROLLER asks for when its reply has left. A telegram's end with nothing being sent, a
frame's end without a whole frame, and a grant with nothing to grant do nothing (log entry 2). -/
def Obligations.LineEventsGatherGrantAndFree : Prop :=
  ∀ (s : State) (e : QEntry) (t n a : Nat) (b : Byte) (l : List Byte) (r : Reply) (rest : List Reply),
    s.phase = .running →
    (s.slu.receiver = .hunting → b = 0x5A#8 →
      exec (.byteReceived b) s = .next { s with slu := { s.slu with receiver := .inFrame [] s.mu.ms } }) ∧
    (s.slu.receiver = .hunting → b ≠ 0x5A#8 → exec (.byteReceived b) s = .next s) ∧
    (s.slu.receiver = .inFrame l n → l ≠ [] → frameWhole l = false → s.mu.ms ≤ n + 10 →
      exec (.byteReceived b) s = .next { s with slu := { s.slu with receiver := .inFrame (l ++ [b]) s.mu.ms } }) ∧
    (s.slu.receiver = .inFrame [] n → s.mu.ms ≤ n + 10 →
      (b.toNat ≤ 240 →
        exec (.byteReceived b) s = .next { s with slu := { s.slu with receiver := .inFrame [b] s.mu.ms } }) ∧
      (240 < b.toNat → exec (.byteReceived b) s = .next { s with slu := { s.slu with receiver := .hunting } })) ∧
    (s.slu.receiver = .inFrame l n → frameWhole l = true → s.slu.resetPending = false → frameParts l = none →
      exec .frameReceived s = .next s.hunt) ∧
    (s.slu.receiver = .hunting → exec .frameReceived s = .next s) ∧
    (s.slu.receiver = .inFrame l n → frameWhole l = false → exec .frameReceived s = .next s) ∧
    (∀ k tag body, s.slu.receiver = .inFrame l n → frameWhole l = true → frameParts l = some (k, tag, body) →
      let refused (kind : Nat) (st : Status) (d : Detail) : Prop :=
        let r : Reply := { origin := .refusal, kind := kind, tag := tag, status := st, detail := d, body := [] }
        (s.slu.refusal = none → exec .frameReceived s = .next { s with slu :=
          { s.slu with receiver := .hunting, refusal := some r, order := s.slu.order ++ [r] } }) ∧
        (s.slu.refusal ≠ none → exec .frameReceived s = .next { s with slu := { s.slu with receiver := .hunting } })
      (s.slu.resetPending = true →
        exec .frameReceived s = .next { s with slu := { s.slu with receiver := .hunting } }) ∧
      (s.slu.resetPending = false →
        (kindLengths k = none → refused 0xFF .unknownKind ⟨.kind, k⟩) ∧
        (kindLengths k ≠ none → lengthAllowed k body.length = false → refused (k + 0x80) .badLength {}) ∧
        (lengthAllowed k body.length = true → 4 ≤ s.slu.queue.length → refused (k + 0x80) .queueFull {}) ∧
        (lengthAllowed k body.length = true → s.slu.queue.length < 4 →
          ∃ c, decodeRequest k tag body = some c ∧ c.kind = some k ∧ c.tag = tag ∧
            exec .frameReceived s = .next { s with slu :=
              { s.slu with
                receiver := .hunting, arrivals := s.slu.arrivals + 1
                queue := s.slu.queue ++
                  [{ request := c, block := (blockOf c).getD .slu, arrival := s.slu.arrivals
                     state := .inTurn }] } }))) ∧
    (s.slu.receiver = .inFrame l n → frameWhole l = false → n + 10 < s.mu.ms → exec .frameGapTimeout s = .next s.hunt) ∧
    (s.slu.receiver = .inFrame l n → frameWhole l = false → exec .framingError s = .next s.hunt) ∧
    (s.slu.sending = none → s.slu.order = r :: rest → s.offered 0 = false →
      exec .replyGrant s = .next { s with slu := { s.slu with sending := some (.reply r), order := rest } }) ∧
    (s.slu.sending ≠ none ∨ s.slu.order = [] ∨ s.offered 0 = true → exec .replyGrant s = .next s) ∧
    (∀ c, s.offered c = true ↔
      s.slu.resetPending = false ∧ (s.notice c).state = .pending ∧ (s.notice c).held = false) ∧
    s.noticeChosen = (if s.slu.sending ≠ none then none
      else if s.offered 0 = true then some 0
      else if s.slu.order ≠ [] then none
      else if s.offered 1 = true then some 1
      else if s.offered 2 = true then some 2
      else none) ∧
    (s.noticeChosen = none → exec .noticeSent s = .next s) ∧
    (s.noticeChosen = some n →
      exec .noticeSent s = .next
        (({ s with slu := { s.slu with sending := some (.notice n (s.notice n).list) } } : State).updNotice n fun c =>
          { c with state := .outstanding })) ∧
    (s.slu.sending = some (.reply r) → r.origin = .entry a → s.slu.resetReply = none → s.slu.newRates = [] →
      exec .telegramComplete s = .next { s with slu :=
        { s.slu with sending := none, queue := s.slu.queue.filter (·.arrival != a) } }) ∧
    (s.slu.sending = some (.reply r) → r.origin = .refusal →
      exec .telegramComplete s = .next { s with slu := { s.slu with sending := none, refusal := none } }) ∧
    (∀ list, s.slu.sending = some (.notice n list) →
      exec .telegramComplete s = .next { s with slu := { s.slu with sending := none } }) ∧
    (∀ rate waiting, s.slu.sending = some (.reply r) → r.origin = .entry a → s.slu.resetReply ≠ some a →
      s.slu.newRates = (a, rate) :: waiting → (∀ x ∈ waiting, x.1 ≠ a) →
      exec .telegramComplete s = .next { s with slu :=
        { s.slu with
          sending := none, queue := s.slu.queue.filter (·.arrival != a), rate := rate, newRates := waiting
          receiver := .hunting } }) ∧
    (s.slu.sending = none → exec .telegramComplete s = .next s) ∧
    (s.slu.sending = some (.reply r) → r.origin = .entry a → s.slu.resetReply = some a →
      exec .telegramComplete s = .next (beginStart false { s with slu :=
        { s.slu with sending := none, queue := s.slu.queue.filter (·.arrival != a) } })) ∧
    (takes (.resetController t) s e →
      completes (.resetController t) s e
        (fun x => ({ x with slu := { x.slu with resetPending := true } } : State).ev) fun _ => [])

/-! ### Laws and frames -/

/-- Every step keeps the tables of records at their sizes, and the laws of the plant: no cavern's setpoint is nonzero
but in its flowing state and within its permit (R34), the open command is driven just in OPENING and the open states, a
unit's command is RUN just in STARTING and RUNNING, a tower in STANDBY holds no water (R62), and while the station is
TRIPPED the planner is HELD (R156). -/
def Obligations.EveryStepKeepsPlantLaws : Prop :=
  ∀ s t : State, step s = .next t →
    (SizeLaw s → SizeLaw t) ∧ (CavernLaw s → CavernLaw t) ∧ (UnitLaw s → UnitLaw t) ∧ (TowerLaw s → TowerLaw t) ∧
      (TripLaw s → TripLaw t)

/-- Every step keeps the laws of the queue and of the notices: at most 4 requests in rising arrival order (R178), lists
of at most 8 entries of different sources, empty where their channel's state says so (R149). -/
def Obligations.EveryStepKeepsLinkLaws : Prop :=
  ∀ s t : State, step s = .next t → (QueueLaw s → QueueLaw t) ∧ (NoticeLaw s → NoticeLaw t)

/-- The state after reset holds every law, with the clock at 0 and UNSET, every group INVALID, the book UNLOADED and
empty, the planner HELD, the station NORMAL, every channel LOST and every watch EMPTY (R11, R17, R18, R102, R121, R161,
R162, R173; that reset is a COLD START with an empty store is the model's choice, log entry 5). -/
def Obligations.ResetStateHoldsLaws : Prop :=
  let s := State.reset
  SizeLaw s ∧ CavernLaw s ∧ UnitLaw s ∧ TowerLaw s ∧ NoticeLaw s ∧ TripLaw s ∧ QueueLaw s ∧ s.pending = [] ∧
  s.mu.clock = 0#32 ∧ s.mu.set = false ∧ s.pst.site.live = none ∧ s.pst.caverns.live = none ∧
  s.pst.plant.live = none ∧ s.acb.loaded = false ∧ s.fpl.active = false ∧ s.tru.tripped = false ∧
  s.su.balance = 0 ∧ s.su.ring = [] ∧
  (∀ c ∈ s.mu.channels, c.quality = .lost ∧ c.mode = .live ∧ c.good = 0) ∧
  (∀ r ∈ s.mu.runs, r.cv = 0 ∧ r.acc = 0 ∧ r.unvalued = 0) ∧
  (∀ a ∈ s.acb.accounts, a.state = .closed ∧ a.inventory = 0) ∧ (∀ w ∈ s.wnu.watches, w.state = .empty)

/-- Frames: what each family of commands leaves as it was, whatever else it does. -/
def Obligations.FamiliesLeaveOtherBlocksAlone : Prop :=
  ∀ (c : Instr) (s t : State), exec c s = .next t →
    (c.flowOnly = true → t.mu = s.mu ∧ t.dtc = s.dtc ∧ t.acb = s.acb ∧ t.su = s.su ∧ t.pst = s.pst ∧
      t.phase = s.phase ∧ t.resetInput = s.resetInput) ∧
    (c.gasOnly = true → t.acb = s.acb ∧ t.su = s.su ∧ t.pst = s.pst ∧ t.phase = s.phase ∧
      t.resetInput = s.resetInput) ∧
    (c.bookOnly = true → t.mu = s.mu ∧ t.dtc = s.dtc ∧ t.pst = s.pst ∧ t.phase = s.phase ∧
      t.resetInput = s.resetInput) ∧
    (c.watchOnly = true → t.mu = s.mu ∧ t.cvc = s.cvc ∧ t.cdm = s.cdm ∧ t.dtc = s.dtc ∧ t.acb = s.acb ∧
      t.fpl = s.fpl ∧ t.su = s.su ∧ t.tru = s.tru ∧ t.pst = s.pst ∧ t.phase = s.phase ∧ t.resetInput = s.resetInput) ∧
    (c.lineOnly = true → t = { s with slu := t.slu })
end

