-- ==== Sys2Proof/Laws/State.lean ====
section
/-! SUPPORT. What each update of the state leaves as it was: one lemma for each field it does not write, true by
computation, so that a proof need not unfold the update. -/

namespace Sys2Proof.Machine

set_option Elab.async false

variable (s : State)

@[simp] theorem State.updChan_pending (c : Nat) (f : Channel → Channel) : (s.updChan c f).pending = s.pending := rfl
@[simp] theorem State.updChan_phase (c : Nat) (f : Channel → Channel) : (s.updChan c f).phase = s.phase := rfl
@[simp] theorem State.updChan_resetInput (c : Nat) (f : Channel → Channel) : (s.updChan c f).resetInput = s.resetInput := rfl
@[simp] theorem State.updChan_cvc (c : Nat) (f : Channel → Channel) : (s.updChan c f).cvc = s.cvc := rfl
@[simp] theorem State.updChan_cdm (c : Nat) (f : Channel → Channel) : (s.updChan c f).cdm = s.cdm := rfl
@[simp] theorem State.updChan_dtc (c : Nat) (f : Channel → Channel) : (s.updChan c f).dtc = s.dtc := rfl
@[simp] theorem State.updChan_acb (c : Nat) (f : Channel → Channel) : (s.updChan c f).acb = s.acb := rfl
@[simp] theorem State.updChan_fpl (c : Nat) (f : Channel → Channel) : (s.updChan c f).fpl = s.fpl := rfl
@[simp] theorem State.updChan_su (c : Nat) (f : Channel → Channel) : (s.updChan c f).su = s.su := rfl
@[simp] theorem State.updChan_wnu (c : Nat) (f : Channel → Channel) : (s.updChan c f).wnu = s.wnu := rfl
@[simp] theorem State.updChan_tru (c : Nat) (f : Channel → Channel) : (s.updChan c f).tru = s.tru := rfl
@[simp] theorem State.updChan_pst (c : Nat) (f : Channel → Channel) : (s.updChan c f).pst = s.pst := rfl
@[simp] theorem State.updChan_slu (c : Nat) (f : Channel → Channel) : (s.updChan c f).slu = s.slu := rfl

@[simp] theorem State.updRun_pending (r : Nat) (f : Run → Run) : (s.updRun r f).pending = s.pending := rfl
@[simp] theorem State.updRun_phase (r : Nat) (f : Run → Run) : (s.updRun r f).phase = s.phase := rfl
@[simp] theorem State.updRun_resetInput (r : Nat) (f : Run → Run) : (s.updRun r f).resetInput = s.resetInput := rfl
@[simp] theorem State.updRun_cvc (r : Nat) (f : Run → Run) : (s.updRun r f).cvc = s.cvc := rfl
@[simp] theorem State.updRun_cdm (r : Nat) (f : Run → Run) : (s.updRun r f).cdm = s.cdm := rfl
@[simp] theorem State.updRun_dtc (r : Nat) (f : Run → Run) : (s.updRun r f).dtc = s.dtc := rfl
@[simp] theorem State.updRun_acb (r : Nat) (f : Run → Run) : (s.updRun r f).acb = s.acb := rfl
@[simp] theorem State.updRun_fpl (r : Nat) (f : Run → Run) : (s.updRun r f).fpl = s.fpl := rfl
@[simp] theorem State.updRun_su (r : Nat) (f : Run → Run) : (s.updRun r f).su = s.su := rfl
@[simp] theorem State.updRun_wnu (r : Nat) (f : Run → Run) : (s.updRun r f).wnu = s.wnu := rfl
@[simp] theorem State.updRun_tru (r : Nat) (f : Run → Run) : (s.updRun r f).tru = s.tru := rfl
@[simp] theorem State.updRun_pst (r : Nat) (f : Run → Run) : (s.updRun r f).pst = s.pst := rfl
@[simp] theorem State.updRun_slu (r : Nat) (f : Run → Run) : (s.updRun r f).slu = s.slu := rfl

@[simp] theorem State.updCav_pending (c : Nat) (f : Cavern → Cavern) : (s.updCav c f).pending = s.pending := rfl
@[simp] theorem State.updCav_phase (c : Nat) (f : Cavern → Cavern) : (s.updCav c f).phase = s.phase := rfl
@[simp] theorem State.updCav_resetInput (c : Nat) (f : Cavern → Cavern) : (s.updCav c f).resetInput = s.resetInput := rfl
@[simp] theorem State.updCav_mu (c : Nat) (f : Cavern → Cavern) : (s.updCav c f).mu = s.mu := rfl
@[simp] theorem State.updCav_cdm (c : Nat) (f : Cavern → Cavern) : (s.updCav c f).cdm = s.cdm := rfl
@[simp] theorem State.updCav_dtc (c : Nat) (f : Cavern → Cavern) : (s.updCav c f).dtc = s.dtc := rfl
@[simp] theorem State.updCav_acb (c : Nat) (f : Cavern → Cavern) : (s.updCav c f).acb = s.acb := rfl
@[simp] theorem State.updCav_fpl (c : Nat) (f : Cavern → Cavern) : (s.updCav c f).fpl = s.fpl := rfl
@[simp] theorem State.updCav_su (c : Nat) (f : Cavern → Cavern) : (s.updCav c f).su = s.su := rfl
@[simp] theorem State.updCav_wnu (c : Nat) (f : Cavern → Cavern) : (s.updCav c f).wnu = s.wnu := rfl
@[simp] theorem State.updCav_tru (c : Nat) (f : Cavern → Cavern) : (s.updCav c f).tru = s.tru := rfl
@[simp] theorem State.updCav_pst (c : Nat) (f : Cavern → Cavern) : (s.updCav c f).pst = s.pst := rfl
@[simp] theorem State.updCav_slu (c : Nat) (f : Cavern → Cavern) : (s.updCav c f).slu = s.slu := rfl

@[simp] theorem State.updUnit_pending (u : Nat) (f : CompUnit → CompUnit) : (s.updUnit u f).pending = s.pending := rfl
@[simp] theorem State.updUnit_phase (u : Nat) (f : CompUnit → CompUnit) : (s.updUnit u f).phase = s.phase := rfl
@[simp] theorem State.updUnit_resetInput (u : Nat) (f : CompUnit → CompUnit) : (s.updUnit u f).resetInput = s.resetInput := rfl
@[simp] theorem State.updUnit_mu (u : Nat) (f : CompUnit → CompUnit) : (s.updUnit u f).mu = s.mu := rfl
@[simp] theorem State.updUnit_cvc (u : Nat) (f : CompUnit → CompUnit) : (s.updUnit u f).cvc = s.cvc := rfl
@[simp] theorem State.updUnit_dtc (u : Nat) (f : CompUnit → CompUnit) : (s.updUnit u f).dtc = s.dtc := rfl
@[simp] theorem State.updUnit_acb (u : Nat) (f : CompUnit → CompUnit) : (s.updUnit u f).acb = s.acb := rfl
@[simp] theorem State.updUnit_fpl (u : Nat) (f : CompUnit → CompUnit) : (s.updUnit u f).fpl = s.fpl := rfl
@[simp] theorem State.updUnit_su (u : Nat) (f : CompUnit → CompUnit) : (s.updUnit u f).su = s.su := rfl
@[simp] theorem State.updUnit_wnu (u : Nat) (f : CompUnit → CompUnit) : (s.updUnit u f).wnu = s.wnu := rfl
@[simp] theorem State.updUnit_tru (u : Nat) (f : CompUnit → CompUnit) : (s.updUnit u f).tru = s.tru := rfl
@[simp] theorem State.updUnit_pst (u : Nat) (f : CompUnit → CompUnit) : (s.updUnit u f).pst = s.pst := rfl
@[simp] theorem State.updUnit_slu (u : Nat) (f : CompUnit → CompUnit) : (s.updUnit u f).slu = s.slu := rfl

@[simp] theorem State.updDuty_pending (d : Duty) (f : DutyRec → DutyRec) : (s.updDuty d f).pending = s.pending := by cases d <;> rfl
@[simp] theorem State.updDuty_phase (d : Duty) (f : DutyRec → DutyRec) : (s.updDuty d f).phase = s.phase := by cases d <;> rfl
@[simp] theorem State.updDuty_resetInput (d : Duty) (f : DutyRec → DutyRec) : (s.updDuty d f).resetInput = s.resetInput := by cases d <;> rfl
@[simp] theorem State.updDuty_mu (d : Duty) (f : DutyRec → DutyRec) : (s.updDuty d f).mu = s.mu := by cases d <;> rfl
@[simp] theorem State.updDuty_cvc (d : Duty) (f : DutyRec → DutyRec) : (s.updDuty d f).cvc = s.cvc := by cases d <;> rfl
@[simp] theorem State.updDuty_dtc (d : Duty) (f : DutyRec → DutyRec) : (s.updDuty d f).dtc = s.dtc := by cases d <;> rfl
@[simp] theorem State.updDuty_acb (d : Duty) (f : DutyRec → DutyRec) : (s.updDuty d f).acb = s.acb := by cases d <;> rfl
@[simp] theorem State.updDuty_fpl (d : Duty) (f : DutyRec → DutyRec) : (s.updDuty d f).fpl = s.fpl := by cases d <;> rfl
@[simp] theorem State.updDuty_su (d : Duty) (f : DutyRec → DutyRec) : (s.updDuty d f).su = s.su := by cases d <;> rfl
@[simp] theorem State.updDuty_wnu (d : Duty) (f : DutyRec → DutyRec) : (s.updDuty d f).wnu = s.wnu := by cases d <;> rfl
@[simp] theorem State.updDuty_tru (d : Duty) (f : DutyRec → DutyRec) : (s.updDuty d f).tru = s.tru := by cases d <;> rfl
@[simp] theorem State.updDuty_pst (d : Duty) (f : DutyRec → DutyRec) : (s.updDuty d f).pst = s.pst := by cases d <;> rfl
@[simp] theorem State.updDuty_slu (d : Duty) (f : DutyRec → DutyRec) : (s.updDuty d f).slu = s.slu := by cases d <;> rfl

@[simp] theorem State.updTrain_pending (t : Nat) (f : Train → Train) : (s.updTrain t f).pending = s.pending := rfl
@[simp] theorem State.updTrain_phase (t : Nat) (f : Train → Train) : (s.updTrain t f).phase = s.phase := rfl
@[simp] theorem State.updTrain_resetInput (t : Nat) (f : Train → Train) : (s.updTrain t f).resetInput = s.resetInput := rfl
@[simp] theorem State.updTrain_mu (t : Nat) (f : Train → Train) : (s.updTrain t f).mu = s.mu := rfl
@[simp] theorem State.updTrain_cvc (t : Nat) (f : Train → Train) : (s.updTrain t f).cvc = s.cvc := rfl
@[simp] theorem State.updTrain_cdm (t : Nat) (f : Train → Train) : (s.updTrain t f).cdm = s.cdm := rfl
@[simp] theorem State.updTrain_acb (t : Nat) (f : Train → Train) : (s.updTrain t f).acb = s.acb := rfl
@[simp] theorem State.updTrain_fpl (t : Nat) (f : Train → Train) : (s.updTrain t f).fpl = s.fpl := rfl
@[simp] theorem State.updTrain_su (t : Nat) (f : Train → Train) : (s.updTrain t f).su = s.su := rfl
@[simp] theorem State.updTrain_wnu (t : Nat) (f : Train → Train) : (s.updTrain t f).wnu = s.wnu := rfl
@[simp] theorem State.updTrain_tru (t : Nat) (f : Train → Train) : (s.updTrain t f).tru = s.tru := rfl
@[simp] theorem State.updTrain_pst (t : Nat) (f : Train → Train) : (s.updTrain t f).pst = s.pst := rfl
@[simp] theorem State.updTrain_slu (t : Nat) (f : Train → Train) : (s.updTrain t f).slu = s.slu := rfl

@[simp] theorem State.updAccount_pending (a : Nat) (f : Account → Account) : (s.updAccount a f).pending = s.pending := rfl
@[simp] theorem State.updAccount_phase (a : Nat) (f : Account → Account) : (s.updAccount a f).phase = s.phase := rfl
@[simp] theorem State.updAccount_resetInput (a : Nat) (f : Account → Account) : (s.updAccount a f).resetInput = s.resetInput := rfl
@[simp] theorem State.updAccount_mu (a : Nat) (f : Account → Account) : (s.updAccount a f).mu = s.mu := rfl
@[simp] theorem State.updAccount_cvc (a : Nat) (f : Account → Account) : (s.updAccount a f).cvc = s.cvc := rfl
@[simp] theorem State.updAccount_cdm (a : Nat) (f : Account → Account) : (s.updAccount a f).cdm = s.cdm := rfl
@[simp] theorem State.updAccount_dtc (a : Nat) (f : Account → Account) : (s.updAccount a f).dtc = s.dtc := rfl
@[simp] theorem State.updAccount_fpl (a : Nat) (f : Account → Account) : (s.updAccount a f).fpl = s.fpl := rfl
@[simp] theorem State.updAccount_su (a : Nat) (f : Account → Account) : (s.updAccount a f).su = s.su := rfl
@[simp] theorem State.updAccount_wnu (a : Nat) (f : Account → Account) : (s.updAccount a f).wnu = s.wnu := rfl
@[simp] theorem State.updAccount_tru (a : Nat) (f : Account → Account) : (s.updAccount a f).tru = s.tru := rfl
@[simp] theorem State.updAccount_pst (a : Nat) (f : Account → Account) : (s.updAccount a f).pst = s.pst := rfl
@[simp] theorem State.updAccount_slu (a : Nat) (f : Account → Account) : (s.updAccount a f).slu = s.slu := rfl

@[simp] theorem State.updWatch_pending (w : Nat) (f : Watch → Watch) : (s.updWatch w f).pending = s.pending := rfl
@[simp] theorem State.updWatch_phase (w : Nat) (f : Watch → Watch) : (s.updWatch w f).phase = s.phase := rfl
@[simp] theorem State.updWatch_resetInput (w : Nat) (f : Watch → Watch) : (s.updWatch w f).resetInput = s.resetInput := rfl
@[simp] theorem State.updWatch_mu (w : Nat) (f : Watch → Watch) : (s.updWatch w f).mu = s.mu := rfl
@[simp] theorem State.updWatch_cvc (w : Nat) (f : Watch → Watch) : (s.updWatch w f).cvc = s.cvc := rfl
@[simp] theorem State.updWatch_cdm (w : Nat) (f : Watch → Watch) : (s.updWatch w f).cdm = s.cdm := rfl
@[simp] theorem State.updWatch_dtc (w : Nat) (f : Watch → Watch) : (s.updWatch w f).dtc = s.dtc := rfl
@[simp] theorem State.updWatch_acb (w : Nat) (f : Watch → Watch) : (s.updWatch w f).acb = s.acb := rfl
@[simp] theorem State.updWatch_fpl (w : Nat) (f : Watch → Watch) : (s.updWatch w f).fpl = s.fpl := rfl
@[simp] theorem State.updWatch_su (w : Nat) (f : Watch → Watch) : (s.updWatch w f).su = s.su := rfl
@[simp] theorem State.updWatch_tru (w : Nat) (f : Watch → Watch) : (s.updWatch w f).tru = s.tru := rfl
@[simp] theorem State.updWatch_pst (w : Nat) (f : Watch → Watch) : (s.updWatch w f).pst = s.pst := rfl
@[simp] theorem State.updWatch_slu (w : Nat) (f : Watch → Watch) : (s.updWatch w f).slu = s.slu := rfl

@[simp] theorem State.updNotice_pending (n : Nat) (f : NoticeChannel → NoticeChannel) : (s.updNotice n f).pending = s.pending := rfl
@[simp] theorem State.updNotice_phase (n : Nat) (f : NoticeChannel → NoticeChannel) : (s.updNotice n f).phase = s.phase := rfl
@[simp] theorem State.updNotice_resetInput (n : Nat) (f : NoticeChannel → NoticeChannel) : (s.updNotice n f).resetInput = s.resetInput := rfl
@[simp] theorem State.updNotice_mu (n : Nat) (f : NoticeChannel → NoticeChannel) : (s.updNotice n f).mu = s.mu := rfl
@[simp] theorem State.updNotice_cvc (n : Nat) (f : NoticeChannel → NoticeChannel) : (s.updNotice n f).cvc = s.cvc := rfl
@[simp] theorem State.updNotice_cdm (n : Nat) (f : NoticeChannel → NoticeChannel) : (s.updNotice n f).cdm = s.cdm := rfl
@[simp] theorem State.updNotice_dtc (n : Nat) (f : NoticeChannel → NoticeChannel) : (s.updNotice n f).dtc = s.dtc := rfl
@[simp] theorem State.updNotice_acb (n : Nat) (f : NoticeChannel → NoticeChannel) : (s.updNotice n f).acb = s.acb := rfl
@[simp] theorem State.updNotice_fpl (n : Nat) (f : NoticeChannel → NoticeChannel) : (s.updNotice n f).fpl = s.fpl := rfl
@[simp] theorem State.updNotice_su (n : Nat) (f : NoticeChannel → NoticeChannel) : (s.updNotice n f).su = s.su := rfl
@[simp] theorem State.updNotice_tru (n : Nat) (f : NoticeChannel → NoticeChannel) : (s.updNotice n f).tru = s.tru := rfl
@[simp] theorem State.updNotice_pst (n : Nat) (f : NoticeChannel → NoticeChannel) : (s.updNotice n f).pst = s.pst := rfl
@[simp] theorem State.updNotice_slu (n : Nat) (f : NoticeChannel → NoticeChannel) : (s.updNotice n f).slu = s.slu := rfl

@[simp] theorem State.setEntry_pending (a : Nat) (st : EntryState) : (s.setEntry a st).pending = s.pending := rfl
@[simp] theorem State.setEntry_phase (a : Nat) (st : EntryState) : (s.setEntry a st).phase = s.phase := rfl
@[simp] theorem State.setEntry_resetInput (a : Nat) (st : EntryState) : (s.setEntry a st).resetInput = s.resetInput := rfl
@[simp] theorem State.setEntry_mu (a : Nat) (st : EntryState) : (s.setEntry a st).mu = s.mu := rfl
@[simp] theorem State.setEntry_cvc (a : Nat) (st : EntryState) : (s.setEntry a st).cvc = s.cvc := rfl
@[simp] theorem State.setEntry_cdm (a : Nat) (st : EntryState) : (s.setEntry a st).cdm = s.cdm := rfl
@[simp] theorem State.setEntry_dtc (a : Nat) (st : EntryState) : (s.setEntry a st).dtc = s.dtc := rfl
@[simp] theorem State.setEntry_acb (a : Nat) (st : EntryState) : (s.setEntry a st).acb = s.acb := rfl
@[simp] theorem State.setEntry_fpl (a : Nat) (st : EntryState) : (s.setEntry a st).fpl = s.fpl := rfl
@[simp] theorem State.setEntry_su (a : Nat) (st : EntryState) : (s.setEntry a st).su = s.su := rfl
@[simp] theorem State.setEntry_wnu (a : Nat) (st : EntryState) : (s.setEntry a st).wnu = s.wnu := rfl
@[simp] theorem State.setEntry_tru (a : Nat) (st : EntryState) : (s.setEntry a st).tru = s.tru := rfl
@[simp] theorem State.setEntry_pst (a : Nat) (st : EntryState) : (s.setEntry a st).pst = s.pst := rfl

@[simp] theorem State.formReply_pending (e : QEntry) (st : Status) (d : Detail) (b : List Fld) : (s.formReply e st d b).pending = s.pending := rfl
@[simp] theorem State.formReply_phase (e : QEntry) (st : Status) (d : Detail) (b : List Fld) : (s.formReply e st d b).phase = s.phase := rfl
@[simp] theorem State.formReply_resetInput (e : QEntry) (st : Status) (d : Detail) (b : List Fld) : (s.formReply e st d b).resetInput = s.resetInput := rfl
@[simp] theorem State.formReply_mu (e : QEntry) (st : Status) (d : Detail) (b : List Fld) : (s.formReply e st d b).mu = s.mu := rfl
@[simp] theorem State.formReply_cvc (e : QEntry) (st : Status) (d : Detail) (b : List Fld) : (s.formReply e st d b).cvc = s.cvc := rfl
@[simp] theorem State.formReply_cdm (e : QEntry) (st : Status) (d : Detail) (b : List Fld) : (s.formReply e st d b).cdm = s.cdm := rfl
@[simp] theorem State.formReply_dtc (e : QEntry) (st : Status) (d : Detail) (b : List Fld) : (s.formReply e st d b).dtc = s.dtc := rfl
@[simp] theorem State.formReply_acb (e : QEntry) (st : Status) (d : Detail) (b : List Fld) : (s.formReply e st d b).acb = s.acb := rfl
@[simp] theorem State.formReply_fpl (e : QEntry) (st : Status) (d : Detail) (b : List Fld) : (s.formReply e st d b).fpl = s.fpl := rfl
@[simp] theorem State.formReply_su (e : QEntry) (st : Status) (d : Detail) (b : List Fld) : (s.formReply e st d b).su = s.su := rfl
@[simp] theorem State.formReply_wnu (e : QEntry) (st : Status) (d : Detail) (b : List Fld) : (s.formReply e st d b).wnu = s.wnu := rfl
@[simp] theorem State.formReply_tru (e : QEntry) (st : Status) (d : Detail) (b : List Fld) : (s.formReply e st d b).tru = s.tru := rfl
@[simp] theorem State.formReply_pst (e : QEntry) (st : Status) (d : Detail) (b : List Fld) : (s.formReply e st d b).pst = s.pst := rfl

@[simp] theorem State.clearFlags_pending : (s.clearFlags).pending = s.pending := rfl
@[simp] theorem State.clearFlags_phase : (s.clearFlags).phase = s.phase := rfl
@[simp] theorem State.clearFlags_resetInput : (s.clearFlags).resetInput = s.resetInput := rfl
@[simp] theorem State.clearFlags_mu : (s.clearFlags).mu = s.mu := rfl
@[simp] theorem State.clearFlags_cvc : (s.clearFlags).cvc = s.cvc := rfl
@[simp] theorem State.clearFlags_cdm : (s.clearFlags).cdm = s.cdm := rfl
@[simp] theorem State.clearFlags_dtc : (s.clearFlags).dtc = s.dtc := rfl
@[simp] theorem State.clearFlags_acb : (s.clearFlags).acb = s.acb := rfl
@[simp] theorem State.clearFlags_fpl : (s.clearFlags).fpl = s.fpl := rfl
@[simp] theorem State.clearFlags_su : (s.clearFlags).su = s.su := rfl
@[simp] theorem State.clearFlags_tru : (s.clearFlags).tru = s.tru := rfl
@[simp] theorem State.clearFlags_pst : (s.clearFlags).pst = s.pst := rfl
@[simp] theorem State.clearFlags_slu : (s.clearFlags).slu = s.slu := rfl

@[simp] theorem State.joinNotice_pending (n : Nat) (src : NoticeSource) (k : Nat) : (s.joinNotice n src k).pending = s.pending := rfl
@[simp] theorem State.joinNotice_phase (n : Nat) (src : NoticeSource) (k : Nat) : (s.joinNotice n src k).phase = s.phase := rfl
@[simp] theorem State.joinNotice_resetInput (n : Nat) (src : NoticeSource) (k : Nat) : (s.joinNotice n src k).resetInput = s.resetInput := rfl
@[simp] theorem State.joinNotice_mu (n : Nat) (src : NoticeSource) (k : Nat) : (s.joinNotice n src k).mu = s.mu := rfl
@[simp] theorem State.joinNotice_cvc (n : Nat) (src : NoticeSource) (k : Nat) : (s.joinNotice n src k).cvc = s.cvc := rfl
@[simp] theorem State.joinNotice_cdm (n : Nat) (src : NoticeSource) (k : Nat) : (s.joinNotice n src k).cdm = s.cdm := rfl
@[simp] theorem State.joinNotice_dtc (n : Nat) (src : NoticeSource) (k : Nat) : (s.joinNotice n src k).dtc = s.dtc := rfl
@[simp] theorem State.joinNotice_acb (n : Nat) (src : NoticeSource) (k : Nat) : (s.joinNotice n src k).acb = s.acb := rfl
@[simp] theorem State.joinNotice_fpl (n : Nat) (src : NoticeSource) (k : Nat) : (s.joinNotice n src k).fpl = s.fpl := rfl
@[simp] theorem State.joinNotice_su (n : Nat) (src : NoticeSource) (k : Nat) : (s.joinNotice n src k).su = s.su := rfl
@[simp] theorem State.joinNotice_tru (n : Nat) (src : NoticeSource) (k : Nat) : (s.joinNotice n src k).tru = s.tru := rfl
@[simp] theorem State.joinNotice_pst (n : Nat) (src : NoticeSource) (k : Nat) : (s.joinNotice n src k).pst = s.pst := rfl
@[simp] theorem State.joinNotice_slu (n : Nat) (src : NoticeSource) (k : Nat) : (s.joinNotice n src k).slu = s.slu := rfl

@[simp] theorem State.leaveOrder_pending (u : Nat) : (s.leaveOrder u).pending = s.pending := rfl
@[simp] theorem State.leaveOrder_phase (u : Nat) : (s.leaveOrder u).phase = s.phase := rfl
@[simp] theorem State.leaveOrder_resetInput (u : Nat) : (s.leaveOrder u).resetInput = s.resetInput := rfl
@[simp] theorem State.leaveOrder_mu (u : Nat) : (s.leaveOrder u).mu = s.mu := rfl
@[simp] theorem State.leaveOrder_cvc (u : Nat) : (s.leaveOrder u).cvc = s.cvc := rfl
@[simp] theorem State.leaveOrder_dtc (u : Nat) : (s.leaveOrder u).dtc = s.dtc := rfl
@[simp] theorem State.leaveOrder_acb (u : Nat) : (s.leaveOrder u).acb = s.acb := rfl
@[simp] theorem State.leaveOrder_fpl (u : Nat) : (s.leaveOrder u).fpl = s.fpl := rfl
@[simp] theorem State.leaveOrder_su (u : Nat) : (s.leaveOrder u).su = s.su := rfl
@[simp] theorem State.leaveOrder_wnu (u : Nat) : (s.leaveOrder u).wnu = s.wnu := rfl
@[simp] theorem State.leaveOrder_tru (u : Nat) : (s.leaveOrder u).tru = s.tru := rfl
@[simp] theorem State.leaveOrder_pst (u : Nat) : (s.leaveOrder u).pst = s.pst := rfl
@[simp] theorem State.leaveOrder_slu (u : Nat) : (s.leaveOrder u).slu = s.slu := rfl

@[simp] theorem State.leaveDuty_pending (u : Nat) : (s.leaveDuty u).pending = s.pending := rfl
@[simp] theorem State.leaveDuty_phase (u : Nat) : (s.leaveDuty u).phase = s.phase := rfl
@[simp] theorem State.leaveDuty_resetInput (u : Nat) : (s.leaveDuty u).resetInput = s.resetInput := rfl
@[simp] theorem State.leaveDuty_mu (u : Nat) : (s.leaveDuty u).mu = s.mu := rfl
@[simp] theorem State.leaveDuty_cvc (u : Nat) : (s.leaveDuty u).cvc = s.cvc := rfl
@[simp] theorem State.leaveDuty_dtc (u : Nat) : (s.leaveDuty u).dtc = s.dtc := rfl
@[simp] theorem State.leaveDuty_acb (u : Nat) : (s.leaveDuty u).acb = s.acb := rfl
@[simp] theorem State.leaveDuty_fpl (u : Nat) : (s.leaveDuty u).fpl = s.fpl := rfl
@[simp] theorem State.leaveDuty_su (u : Nat) : (s.leaveDuty u).su = s.su := rfl
@[simp] theorem State.leaveDuty_wnu (u : Nat) : (s.leaveDuty u).wnu = s.wnu := rfl
@[simp] theorem State.leaveDuty_tru (u : Nat) : (s.leaveDuty u).tru = s.tru := rfl
@[simp] theorem State.leaveDuty_pst (u : Nat) : (s.leaveDuty u).pst = s.pst := rfl
@[simp] theorem State.leaveDuty_slu (u : Nat) : (s.leaveDuty u).slu = s.slu := rfl

@[simp] theorem State.beginStop_pending (u : Nat) : (s.beginStop u).pending = s.pending := rfl
@[simp] theorem State.beginStop_phase (u : Nat) : (s.beginStop u).phase = s.phase := rfl
@[simp] theorem State.beginStop_resetInput (u : Nat) : (s.beginStop u).resetInput = s.resetInput := rfl
@[simp] theorem State.beginStop_mu (u : Nat) : (s.beginStop u).mu = s.mu := rfl
@[simp] theorem State.beginStop_cvc (u : Nat) : (s.beginStop u).cvc = s.cvc := rfl
@[simp] theorem State.beginStop_dtc (u : Nat) : (s.beginStop u).dtc = s.dtc := rfl
@[simp] theorem State.beginStop_acb (u : Nat) : (s.beginStop u).acb = s.acb := rfl
@[simp] theorem State.beginStop_fpl (u : Nat) : (s.beginStop u).fpl = s.fpl := rfl
@[simp] theorem State.beginStop_su (u : Nat) : (s.beginStop u).su = s.su := rfl
@[simp] theorem State.beginStop_wnu (u : Nat) : (s.beginStop u).wnu = s.wnu := rfl
@[simp] theorem State.beginStop_tru (u : Nat) : (s.beginStop u).tru = s.tru := rfl
@[simp] theorem State.beginStop_pst (u : Nat) : (s.beginStop u).pst = s.pst := rfl
@[simp] theorem State.beginStop_slu (u : Nat) : (s.beginStop u).slu = s.slu := rfl

@[simp] theorem State.completeStop_pending (u : Nat) : (s.completeStop u).pending = s.pending := rfl
@[simp] theorem State.completeStop_phase (u : Nat) : (s.completeStop u).phase = s.phase := rfl
@[simp] theorem State.completeStop_resetInput (u : Nat) : (s.completeStop u).resetInput = s.resetInput := rfl
@[simp] theorem State.completeStop_mu (u : Nat) : (s.completeStop u).mu = s.mu := rfl
@[simp] theorem State.completeStop_cvc (u : Nat) : (s.completeStop u).cvc = s.cvc := rfl
@[simp] theorem State.completeStop_dtc (u : Nat) : (s.completeStop u).dtc = s.dtc := rfl
@[simp] theorem State.completeStop_acb (u : Nat) : (s.completeStop u).acb = s.acb := rfl
@[simp] theorem State.completeStop_fpl (u : Nat) : (s.completeStop u).fpl = s.fpl := rfl
@[simp] theorem State.completeStop_su (u : Nat) : (s.completeStop u).su = s.su := rfl
@[simp] theorem State.completeStop_wnu (u : Nat) : (s.completeStop u).wnu = s.wnu := rfl
@[simp] theorem State.completeStop_tru (u : Nat) : (s.completeStop u).tru = s.tru := rfl
@[simp] theorem State.completeStop_pst (u : Nat) : (s.completeStop u).pst = s.pst := rfl
@[simp] theorem State.completeStop_slu (u : Nat) : (s.completeStop u).slu = s.slu := rfl

@[simp] theorem State.lockOut_pending (u : Nat) : (s.lockOut u).pending = s.pending := rfl
@[simp] theorem State.lockOut_phase (u : Nat) : (s.lockOut u).phase = s.phase := rfl
@[simp] theorem State.lockOut_resetInput (u : Nat) : (s.lockOut u).resetInput = s.resetInput := rfl
@[simp] theorem State.lockOut_mu (u : Nat) : (s.lockOut u).mu = s.mu := rfl
@[simp] theorem State.lockOut_cvc (u : Nat) : (s.lockOut u).cvc = s.cvc := rfl
@[simp] theorem State.lockOut_dtc (u : Nat) : (s.lockOut u).dtc = s.dtc := rfl
@[simp] theorem State.lockOut_acb (u : Nat) : (s.lockOut u).acb = s.acb := rfl
@[simp] theorem State.lockOut_fpl (u : Nat) : (s.lockOut u).fpl = s.fpl := rfl
@[simp] theorem State.lockOut_su (u : Nat) : (s.lockOut u).su = s.su := rfl
@[simp] theorem State.lockOut_wnu (u : Nat) : (s.lockOut u).wnu = s.wnu := rfl
@[simp] theorem State.lockOut_tru (u : Nat) : (s.lockOut u).tru = s.tru := rfl
@[simp] theorem State.lockOut_pst (u : Nat) : (s.lockOut u).pst = s.pst := rfl
@[simp] theorem State.lockOut_slu (u : Nat) : (s.lockOut u).slu = s.slu := rfl

@[simp] theorem State.rotateDuties_pending : (s.rotateDuties).pending = s.pending := rfl
@[simp] theorem State.rotateDuties_phase : (s.rotateDuties).phase = s.phase := rfl
@[simp] theorem State.rotateDuties_resetInput : (s.rotateDuties).resetInput = s.resetInput := rfl
@[simp] theorem State.rotateDuties_mu : (s.rotateDuties).mu = s.mu := rfl
@[simp] theorem State.rotateDuties_cvc : (s.rotateDuties).cvc = s.cvc := rfl
@[simp] theorem State.rotateDuties_dtc : (s.rotateDuties).dtc = s.dtc := rfl
@[simp] theorem State.rotateDuties_acb : (s.rotateDuties).acb = s.acb := rfl
@[simp] theorem State.rotateDuties_fpl : (s.rotateDuties).fpl = s.fpl := rfl
@[simp] theorem State.rotateDuties_su : (s.rotateDuties).su = s.su := rfl
@[simp] theorem State.rotateDuties_wnu : (s.rotateDuties).wnu = s.wnu := rfl
@[simp] theorem State.rotateDuties_tru : (s.rotateDuties).tru = s.tru := rfl
@[simp] theorem State.rotateDuties_pst : (s.rotateDuties).pst = s.pst := rfl
@[simp] theorem State.rotateDuties_slu : (s.rotateDuties).slu = s.slu := rfl

@[simp] theorem State.setMerit_pending (d : Nat) (l : List Nat) : (s.setMerit d l).pending = s.pending := by unfold State.setMerit; split <;> rfl
@[simp] theorem State.setMerit_phase (d : Nat) (l : List Nat) : (s.setMerit d l).phase = s.phase := by unfold State.setMerit; split <;> rfl
@[simp] theorem State.setMerit_resetInput (d : Nat) (l : List Nat) : (s.setMerit d l).resetInput = s.resetInput := by unfold State.setMerit; split <;> rfl
@[simp] theorem State.setMerit_mu (d : Nat) (l : List Nat) : (s.setMerit d l).mu = s.mu := by unfold State.setMerit; split <;> rfl
@[simp] theorem State.setMerit_cdm (d : Nat) (l : List Nat) : (s.setMerit d l).cdm = s.cdm := by unfold State.setMerit; split <;> rfl
@[simp] theorem State.setMerit_dtc (d : Nat) (l : List Nat) : (s.setMerit d l).dtc = s.dtc := by unfold State.setMerit; split <;> rfl
@[simp] theorem State.setMerit_acb (d : Nat) (l : List Nat) : (s.setMerit d l).acb = s.acb := by unfold State.setMerit; split <;> rfl
@[simp] theorem State.setMerit_fpl (d : Nat) (l : List Nat) : (s.setMerit d l).fpl = s.fpl := by unfold State.setMerit; split <;> rfl
@[simp] theorem State.setMerit_su (d : Nat) (l : List Nat) : (s.setMerit d l).su = s.su := by unfold State.setMerit; split <;> rfl
@[simp] theorem State.setMerit_wnu (d : Nat) (l : List Nat) : (s.setMerit d l).wnu = s.wnu := by unfold State.setMerit; split <;> rfl
@[simp] theorem State.setMerit_tru (d : Nat) (l : List Nat) : (s.setMerit d l).tru = s.tru := by unfold State.setMerit; split <;> rfl
@[simp] theorem State.setMerit_pst (d : Nat) (l : List Nat) : (s.setMerit d l).pst = s.pst := by unfold State.setMerit; split <;> rfl
@[simp] theorem State.setMerit_slu (d : Nat) (l : List Nat) : (s.setMerit d l).slu = s.slu := by unfold State.setMerit; split <;> rfl

@[simp] theorem State.setActive_pending (b : Bool) : (s.setActive b).pending = s.pending := rfl
@[simp] theorem State.setActive_phase (b : Bool) : (s.setActive b).phase = s.phase := rfl
@[simp] theorem State.setActive_resetInput (b : Bool) : (s.setActive b).resetInput = s.resetInput := rfl
@[simp] theorem State.setActive_mu (b : Bool) : (s.setActive b).mu = s.mu := rfl
@[simp] theorem State.setActive_cvc (b : Bool) : (s.setActive b).cvc = s.cvc := rfl
@[simp] theorem State.setActive_cdm (b : Bool) : (s.setActive b).cdm = s.cdm := rfl
@[simp] theorem State.setActive_dtc (b : Bool) : (s.setActive b).dtc = s.dtc := rfl
@[simp] theorem State.setActive_acb (b : Bool) : (s.setActive b).acb = s.acb := rfl
@[simp] theorem State.setActive_su (b : Bool) : (s.setActive b).su = s.su := rfl
@[simp] theorem State.setActive_wnu (b : Bool) : (s.setActive b).wnu = s.wnu := rfl
@[simp] theorem State.setActive_tru (b : Bool) : (s.setActive b).tru = s.tru := rfl
@[simp] theorem State.setActive_pst (b : Bool) : (s.setActive b).pst = s.pst := rfl
@[simp] theorem State.setActive_slu (b : Bool) : (s.setActive b).slu = s.slu := rfl

@[simp] theorem State.setStaging_pending (x : Option Staging) : (s.setStaging x).pending = s.pending := rfl
@[simp] theorem State.setStaging_phase (x : Option Staging) : (s.setStaging x).phase = s.phase := rfl
@[simp] theorem State.setStaging_resetInput (x : Option Staging) : (s.setStaging x).resetInput = s.resetInput := rfl
@[simp] theorem State.setStaging_mu (x : Option Staging) : (s.setStaging x).mu = s.mu := rfl
@[simp] theorem State.setStaging_cvc (x : Option Staging) : (s.setStaging x).cvc = s.cvc := rfl
@[simp] theorem State.setStaging_cdm (x : Option Staging) : (s.setStaging x).cdm = s.cdm := rfl
@[simp] theorem State.setStaging_dtc (x : Option Staging) : (s.setStaging x).dtc = s.dtc := rfl
@[simp] theorem State.setStaging_acb (x : Option Staging) : (s.setStaging x).acb = s.acb := rfl
@[simp] theorem State.setStaging_fpl (x : Option Staging) : (s.setStaging x).fpl = s.fpl := rfl
@[simp] theorem State.setStaging_su (x : Option Staging) : (s.setStaging x).su = s.su := rfl
@[simp] theorem State.setStaging_wnu (x : Option Staging) : (s.setStaging x).wnu = s.wnu := rfl
@[simp] theorem State.setStaging_tru (x : Option Staging) : (s.setStaging x).tru = s.tru := rfl
@[simp] theorem State.setStaging_slu (x : Option Staging) : (s.setStaging x).slu = s.slu := rfl

@[simp] theorem State.record_pending (l : Launch) : (s.record l).pending = s.pending := rfl
@[simp] theorem State.record_phase (l : Launch) : (s.record l).phase = s.phase := rfl
@[simp] theorem State.record_resetInput (l : Launch) : (s.record l).resetInput = s.resetInput := rfl
@[simp] theorem State.record_mu (l : Launch) : (s.record l).mu = s.mu := rfl
@[simp] theorem State.record_cvc (l : Launch) : (s.record l).cvc = s.cvc := rfl
@[simp] theorem State.record_cdm (l : Launch) : (s.record l).cdm = s.cdm := rfl
@[simp] theorem State.record_dtc (l : Launch) : (s.record l).dtc = s.dtc := rfl
@[simp] theorem State.record_acb (l : Launch) : (s.record l).acb = s.acb := rfl
@[simp] theorem State.record_fpl (l : Launch) : (s.record l).fpl = s.fpl := rfl
@[simp] theorem State.record_su (l : Launch) : (s.record l).su = s.su := rfl
@[simp] theorem State.record_wnu (l : Launch) : (s.record l).wnu = s.wnu := rfl
@[simp] theorem State.record_pst (l : Launch) : (s.record l).pst = s.pst := rfl
@[simp] theorem State.record_slu (l : Launch) : (s.record l).slu = s.slu := rfl

@[simp] theorem State.disarm_pending : (s.disarm).pending = s.pending := rfl
@[simp] theorem State.disarm_phase : (s.disarm).phase = s.phase := rfl
@[simp] theorem State.disarm_resetInput : (s.disarm).resetInput = s.resetInput := rfl
@[simp] theorem State.disarm_mu : (s.disarm).mu = s.mu := rfl
@[simp] theorem State.disarm_cvc : (s.disarm).cvc = s.cvc := rfl
@[simp] theorem State.disarm_cdm : (s.disarm).cdm = s.cdm := rfl
@[simp] theorem State.disarm_dtc : (s.disarm).dtc = s.dtc := rfl
@[simp] theorem State.disarm_acb : (s.disarm).acb = s.acb := rfl
@[simp] theorem State.disarm_fpl : (s.disarm).fpl = s.fpl := rfl
@[simp] theorem State.disarm_su : (s.disarm).su = s.su := rfl
@[simp] theorem State.disarm_tru : (s.disarm).tru = s.tru := rfl
@[simp] theorem State.disarm_pst : (s.disarm).pst = s.pst := rfl
@[simp] theorem State.disarm_slu : (s.disarm).slu = s.slu := rfl

@[simp] theorem State.hunt_pending : (s.hunt).pending = s.pending := rfl
@[simp] theorem State.hunt_phase : (s.hunt).phase = s.phase := rfl
@[simp] theorem State.hunt_resetInput : (s.hunt).resetInput = s.resetInput := rfl
@[simp] theorem State.hunt_mu : (s.hunt).mu = s.mu := rfl
@[simp] theorem State.hunt_cvc : (s.hunt).cvc = s.cvc := rfl
@[simp] theorem State.hunt_cdm : (s.hunt).cdm = s.cdm := rfl
@[simp] theorem State.hunt_dtc : (s.hunt).dtc = s.dtc := rfl
@[simp] theorem State.hunt_acb : (s.hunt).acb = s.acb := rfl
@[simp] theorem State.hunt_fpl : (s.hunt).fpl = s.fpl := rfl
@[simp] theorem State.hunt_su : (s.hunt).su = s.su := rfl
@[simp] theorem State.hunt_wnu : (s.hunt).wnu = s.wnu := rfl
@[simp] theorem State.hunt_tru : (s.hunt).tru = s.tru := rfl
@[simp] theorem State.hunt_pst : (s.hunt).pst = s.pst := rfl

@[simp] theorem State.mark_pending (a : Nat) : (s.mark a).pending = s.pending := rfl
@[simp] theorem State.mark_phase (a : Nat) : (s.mark a).phase = s.phase := rfl
@[simp] theorem State.mark_resetInput (a : Nat) : (s.mark a).resetInput = s.resetInput := rfl
@[simp] theorem State.mark_mu (a : Nat) : (s.mark a).mu = s.mu := rfl
@[simp] theorem State.mark_cvc (a : Nat) : (s.mark a).cvc = s.cvc := rfl
@[simp] theorem State.mark_cdm (a : Nat) : (s.mark a).cdm = s.cdm := rfl
@[simp] theorem State.mark_dtc (a : Nat) : (s.mark a).dtc = s.dtc := rfl
@[simp] theorem State.mark_fpl (a : Nat) : (s.mark a).fpl = s.fpl := rfl
@[simp] theorem State.mark_su (a : Nat) : (s.mark a).su = s.su := rfl
@[simp] theorem State.mark_wnu (a : Nat) : (s.mark a).wnu = s.wnu := rfl
@[simp] theorem State.mark_tru (a : Nat) : (s.mark a).tru = s.tru := rfl
@[simp] theorem State.mark_pst (a : Nat) : (s.mark a).pst = s.pst := rfl
@[simp] theorem State.mark_slu (a : Nat) : (s.mark a).slu = s.slu := rfl

@[simp] theorem State.dayRoll_pending : (s.dayRoll).pending = s.pending := rfl
@[simp] theorem State.dayRoll_phase : (s.dayRoll).phase = s.phase := rfl
@[simp] theorem State.dayRoll_resetInput : (s.dayRoll).resetInput = s.resetInput := rfl
@[simp] theorem State.dayRoll_mu : (s.dayRoll).mu = s.mu := rfl
@[simp] theorem State.dayRoll_cvc : (s.dayRoll).cvc = s.cvc := rfl
@[simp] theorem State.dayRoll_cdm : (s.dayRoll).cdm = s.cdm := rfl
@[simp] theorem State.dayRoll_dtc : (s.dayRoll).dtc = s.dtc := rfl
@[simp] theorem State.dayRoll_fpl : (s.dayRoll).fpl = s.fpl := rfl
@[simp] theorem State.dayRoll_su : (s.dayRoll).su = s.su := rfl
@[simp] theorem State.dayRoll_wnu : (s.dayRoll).wnu = s.wnu := rfl
@[simp] theorem State.dayRoll_tru : (s.dayRoll).tru = s.tru := rfl
@[simp] theorem State.dayRoll_pst : (s.dayRoll).pst = s.pst := rfl
@[simp] theorem State.dayRoll_slu : (s.dayRoll).slu = s.slu := rfl

@[simp] theorem State.runningFromClock_pending : (s.runningFromClock).pending = s.pending := rfl
@[simp] theorem State.runningFromClock_phase : (s.runningFromClock).phase = s.phase := rfl
@[simp] theorem State.runningFromClock_resetInput : (s.runningFromClock).resetInput = s.resetInput := rfl
@[simp] theorem State.runningFromClock_mu : (s.runningFromClock).mu = s.mu := rfl
@[simp] theorem State.runningFromClock_cvc : (s.runningFromClock).cvc = s.cvc := rfl
@[simp] theorem State.runningFromClock_cdm : (s.runningFromClock).cdm = s.cdm := rfl
@[simp] theorem State.runningFromClock_dtc : (s.runningFromClock).dtc = s.dtc := rfl
@[simp] theorem State.runningFromClock_fpl : (s.runningFromClock).fpl = s.fpl := rfl
@[simp] theorem State.runningFromClock_su : (s.runningFromClock).su = s.su := rfl
@[simp] theorem State.runningFromClock_wnu : (s.runningFromClock).wnu = s.wnu := rfl
@[simp] theorem State.runningFromClock_tru : (s.runningFromClock).tru = s.tru := rfl
@[simp] theorem State.runningFromClock_pst : (s.runningFromClock).pst = s.pst := rfl
@[simp] theorem State.runningFromClock_slu : (s.runningFromClock).slu = s.slu := rfl

@[simp] theorem State.emptyBooks_pending : (s.emptyBooks).pending = s.pending := rfl
@[simp] theorem State.emptyBooks_phase : (s.emptyBooks).phase = s.phase := rfl
@[simp] theorem State.emptyBooks_resetInput : (s.emptyBooks).resetInput = s.resetInput := rfl
@[simp] theorem State.emptyBooks_mu : (s.emptyBooks).mu = s.mu := rfl
@[simp] theorem State.emptyBooks_cvc : (s.emptyBooks).cvc = s.cvc := rfl
@[simp] theorem State.emptyBooks_cdm : (s.emptyBooks).cdm = s.cdm := rfl
@[simp] theorem State.emptyBooks_dtc : (s.emptyBooks).dtc = s.dtc := rfl
@[simp] theorem State.emptyBooks_fpl : (s.emptyBooks).fpl = s.fpl := rfl
@[simp] theorem State.emptyBooks_su : (s.emptyBooks).su = s.su := rfl
@[simp] theorem State.emptyBooks_wnu : (s.emptyBooks).wnu = s.wnu := rfl
@[simp] theorem State.emptyBooks_tru : (s.emptyBooks).tru = s.tru := rfl
@[simp] theorem State.emptyBooks_pst : (s.emptyBooks).pst = s.pst := rfl
@[simp] theorem State.emptyBooks_slu : (s.emptyBooks).slu = s.slu := rfl

@[simp] theorem State.refreshCaps_pending : (s.refreshCaps).pending = s.pending := rfl
@[simp] theorem State.refreshCaps_phase : (s.refreshCaps).phase = s.phase := rfl
@[simp] theorem State.refreshCaps_resetInput : (s.refreshCaps).resetInput = s.resetInput := rfl
@[simp] theorem State.refreshCaps_mu : (s.refreshCaps).mu = s.mu := rfl
@[simp] theorem State.refreshCaps_cvc : (s.refreshCaps).cvc = s.cvc := rfl
@[simp] theorem State.refreshCaps_cdm : (s.refreshCaps).cdm = s.cdm := rfl
@[simp] theorem State.refreshCaps_dtc : (s.refreshCaps).dtc = s.dtc := rfl
@[simp] theorem State.refreshCaps_fpl : (s.refreshCaps).fpl = s.fpl := rfl
@[simp] theorem State.refreshCaps_su : (s.refreshCaps).su = s.su := rfl
@[simp] theorem State.refreshCaps_wnu : (s.refreshCaps).wnu = s.wnu := rfl
@[simp] theorem State.refreshCaps_tru : (s.refreshCaps).tru = s.tru := rfl
@[simp] theorem State.refreshCaps_pst : (s.refreshCaps).pst = s.pst := rfl
@[simp] theorem State.refreshCaps_slu : (s.refreshCaps).slu = s.slu := rfl

@[simp] theorem State.keepResidues_pending : (s.keepResidues).pending = s.pending := rfl
@[simp] theorem State.keepResidues_phase : (s.keepResidues).phase = s.phase := rfl
@[simp] theorem State.keepResidues_resetInput : (s.keepResidues).resetInput = s.resetInput := rfl
@[simp] theorem State.keepResidues_cvc : (s.keepResidues).cvc = s.cvc := rfl
@[simp] theorem State.keepResidues_cdm : (s.keepResidues).cdm = s.cdm := rfl
@[simp] theorem State.keepResidues_dtc : (s.keepResidues).dtc = s.dtc := rfl
@[simp] theorem State.keepResidues_acb : (s.keepResidues).acb = s.acb := rfl
@[simp] theorem State.keepResidues_fpl : (s.keepResidues).fpl = s.fpl := rfl
@[simp] theorem State.keepResidues_su : (s.keepResidues).su = s.su := rfl
@[simp] theorem State.keepResidues_wnu : (s.keepResidues).wnu = s.wnu := rfl
@[simp] theorem State.keepResidues_tru : (s.keepResidues).tru = s.tru := rfl
@[simp] theorem State.keepResidues_pst : (s.keepResidues).pst = s.pst := rfl
@[simp] theorem State.keepResidues_slu : (s.keepResidues).slu = s.slu := rfl

@[simp] theorem State.fitCaverns_pending (b : Bool) : (s.fitCaverns b).pending = s.pending := rfl
@[simp] theorem State.fitCaverns_phase (b : Bool) : (s.fitCaverns b).phase = s.phase := rfl
@[simp] theorem State.fitCaverns_resetInput (b : Bool) : (s.fitCaverns b).resetInput = s.resetInput := rfl
@[simp] theorem State.fitCaverns_mu (b : Bool) : (s.fitCaverns b).mu = s.mu := rfl
@[simp] theorem State.fitCaverns_cdm (b : Bool) : (s.fitCaverns b).cdm = s.cdm := rfl
@[simp] theorem State.fitCaverns_dtc (b : Bool) : (s.fitCaverns b).dtc = s.dtc := rfl
@[simp] theorem State.fitCaverns_acb (b : Bool) : (s.fitCaverns b).acb = s.acb := rfl
@[simp] theorem State.fitCaverns_fpl (b : Bool) : (s.fitCaverns b).fpl = s.fpl := rfl
@[simp] theorem State.fitCaverns_su (b : Bool) : (s.fitCaverns b).su = s.su := rfl
@[simp] theorem State.fitCaverns_wnu (b : Bool) : (s.fitCaverns b).wnu = s.wnu := rfl
@[simp] theorem State.fitCaverns_tru (b : Bool) : (s.fitCaverns b).tru = s.tru := rfl
@[simp] theorem State.fitCaverns_pst (b : Bool) : (s.fitCaverns b).pst = s.pst := rfl
@[simp] theorem State.fitCaverns_slu (b : Bool) : (s.fitCaverns b).slu = s.slu := rfl

@[simp] theorem State.fitTrains_pending : (s.fitTrains).pending = s.pending := rfl
@[simp] theorem State.fitTrains_phase : (s.fitTrains).phase = s.phase := rfl
@[simp] theorem State.fitTrains_resetInput : (s.fitTrains).resetInput = s.resetInput := rfl
@[simp] theorem State.fitTrains_mu : (s.fitTrains).mu = s.mu := rfl
@[simp] theorem State.fitTrains_cvc : (s.fitTrains).cvc = s.cvc := rfl
@[simp] theorem State.fitTrains_cdm : (s.fitTrains).cdm = s.cdm := rfl
@[simp] theorem State.fitTrains_acb : (s.fitTrains).acb = s.acb := rfl
@[simp] theorem State.fitTrains_fpl : (s.fitTrains).fpl = s.fpl := rfl
@[simp] theorem State.fitTrains_su : (s.fitTrains).su = s.su := rfl
@[simp] theorem State.fitTrains_wnu : (s.fitTrains).wnu = s.wnu := rfl
@[simp] theorem State.fitTrains_tru : (s.fitTrains).tru = s.tru := rfl
@[simp] theorem State.fitTrains_pst : (s.fitTrains).pst = s.pst := rfl
@[simp] theorem State.fitTrains_slu : (s.fitTrains).slu = s.slu := rfl

@[simp] theorem State.superviseAll_pending : (s.superviseAll).pending = s.pending := rfl
@[simp] theorem State.superviseAll_phase : (s.superviseAll).phase = s.phase := rfl
@[simp] theorem State.superviseAll_resetInput : (s.superviseAll).resetInput = s.resetInput := rfl
@[simp] theorem State.superviseAll_mu : (s.superviseAll).mu = s.mu := rfl
@[simp] theorem State.superviseAll_cdm : (s.superviseAll).cdm = s.cdm := rfl
@[simp] theorem State.superviseAll_dtc : (s.superviseAll).dtc = s.dtc := rfl
@[simp] theorem State.superviseAll_acb : (s.superviseAll).acb = s.acb := rfl
@[simp] theorem State.superviseAll_fpl : (s.superviseAll).fpl = s.fpl := rfl
@[simp] theorem State.superviseAll_su : (s.superviseAll).su = s.su := rfl
@[simp] theorem State.superviseAll_wnu : (s.superviseAll).wnu = s.wnu := rfl
@[simp] theorem State.superviseAll_tru : (s.superviseAll).tru = s.tru := rfl
@[simp] theorem State.superviseAll_pst : (s.superviseAll).pst = s.pst := rfl
@[simp] theorem State.superviseAll_slu : (s.superviseAll).slu = s.slu := rfl

@[simp] theorem State.startFpl_pending : (s.startFpl).pending = s.pending := rfl
@[simp] theorem State.startFpl_phase : (s.startFpl).phase = s.phase := rfl
@[simp] theorem State.startFpl_resetInput : (s.startFpl).resetInput = s.resetInput := rfl
@[simp] theorem State.startFpl_mu : (s.startFpl).mu = s.mu := rfl
@[simp] theorem State.startFpl_cvc : (s.startFpl).cvc = s.cvc := rfl
@[simp] theorem State.startFpl_cdm : (s.startFpl).cdm = s.cdm := rfl
@[simp] theorem State.startFpl_dtc : (s.startFpl).dtc = s.dtc := rfl
@[simp] theorem State.startFpl_acb : (s.startFpl).acb = s.acb := rfl
@[simp] theorem State.startFpl_su : (s.startFpl).su = s.su := rfl
@[simp] theorem State.startFpl_wnu : (s.startFpl).wnu = s.wnu := rfl
@[simp] theorem State.startFpl_tru : (s.startFpl).tru = s.tru := rfl
@[simp] theorem State.startFpl_pst : (s.startFpl).pst = s.pst := rfl
@[simp] theorem State.startFpl_slu : (s.startFpl).slu = s.slu := rfl

@[simp] theorem State.holdAll_pending (b : Bool) : (s.holdAll b).pending = s.pending := rfl
@[simp] theorem State.holdAll_phase (b : Bool) : (s.holdAll b).phase = s.phase := rfl
@[simp] theorem State.holdAll_resetInput (b : Bool) : (s.holdAll b).resetInput = s.resetInput := rfl
@[simp] theorem State.holdAll_mu (b : Bool) : (s.holdAll b).mu = s.mu := rfl
@[simp] theorem State.holdAll_cvc (b : Bool) : (s.holdAll b).cvc = s.cvc := rfl
@[simp] theorem State.holdAll_cdm (b : Bool) : (s.holdAll b).cdm = s.cdm := rfl
@[simp] theorem State.holdAll_dtc (b : Bool) : (s.holdAll b).dtc = s.dtc := rfl
@[simp] theorem State.holdAll_acb (b : Bool) : (s.holdAll b).acb = s.acb := rfl
@[simp] theorem State.holdAll_fpl (b : Bool) : (s.holdAll b).fpl = s.fpl := rfl
@[simp] theorem State.holdAll_su (b : Bool) : (s.holdAll b).su = s.su := rfl
@[simp] theorem State.holdAll_tru (b : Bool) : (s.holdAll b).tru = s.tru := rfl
@[simp] theorem State.holdAll_pst (b : Bool) : (s.holdAll b).pst = s.pst := rfl
@[simp] theorem State.holdAll_slu (b : Bool) : (s.holdAll b).slu = s.slu := rfl

@[simp] theorem State.clearNotices_pending : (s.clearNotices).pending = s.pending := rfl
@[simp] theorem State.clearNotices_phase : (s.clearNotices).phase = s.phase := rfl
@[simp] theorem State.clearNotices_resetInput : (s.clearNotices).resetInput = s.resetInput := rfl
@[simp] theorem State.clearNotices_mu : (s.clearNotices).mu = s.mu := rfl
@[simp] theorem State.clearNotices_cvc : (s.clearNotices).cvc = s.cvc := rfl
@[simp] theorem State.clearNotices_cdm : (s.clearNotices).cdm = s.cdm := rfl
@[simp] theorem State.clearNotices_dtc : (s.clearNotices).dtc = s.dtc := rfl
@[simp] theorem State.clearNotices_acb : (s.clearNotices).acb = s.acb := rfl
@[simp] theorem State.clearNotices_fpl : (s.clearNotices).fpl = s.fpl := rfl
@[simp] theorem State.clearNotices_su : (s.clearNotices).su = s.su := rfl
@[simp] theorem State.clearNotices_tru : (s.clearNotices).tru = s.tru := rfl
@[simp] theorem State.clearNotices_pst : (s.clearNotices).pst = s.pst := rfl
@[simp] theorem State.clearNotices_slu : (s.clearNotices).slu = s.slu := rfl
@[simp] theorem State.clearNotices_watches : (s.clearNotices).wnu.watches = s.wnu.watches := rfl
@[simp] theorem State.clearNotices_channels : (s.clearNotices).wnu.channels = List.replicate 3 {} := rfl

end Sys2Proof.Machine
end

