-- ==== Sys2Proof/Laws/Within.lean ====
section
/-! SUPPORT. What happens inside an event: `Within s t` says what no event changes on the way from `s` to `t`, and that
the laws of Safety.lean pass from `s` to `t`. One lemma for each shared operation. -/

namespace Sys2Proof.Machine

set_option Elab.async false

/-- What holds between the states before and after a part of an event. -/
structure Within (s t : State) : Prop where
  pending : t.pending = s.pending := by rfl
  phase : t.phase = s.phase := by rfl
  input : t.resetInput = s.resetInput := by rfl
  arrivals : t.slu.arrivals = s.slu.arrivals := by rfl
  queue : t.slu.queue.map QEntry.arrival = s.slu.queue.map QEntry.arrival := by rfl
  caverns : CavernLaw s → CavernLaw t := by exact id
  units : UnitLaw s → UnitLaw t := by exact id
  towers : TowerLaw s → TowerLaw t := by exact id
  notices : NoticeLaw s → NoticeLaw t := by exact id
  trip : TripLaw s → TripLaw t := by exact id
  held : s.fpl.active = false → t.fpl.active = false := by exact id
  sizes : SizeLaw s → SizeLaw t := by first | exact id | simp +contextual [SizeLaw, State.updChan, State.updRun, State.updCav, State.updUnit, State.updTrain, State.updAccount, State.updWatch, State.updNotice, State.clearFlags,
    State.disarm, State.superviseAll, State.fitCaverns, State.startCvc]

theorem Within.refl (s : State) : Within s s := {}

theorem Within.trans {s t u : State} (h : Within s t) (k : Within t u) : Within s u where
  pending := k.pending.trans h.pending
  phase := k.phase.trans h.phase
  input := k.input.trans h.input
  arrivals := k.arrivals.trans h.arrivals
  queue := k.queue.trans h.queue
  caverns := k.caverns ∘ h.caverns
  units := k.units ∘ h.units
  towers := k.towers ∘ h.towers
  notices := k.notices ∘ h.notices
  trip := k.trip ∘ h.trip
  held := k.held ∘ h.held
  sizes := k.sizes ∘ h.sizes

@[simp] theorem Ev.map_s (ev : Ev) (f : State → State) : (ev.map f).s = f ev.s := rfl

@[simp] theorem Ev.hand_s (ev : Ev) (b : Bool) : (ev.hand b).s = ev.s := rfl

@[simp] theorem Ev.launch_s (ev : Ev) (l : Launch) : (ev.launch l).s = ev.s := rfl

@[simp] theorem State.ev_s (s : State) : s.ev.s = s := rfl

/-- A change of state that is within, made in an event. -/
theorem map_within (ev : Ev) (f : State → State) (h : ∀ s, Within s (f s)) : Within ev.s (ev.map f).s := h ev.s

/-- Either of two events is within. -/
theorem ite_within {p : Prop} [Decidable p] {s : State} {x y : Ev} (h : Within s x.s) (k : Within s y.s) :
    Within s (if p then x else y).s := by
  split
  · exact h
  · exact k

/-- Either of two states is within. -/
theorem iteState_within {p : Prop} [Decidable p] {s x y : State} (h : Within s x) (k : Within s y) :
    Within s (if p then x else y) := by
  split
  · exact h
  · exact k

/-- A fold of operations, each of them within an event. -/
theorem foldl_within {α : Type} (f : Ev → α → Ev) (h : ∀ ev x, Within ev.s (f ev x).s) (l : List α) (ev : Ev) :
    Within ev.s (l.foldl f ev).s := by
  induction l generalizing ev with
  | nil => exact .refl _
  | cons x l ih => exact (h ev x).trans (ih _)

/-- The members of a modified list. -/
theorem mem_modify {α : Type} {l : List α} {i : Nat} {f : α → α} {x : α} (h : x ∈ l.modify i f) :
    x ∈ l ∨ ∃ y ∈ l, l[i]? = some y ∧ x = f y := by
  induction l generalizing i with
  | nil => simp at h
  | cons a l ih =>
    cases i with
    | zero =>
      simp only [List.modify_zero_cons, List.mem_cons] at h
      rcases h with h | h
      · exact .inr ⟨a, by simp, by simp, h⟩
      · exact .inl (by simp [h])
    | succ i =>
      simp only [List.modify_succ_cons, List.mem_cons] at h
      rcases h with h | h
      · exact .inl (by simp [h])
      · rcases ih h with h | ⟨y, hy, hi, he⟩
        · exact .inl (by simp [h])
        · exact .inr ⟨y, by simp [hy], by simpa using hi, he⟩

/-! ### One record changed -/

theorem updChan_within (s : State) (c : Nat) (f : Channel → Channel) : Within s (s.updChan c f) := {}

theorem updRun_within (s : State) (r : Nat) (f : Run → Run) : Within s (s.updRun r f) := {}

theorem updAccount_within (s : State) (a : Nat) (f : Account → Account) : Within s (s.updAccount a f) := {}

theorem updWatch_within (s : State) (w : Nat) (f : Watch → Watch) : Within s (s.updWatch w f) := {}

theorem updDuty_within (s : State) (d : Duty) (f : DutyRec → DutyRec) : Within s (s.updDuty d f) := by
  cases d <;> exact {}

theorem mapDuty_within (ev : Ev) (d : Duty) (f : DutyRec → DutyRec) :
    Within ev.s (ev.map fun s => s.updDuty d f).s := updDuty_within _ _ _

theorem updUnit_within (s : State) (u : Nat) (f : CompUnit → CompUnit)
    (h : (s.unit u).lawful → (f (s.unit u)).lawful) : Within s (s.updUnit u f) where
  units := fun l r hr => by
    rcases mem_modify hr with hr | ⟨y, hy, hi, rfl⟩
    · exact l r hr
    · have : s.unit u = y := by simp [State.unit, List.getD, hi]
      exact this ▸ h (this ▸ l y hy)

theorem updTrain_within (s : State) (t : Nat) (f : Train → Train)
    (h : (s.train t).towerA.lawful → (s.train t).towerB.lawful →
      (f (s.train t)).towerA.lawful ∧ (f (s.train t)).towerB.lawful) : Within s (s.updTrain t f) where
  towers := fun l r hr => by
    rcases mem_modify hr with hr | ⟨y, hy, hi, rfl⟩
    · exact l r hr
    · have : s.train t = y := by simp [State.train, List.getD, hi]
      exact this ▸ h (this ▸ (l y hy).1) (this ▸ (l y hy).2)

theorem updCav_within (s : State) (c : Nat) (f : Cavern → Cavern)
    (h : (s.cav c).lawful → (f (s.cav c)).lawful) : Within s (s.updCav c f) where
  caverns := fun l r hr => by
    rcases mem_modify hr with hr | ⟨y, hy, hi, rfl⟩
    · exact l r hr
    · have : s.cav c = y := by simp [State.cav, List.getD, hi]
      exact this ▸ h (this ▸ l y hy)

theorem updNotice_within (s : State) (n : Nat) (f : NoticeChannel → NoticeChannel)
    (h : (s.notice n).lawful → (f (s.notice n)).lawful) : Within s (s.updNotice n f) where
  notices := fun l r hr => by
    rcases mem_modify hr with hr | ⟨y, hy, hi, rfl⟩
    · exact l r hr
    · have : s.notice n = y := by simp [State.notice, List.getD, hi]
      exact this ▸ h (this ▸ l y hy)

/-! ### Replies, watches and notices (Flags.lean) -/

theorem setEntry_within (s : State) (a : Nat) (st : EntryState) : Within s (s.setEntry a st) where
  queue := by
    simp only [State.setEntry, List.map_map]
    apply List.map_congr_left
    intro e _
    simp only [Function.comp]
    split <;> rfl

theorem formReply_within (s : State) (e : QEntry) (st : Status) (d : Detail) (b : List Fld) :
    Within s (s.formReply e st d b) :=
  (setEntry_within s e.arrival .answered).trans {}

theorem answerAwaits_within (s : State) (w : Nat) : Within s (s.answerAwaits w) := by
  have fold : ∀ (l : List QEntry) (t : State),
      Within t (l.foldl (fun t e => t.formReply e .ok {} (s.awaitBody false)) t) := by
    intro l
    induction l with
    | nil => exact fun t => .refl t
    | cons e l ih => exact fun t => (formReply_within t e _ _ _).trans (ih _)
  unfold State.answerAwaits
  simp only
  split
  · exact .refl _
  · exact (fold _ _).trans {}

theorem NoticeList.join_lawful {l : NoticeList} (h : l.lawful) (src : NoticeSource) (code : Nat) (now : Clk) :
    (l.join src code now).lawful := by
  obtain ⟨h1, h2⟩ := h
  unfold NoticeList.join
  split
  · constructor
    · simpa using h1
    · have : (l.entries.map fun e => if e.source = src then { e with count := min (e.count + 1) 255 } else e).map
          NoticeEntry.source = l.entries.map NoticeEntry.source := by
        rw [List.map_map]
        apply List.map_congr_left
        intro e _
        simp only [Function.comp]
        split <;> rfl
      simpa only [this] using h2
  · rename_i hn
    split
    · rename_i hl
      refine ⟨by simpa [Config.noticePlaces] using hl, ?_⟩
      simp only [List.map_append, List.map_cons, List.map_nil]
      rw [List.nodup_append]
      refine ⟨h2, by simp, ?_⟩
      intro a ha b hb hab
      simp only [List.mem_singleton] at hb
      simp only [List.mem_map] at ha
      obtain ⟨e, he, rfl⟩ := ha
      exact hn (List.any_eq_true.mpr ⟨e, he, by simp [hab, hb]⟩)
    · exact ⟨h1, h2⟩

theorem NoticeList.empty_lawful : ({} : NoticeList).lawful := ⟨by simp, by simp⟩

theorem NoticeChannel.join_lawful {c : NoticeChannel} (h : c.lawful) (src : NoticeSource) (code : Nat) (now : Clk) :
    (c.join src code now).lawful := by
  obtain ⟨h1, h2, h3, h4⟩ := h
  unfold NoticeChannel.join
  split
  · rename_i hs
    exact ⟨NoticeList.join_lawful h1 _ _ _, h2, by simp, fun _ => h4 (by simp [hs])⟩
  · rename_i hs
    exact ⟨NoticeList.join_lawful h1 _ _ _, h2, by simp [hs], fun _ => h4 (by simp [hs])⟩
  · rename_i hs
    exact ⟨h1, NoticeList.join_lawful h2 _ _ _, by simp [hs], by simp [hs]⟩

theorem joinNotice_within (s : State) (n : Nat) (src : NoticeSource) (code : Nat) :
    Within s (s.joinNotice n src code) :=
  updNotice_within s n _ fun h => NoticeChannel.join_lawful h _ _ _

theorem fireWatch_within (w : Nat) (d : WatchDef) (ev : Ev) : Within ev.s (fireWatch w d ev).s := by
  have h1 : Within ev.s ((ev.s.updWatch w fun r => { r with fired := true }).answerAwaits w) :=
    (updWatch_within _ _ _).trans (answerAwaits_within _ _)
  have h2 : Within ev.s (match d.channel with
      | some n => ((ev.s.updWatch w fun r => { r with fired := true }).answerAwaits w).joinNotice n (.watch w) d.hostCode
      | none => (ev.s.updWatch w fun r => { r with fired := true }).answerAwaits w) := by
    split
    · exact h1.trans (joinNotice_within _ _ _ _)
    · exact h1
  unfold fireWatch
  simp only
  split
  · simp only [Ev.map]
    split <;> exact h2.trans (updWatch_within _ _ _)
  · split <;> exact h2

theorem evaluateWatch_within (on : WatchSource → Bool) (v : Int) (ev : Ev) (w : Nat) :
    Within ev.s (evaluateWatch on v ev w).s := by
  unfold evaluateWatch
  simp only
  split
  · split
    · split
      · exact (updWatch_within ev.s w _).trans (fireWatch_within w _ { ev with s := ev.s.updWatch w _ })
      · exact updWatch_within _ _ _
    · exact .refl _
  · exact .refl _

theorem newWatchValue_within (on : WatchSource → Bool) (v : Int) (ev : Ev) : Within ev.s (newWatchValue on v ev).s :=
  foldl_within _ (evaluateWatch_within on v) _ ev

theorem offerEvent_within (name : EventName) (index : Option Nat) (ev : Ev) (w : Nat) :
    Within ev.s (offerEvent name index ev w).s := by
  unfold offerEvent
  simp only
  split
  · split
    · exact fireWatch_within _ _ _
    · exact .refl _
  · exact .refl _

theorem raise_within (name : EventName) (index : Option Nat) (ev : Ev) {data : EventData} :
    Within ev.s (raise name index ev data).s :=
  foldl_within _ (offerEvent_within name index) _ { ev with raised := ev.raised ++ [⟨name, index, data⟩] }

theorem disarm_within (s : State) : Within s s.disarm := {}

/-! ### Caverns (Caverns.lean) -/

/-- The law of a cavern before its permits are recomputed: the setpoint has the sign of the state's flow, and the open
command is that of the state. -/
def Cavern.signed (r : Cavern) : Prop :=
  (0 < r.setpoint → r.state = .injecting) ∧ (r.setpoint < 0 → r.state = .withdrawing) ∧
    (r.command = .driveOpen ↔ r.state = .opening ∨ r.state.isOpen)

theorem Cavern.lawful.toSigned {r : Cavern} (h : r.lawful) : r.signed :=
  ⟨fun k => (h.1 k).1, fun k => (h.2.1 k).1, h.2.2.2⟩

theorem Cavern.signed.recompute {r : Cavern} (h : r.signed) (d : Option CavernDef) : (r.recompute d).lawful := by
  obtain ⟨h1, h2, h3⟩ := h
  cases d with
  | none => exact ⟨by simp [Cavern.recompute], by simp [Cavern.recompute], by simp [Cavern.recompute], h3⟩
  | some d =>
    refine ⟨?_, ?_, ?_, h3⟩
    · intro k
      simp only [Cavern.recompute, cutSetpoint] at k ⊢
      split at k
      · rename_i hp
        rw [if_pos hp]
        exact ⟨h1 hp, by omega⟩
      · split at k <;> omega
    · intro k
      simp only [Cavern.recompute, cutSetpoint] at k ⊢
      split at k
      · omega
      · rename_i hp
        split at k
        · rename_i hn
          rw [if_neg hp, if_pos hn]
          exact ⟨h2 hn, by omega⟩
        · omega
    · intro k
      simp only [Cavern.recompute, CavernDef.injPermit, CavernDef.wdPermit] at k ⊢
      split at k
      · rename_i hf
        simpa using hf
      · simp at k

theorem Cavern.supervise_signed {r : Cavern} (h : r.signed) (d : Option CavernDef) (s : State) :
    (r.supervise d s).signed := by
  unfold Cavern.supervise
  split
  · split
    · exact h
    · split <;> exact h
  · exact h

theorem Cavern.supervise_lawful {r : Cavern} (h : r.lawful) (d : Option CavernDef) (s : State) :
    (r.supervise d s).lawful := by
  unfold Cavern.supervise
  split
  · split
    · exact h
    · split <;> exact h
  · exact h

theorem changeCavern_within (c : Nat) (f : Cavern → Cavern) (ev : Ev)
    (h : (ev.s.cav c).lawful → (f (ev.s.cav c)).signed) : Within ev.s (changeCavern c f ev).s :=
  updCav_within ev.s c _ fun l => Cavern.signed.recompute (Cavern.supervise_signed (h l) _ _) _

theorem Cavern.beginClosing_signed (s : State) (d : CavernDef) (t : Target) (r : Cavern) :
    (r.beginClosing s d t).signed :=
  ⟨by simp [Cavern.beginClosing], by simp [Cavern.beginClosing],
    by simp [Cavern.beginClosing, CavernState.isOpen]⟩

theorem Cavern.toFault_signed (r : Cavern) : r.toFault.signed :=
  ⟨by simp [Cavern.toFault], by simp [Cavern.toFault], by simp [Cavern.toFault, CavernState.isOpen]⟩

/-- A lawful cavern in a state without flow has a setpoint of 0. -/
theorem Cavern.lawful.still {r : Cavern} (h : r.lawful) (h1 : r.state ≠ .injecting) (h2 : r.state ≠ .withdrawing) :
    r.setpoint = 0 := by
  have k1 : ¬0 < r.setpoint := fun k => h1 (h.1 k).1
  have k2 : ¬r.setpoint < 0 := fun k => h2 (h.2.1 k).1
  omega

theorem Cavern.trip_signed {r : Cavern} (h : r.lawful) (station : Bool) (s : State) (d : CavernDef) :
    (r.trip station s d).signed := by
  unfold Cavern.trip
  split
  any_goals exact Cavern.beginClosing_signed _ _ _ _
  any_goals exact h.toSigned
  · rename_i hs
    split
    · exact h.toSigned
    · split
      · have h0 := h.still (by simp [hs]) (by simp [hs])
        have hc := h.2.2.2
        exact ⟨by simp [h0], by simp [h0], by simpa [hs, CavernState.isOpen] using hc⟩
      · exact Cavern.beginClosing_signed _ _ _ _

theorem tripCavern_within (station : Bool) (c : Nat) (ev : Ev) : Within ev.s (tripCavern station c ev).s := by
  unfold tripCavern
  split
  · exact changeCavern_within c _ ev fun l => Cavern.trip_signed l _ _ _
  · exact .refl _

theorem tripAllCaverns_within (ev : Ev) : Within ev.s (tripAllCaverns ev).s :=
  foldl_within _ (fun ev c => tripCavern_within true c ev) _ ev

theorem reportEnvelope_s (c : Nat) (a b : Envelope) (ev : Ev) : (reportEnvelope c a b ev).s = ev.s := by
  unfold reportEnvelope
  split
  · rfl
  · split <;> rfl

theorem cavernNewValue_within (c : Nat) (v : Int) (ev : Ev) : Within ev.s (cavernNewValue c v ev).s := by
  unfold cavernNewValue
  split
  · simp only [reportEnvelope_s]
    exact changeCavern_within c _ ev fun l => l.toSigned
  · exact .refl _

theorem cavernQuality_within (c : Nat) (q : Quality) (v : Int) (ev : Ev) :
    Within ev.s (cavernQuality c q v ev).s := by
  unfold cavernQuality
  split
  · exact changeCavern_within c _ ev fun l => l.toSigned
  · exact .refl _

theorem Cavern.assign_signed {r : Cavern} (h : r.lawful) (v : Int) : (r.assign v).signed := by
  have hc := h.2.2.2
  unfold Cavern.assign
  split
  · rename_i hf
    have ho : r.command = .driveOpen := hc.mpr (.inr (by revert hf; cases r.state <;> simp [CavernState.flows, CavernState.isOpen]))
    simp only
    generalize (if r.quality = .lost then 0 else cutSetpoint r.injPermit r.wdPermit v) = w
    split
    · exact ⟨by simp, by simp; omega, by simp [ho, CavernState.isOpen]⟩
    · split
      · exact ⟨by simp; omega, by simp, by simp [ho, CavernState.isOpen]⟩
      · exact ⟨by simp, by simp, by simp [ho, CavernState.isOpen]⟩
  · exact h.toSigned

theorem Cavern.order_signed {r : Cavern} (h : r.lawful) (s : State) (d : CavernDef) : (r.order s d).signed := by
  have hc := h.2.2.2
  unfold Cavern.order
  split
  · rename_i hs
    have ho : r.command = .driveOpen :=
      hc.mpr (.inr (by rcases hs with hs | hs | ⟨hs, _⟩ <;> simp [hs, CavernState.isOpen]))
    exact ⟨by simp, by simp, by simp [ho, CavernState.isOpen]⟩
  · exact h.toSigned

theorem giveOrder_within (o : Order) (c : Nat) (ev : Ev) : Within ev.s (giveOrder o c ev).s := by
  unfold giveOrder
  split
  · split
    · split
      · exact changeCavern_within c _ ev fun l => Cavern.assign_signed l _
      · exact changeCavern_within c _ ev fun l => Cavern.order_signed l _ _
    · exact .refl _
  · exact .refl _

theorem distribute_within (sp : Int) (w : Walk) (ev : Ev) : Within ev.s (distribute sp w ev).s :=
  foldl_within _ (fun e c => giveOrder_within _ c e) _ ev

theorem Cavern.travelled_signed {r : Cavern} (h : r.lawful) : r.travelled.signed := by
  have hc := h.2.2.2
  unfold Cavern.travelled
  split
  · rename_i hs _ 
    exact ⟨by simp, by simp, by simpa [CavernState.isOpen, hs] using hc⟩
  · rename_i hs _ _
    have h0 := h.still (by simp [hs]) (by simp [hs])
    exact ⟨by simp [h0], by simp [h0], by simpa [hs, CavernState.isOpen] using hc⟩
  · rename_i hs _ _
    have h0 := h.still (by simp [hs]) (by simp [hs])
    exact ⟨by simp [h0], by simp [h0], by simpa [hs, CavernState.isOpen] using hc⟩
  · exact h.toSigned

theorem Cavern.dwelt_signed {r : Cavern} (h : r.lawful) : r.dwelt.signed := by
  have hc := h.2.2.2
  unfold Cavern.dwelt
  split
  · rename_i hs
    have h0 := h.still (by simp [hs]) (by simp [hs])
    exact ⟨by simp [h0], by simp [h0], by simpa [hs, CavernState.isOpen] using hc⟩
  · exact h.toSigned

theorem superviseAll_within (s : State) : Within s s.superviseAll where
  caverns := fun l r hr => by
    simp only [State.superviseAll, List.mem_mapIdx] at hr
    obtain ⟨i, hi, rfl⟩ := hr
    exact Cavern.supervise_lawful (l _ (List.getElem_mem _)) _ _

/-- A cavern at rest with command CLOSE is lawful. -/
theorem Cavern.rest_signed {r : Cavern} (h0 : r.setpoint = 0) (hc : r.command = .driveClose)
    (hs : ¬(r.state = .opening ∨ r.state.isOpen)) : r.signed :=
  ⟨by simp [h0], by simp [h0], by simp only [hc]; constructor <;> simp_all⟩

theorem Cavern.fit_lawful {r : Cavern} (h : r.lawful) (s : State) (d : Option CavernDef) :
    (r.fit s d false).lawful := by
  unfold Cavern.fit
  split
  · exact ⟨by simp, by simp, by simp, by simp [CavernState.isOpen]⟩
  · simp only [Bool.false_eq_true, if_false]
    apply Cavern.signed.recompute
    split
    · exact Cavern.rest_signed (by simp) (by simp) (by simp [CavernState.isOpen])
    · split
      · by_cases ho : r.state = .outOfService
        · exact Cavern.rest_signed (by simp [ho]) (by simp [ho]) (by simp [ho, CavernState.isOpen])
        · simpa [ho, Cavern.signed] using h.toSigned
      · exact Cavern.rest_signed (by simp) (by simp) (by simp [CavernState.isOpen])

theorem fitCaverns_within (s : State) : Within s (s.fitCaverns false) where
  caverns := fun l r hr => by
    simp only [State.fitCaverns, List.mem_mapIdx] at hr
    obtain ⟨i, hi, rfl⟩ := hr
    exact Cavern.fit_lawful (l _ (List.getElem_mem _)) _ _

theorem Cavern.restart_fit_lawful (r : Cavern) (s : State) (d : Option CavernDef) (cold : Bool) :
    ((r.restart cold).fit s d cold).lawful := by
  have hr : (r.restart cold).state = .outOfService ∨ (r.restart cold).state = .tripped ∨
      (r.restart cold).state = .valveFault ∨ (r.restart cold).state = .shut := by
    simp only [Cavern.restart]
    cases r.state <;> cases cold <;> simp
  have hn : ∀ st : CavernState, st = .outOfService ∨ st = .tripped ∨ st = .valveFault ∨ st = .shut →
      ¬(st = .opening ∨ st.isOpen) := by
    rintro st (rfl | rfl | rfl | rfl) <;> simp [CavernState.isOpen]
  unfold Cavern.fit
  split
  · exact ⟨by simp, by simp, by simp, by simp [CavernState.isOpen]⟩
  · simp only
    apply Cavern.signed.recompute
    apply Cavern.rest_signed
    · simp [Cavern.restart]
    · simp [Cavern.restart]
    · apply hn
      simp only
      split
      · simp
      · split
        · simp
        · split
          · exact hr
          · simp

theorem startCvc_within (s : State) (cold : Bool) : Within s (s.startCvc cold) where
  caverns := fun _ r hr => by
    simp only [State.startCvc, State.fitCaverns, List.mem_mapIdx, List.getElem_map] at hr
    obtain ⟨i, hi, rfl⟩ := hr
    exact Cavern.restart_fit_lawful _ _ _ _

end Sys2Proof.Machine
end

