-- ==== Sys2Proof/Laws/WithinBlocks.lean ====
section
/-! SUPPORT. `Within` for the operations of the compressors, the trains, the account book and the planner: one lemma for
each shared operation. -/

namespace Sys2Proof.Machine

set_option Elab.async false

/-! ### Compressors (Compressors.lean) -/

theorem attemptStart_within (s : State) (d : Duty) (u : Nat) : Within s (s.attemptStart d u) :=
  (updUnit_within s u _ fun _ => by simp [CompUnit.lawful, UnitState.counts]).trans (updDuty_within _ _ _)

theorem startDecision_within (d : Duty) (ev : Ev) : Within ev.s (startDecision d ev).s := by
  unfold startDecision
  split
  · rename_i u _
    have h : Within ev.s ((ev.s.attemptStart d u).updDuty d fun q => { q with startPending := none }) :=
      (attemptStart_within _ _ _).trans (updDuty_within _ _ _)
    exact ite_within (h.trans (mapDuty_within { ev with s := _ } d _)) h
  · exact (updDuty_within ev.s d _).trans (raise_within _ _ { ev with s := ev.s.updDuty d _ })

theorem reviewStart_within (d : Duty) (ev : Ev) : Within ev.s (reviewStart d ev).s := by
  unfold reviewStart
  refine ite_within (mapDuty_within ev d _) (ite_within ?_ (mapDuty_within ev d _))
  exact (updDuty_within ev.s d _).trans (startDecision_within _ { ev with s := ev.s.updDuty d _ })

theorem beginStop_within (s : State) (u : Nat) : Within s (s.beginStop u) :=
  updUnit_within s u _ fun _ => by simp [CompUnit.lawful, UnitState.counts]

theorem leaveOrder_within (s : State) (u : Nat) : Within s (s.leaveOrder u) := {}

theorem leaveDuty_within (s : State) (u : Nat) : Within s (s.leaveDuty u) :=
  (updDuty_within _ _ _).trans (updDuty_within _ _ _)

theorem rotateDuties_within (s : State) : Within s s.rotateDuties :=
  (updDuty_within _ _ _).trans (updDuty_within _ _ _)

theorem stopUnit_within (s : State) (d : Duty) (u : Nat) : Within s (s.stopUnit d u) := by
  unfold State.stopUnit
  exact ((beginStop_within s u).trans (leaveOrder_within _ u)).trans (updDuty_within _ _ _)

theorem reviewStop_within (d : Duty) (ev : Ev) : Within ev.s (reviewStop d ev).s := by
  unfold reviewStop
  split
  · exact mapDuty_within ev d _
  · exact ite_within (ite_within (stopUnit_within _ _ _) (mapDuty_within ev d _)) (mapDuty_within ev d _)

theorem review_within (d : Duty) (ev : Ev) : Within ev.s (review d ev).s :=
  (reviewStart_within d ev).trans (reviewStop_within d _)

theorem handDemands_within (inj boost : Nat) (ev : Ev) : Within ev.s (handDemands inj boost ev).s :=
  (((updDuty_within ev.s .inject _).trans (updDuty_within _ .boost _)).trans
    (review_within .inject { ev with s := (ev.s.updDuty .inject _).updDuty .boost _ })).trans (review_within .boost _)

theorem completeStop_within (s : State) (u : Nat) (h : (s.unit u).state = .stopping) : Within s (s.completeStop u) :=
  updUnit_within s u _ fun l => by simpa [CompUnit.lawful, UnitState.counts, h] using l

theorem lockOut_within (s : State) (u : Nat) : Within s (s.lockOut u) :=
  (updUnit_within s u _ fun _ => by simp [CompUnit.lawful, UnitState.counts]).trans (leaveOrder_within _ _)

theorem uncommanded_within (u : Nat) (ev : Ev) : Within ev.s (uncommanded u ev).s :=
  (lockOut_within ev.s u).trans (raise_within _ _ { ev with s := ev.s.lockOut u })

theorem runLost_within (u : Nat) (ev : Ev) : Within ev.s (runLost u ev).s := by
  unfold runLost
  refine Within.trans ?_ (raise_within _ _ _)
  exact (lockOut_within ev.s u).trans {}

theorem unitStarted_within (u : Nat) (ev : Ev) (h : (ev.s.unit u).state = .starting) :
    Within ev.s (unitStarted u ev).s :=
  updUnit_within ev.s u _ fun l => by simpa [CompUnit.lawful, UnitState.counts, h] using l

theorem feedbackChanged_within (u : Nat) (ev : Ev) : Within ev.s (feedbackChanged u ev).s := by
  unfold feedbackChanged
  simp only
  split
  · exact unitStarted_within _ _ (by assumption)
  · exact completeStop_within _ _ (by assumption)
  · exact runLost_within _ _
  · exact uncommanded_within _ _
  · exact uncommanded_within _ _
  · exact uncommanded_within _ _
  · exact .refl _

theorem startFailed_within (u : Nat) (ev : Ev) : Within ev.s (startFailed u ev).s := by
  unfold startFailed
  have h : Within ev.s ((ev.s.updUnit u fun r =>
      { r with
        command := .stop, start := none, failures := (ev.s.unit u).failures + 1
        state := if (ev.s.unit u).failures + 1 < 2 then .failed else .lockedOut
        rest := if (ev.s.unit u).failures + 1 < 2 then ev.s.restUntil u else none }).leaveOrder u) :=
    (updUnit_within ev.s u _ fun _ => by
      simp only [CompUnit.lawful]
      split <;> simp [UnitState.counts]).trans (leaveOrder_within _ _)
  have h2 := h.trans
    (raise_within .startFailed (some u) (data := .failures ((ev.s.unit u).failures + 1)) { ev with s := _ })
  exact ite_within h2 (h2.trans (raise_within _ _ _))

theorem stopExpired_within (u : Nat) (ev : Ev) (h : (ev.s.unit u).state = .stopping) :
    Within ev.s (stopExpired u ev).s := by
  unfold stopExpired
  split
  · exact updUnit_within ev.s u _ id
  · exact completeStop_within _ _ h

theorem tripUnit_within (ev : Ev) (u : Nat) : Within ev.s (tripUnit ev u).s := by
  unfold tripUnit
  split
  · exact (beginStop_within _ _).trans (leaveOrder_within _ _)
  · exact .refl _

theorem tripUnits_within (ev : Ev) : Within ev.s (tripUnits ev).s :=
  (foldl_within _ tripUnit_within _ ev).trans (map_within _ _ fun _ => {})

theorem fitUnit_within (write : Bool) (ev : Ev) (u : Nat) : Within ev.s (fitUnit write ev u).s := by
  unfold fitUnit
  simp only
  split
  · exact ((updUnit_within ev.s u _ fun _ => by simp [CompUnit.lawful, UnitState.counts]).trans
      (leaveDuty_within _ _)).trans (leaveOrder_within _ _)
  · split
    · exact .refl _
    · rename_i d _ _
      have h : Within ev.s (((ev.s.leaveDuty u).updUnit u fun r =>
          { r with present := true, state := .off, command := .stop, failures := 0, duty := d.duty }).updDuty d.duty
            fun q => { q with order := q.order ++ [u] }) :=
        ((leaveDuty_within _ _).trans
          (updUnit_within _ u _ fun _ => by simp [CompUnit.lawful, UnitState.counts])).trans (updDuty_within _ _ _)
      split
      · exact h.trans (uncommanded_within u { ev with s := _ })
      · exact h

theorem fitUnits_within (write : Bool) (ev : Ev) : Within ev.s (fitUnits write ev).s :=
  foldl_within _ (fitUnit_within write) _ ev

theorem CompUnit.settleState_lawful {r : CompUnit} (h : r.lawful) (hc : r.command = .stop) (cold : Bool) :
    (r.settleState cold).lawful := by
  unfold CompUnit.settleState
  split
  · exact h
  · split
    · exact h
    · exact h
    all_goals simp [CompUnit.lawful, hc, UnitState.counts]

theorem completeStartUnit_within (ev : Ev) (u : Nat) : Within ev.s (completeStartUnit ev u).s := by
  unfold completeStartUnit
  simp only
  split
  · split
    · exact beginStop_within _ _
    · exact updUnit_within ev.s u _ id
  · split
    · exact uncommanded_within _ _
    · exact .refl _
  all_goals exact .refl _

/-! ### Trains (Drying.lean) -/

/-- Both towers of a train are lawful. -/
def Train.lawful (t : Train) : Prop := t.towerA.lawful ∧ t.towerB.lawful

theorem Train.lawful.updTower {t : Train} (h : t.lawful) (w : TowerId) (f : Tower → Tower)
    (hf : (t.tower w).lawful → (f (t.tower w)).lawful) : (t.updTower w f).lawful := by
  cases w
  · exact ⟨hf h.1, h.2⟩
  · exact ⟨h.1, hf h.2⟩

theorem Train.lawful.tower {t : Train} (h : t.lawful) (w : TowerId) : (t.tower w).lawful := by
  cases w
  · exact h.1
  · exact h.2

theorem changeTrain_within (t : Nat) (f : Train → Train) (ev : Ev)
    (h : (ev.s.train t).lawful → (f (ev.s.train t)).lawful) : Within ev.s (changeTrain t f ev).s := by
  have h1 : ∀ b, Within ev.s (Ev.hand (ev.map fun s => s.updTrain t f) b).s :=
    fun _ => updTrain_within ev.s t f fun a b => h ⟨a, b⟩
  have h2 : ∀ (p : Prop) (_ : Decidable p) b on v, Within ev.s
      (if p then Ev.hand (ev.map fun s => s.updTrain t f) b
        else newWatchValue on v (Ev.hand (ev.map fun s => s.updTrain t f) b)).s :=
    fun _ _ b _ _ => ite_within (h1 b) ((h1 b).trans (newWatchValue_within _ _ _))
  unfold changeTrain
  dsimp only
  split
  · exact ite_within ((h2 _ _ _ _ _).trans (raise_within _ _ _)) (h2 _ _ _ _ _)
  · exact h2 _ _ _ _ _

theorem Train.beginSwitch_lawful {t : Train} (h : t.lawful) (s : State) (d : TrainDef) (w : TowerId) :
    (t.beginSwitch s d w).lawful :=
  Train.lawful.updTower (t := { t with switch := some ⟨w, s.after d.travel⟩ }) h w _ fun l => l

theorem Train.completeSwitch_lawful {t : Train} (h : t.lawful) (s : State) (d : TrainDef) (w : TowerId) :
    (t.completeSwitch s d w).lawful := by
  unfold Train.completeSwitch
  refine Train.lawful.updTower (Train.lawful.updTower (t := { t with switch := none }) h _ _ ?_) _ _ ?_
  · exact fun _ k => by simp at k
  · exact fun _ k => by simp at k

theorem beginSwitch_within (t : Nat) (d : TrainDef) (w : TowerId) (ev : Ev) :
    Within ev.s (beginSwitch t d w ev).s := by
  have h := changeTrain_within t (·.beginSwitch ev.s d w) ev fun l => Train.beginSwitch_lawful l _ _ _
  unfold beginSwitch
  simp only
  split
  · exact h.trans (changeTrain_within _ _ _ fun l => Train.completeSwitch_lawful l _ _ _)
  · exact h

theorem checkSwitch_within (t : Nat) (d : TrainDef) (ev : Ev) : Within ev.s (checkSwitch t d ev).s := by
  unfold checkSwitch
  simp only
  split
  · split
    · exact beginSwitch_within _ _ _ _
    · exact .refl _
  · exact .refl _

theorem Train.adsorbing_state {t : Train} {w : TowerId} (h : t.adsorbing = some w) : (t.tower w).state = .adsorbing := by
  unfold Train.adsorbing at h
  split at h
  · rename_i k
    cases h
    exact k
  · split at h
    · rename_i k
      cases h
      exact k
    · cases h

/-- What changes of a train do within bounds they do so with their capacity netted. -/
theorem netCapacity_within (t : Nat) (f : Ev → Ev) (ev : Ev) (h : Within ev.s (f ev).s) :
    Within ev.s (netCapacity t f ev).s := h

theorem handOff_within (t e : Nat) (ev : Ev) : Within ev.s (handOff t e ev).s := by
  unfold handOff
  split
  · exact .refl _
  · split
    · exact raise_within _ _ _
    · rename_i w hw
      refine netCapacity_within t _ ev ((changeTrain_within t _ ev fun l => ?_).trans (checkSwitch_within _ _ _))
      refine Train.lawful.updTower l w _ fun _ k => ?_
      simp [Tower.charge, Train.adsorbing_state hw] at k

theorem markOffSpec_within (t : Nat) (ev : Ev) : Within ev.s (markOffSpec t ev).s :=
  (changeTrain_within t _ ev fun l => l).trans (raise_within _ _ _)

theorem Train.dewValue_lawful {r : Train} (h : r.lawful) (s : State) (d : TrainDef) (v : Int) :
    (r.dewValue s d v).lawful := by
  unfold Train.dewValue
  split
  · exact h
  · split
    · split <;> exact h
    · split
      · split <;> exact h
      · exact h

theorem trainDewValue_within (ch : Nat) (v : Int) (ev : Ev) (t : Nat) : Within ev.s (trainDewValue ch v ev t).s := by
  unfold trainDewValue
  split
  · split
    · exact changeTrain_within _ _ _ fun l => Train.dewValue_lawful l _ _ _
    · exact .refl _
  · exact .refl _

theorem trainDewLost_within (ch : Nat) (ev : Ev) (t : Nat) : Within ev.s (trainDewLost ch ev t).s := by
  unfold trainDewLost
  split
  · simp only
    split
    · exact markOffSpec_within _ _
    · exact .refl _
  · exact .refl _

theorem Train.intoService_lawful {r : Train} (h : r.lawful) : r.intoService.lawful := by
  unfold Train.intoService
  simp only
  split
  · exact h
  · split
    · exact ⟨fun k => by simp at k, h.2⟩
    · split
      · exact ⟨h.1, fun k => by simp at k⟩
      · exact h

theorem takeDewPoint_within (t : Nat) (d : TrainDef) (ev : Ev) : Within ev.s (takeDewPoint t d ev).s := by
  unfold takeDewPoint
  simp only
  split
  · exact markOffSpec_within _ _
  · exact changeTrain_within _ _ _ fun l => Train.dewValue_lawful l _ _ _

theorem switchFullBed_within (t : Nat) (d : TrainDef) (ev : Ev) : Within ev.s (switchFullBed t d ev).s := by
  unfold switchFullBed
  split
  · exact ite_within (beginSwitch_within _ _ _ _) (.refl _)
  · exact .refl _

theorem intoService_within (t : Nat) (d : TrainDef) (ev : Ev) : Within ev.s (intoService t d ev).s :=
  netCapacity_within t _ ev ((((changeTrain_within t _ ev Train.intoService_lawful).trans
    (switchFullBed_within _ _ _)).trans (takeDewPoint_within _ _ _)).trans (checkSwitch_within _ _ _))

theorem Train.fit_lawful {r : Train} (h : r.lawful) (s : State) (d : Option TrainDef) : (r.fit s d).lawful := by
  unfold Train.fit
  split
  · split
    · exact h
    · exact ⟨fun _ => ⟨rfl, rfl⟩, fun _ => ⟨rfl, rfl⟩⟩
  · exact ⟨h.1, h.2⟩

theorem fitTrains_within (s : State) : Within s s.fitTrains where
  sizes := by simp +contextual [SizeLaw, State.fitTrains]
  towers := fun l r hr => by
    simp only [State.fitTrains, List.mem_mapIdx] at hr
    obtain ⟨i, hi, rfl⟩ := hr
    exact Train.fit_lawful (l _ (List.getElem_mem _)) _ _

theorem Train.failSwitch_lawful {r : Train} (h : r.lawful) : r.failSwitch.lawful := by
  unfold Train.failSwitch
  split
  · exact Train.lawful.updTower (t := { r with switch := none }) h _ _ fun _ k => by simp at k
  · exact h

theorem Tower.stepEnds_lawful {w : Tower} (h : w.lawful) (s : State) (d : TrainDef) : (w.stepEnds s d).lawful := by
  unfold Tower.stepEnds
  split
  · exact fun k => by simp at k
  · exact fun _ => ⟨rfl, rfl⟩
  all_goals exact h

theorem towerFeedback_within (t : Nat) (w : TowerId) (ev : Ev) : Within ev.s (towerFeedback t w ev).s := by
  unfold towerFeedback
  simp only
  split
  · split
    · exact changeTrain_within _ _ _ fun l => Train.completeSwitch_lawful l _ _ _
    · exact .refl _
  · exact .refl _

theorem stepExpired_within (t : Nat) (w : TowerId) (ev : Ev) : Within ev.s (stepExpired t w ev).s := by
  unfold stepExpired
  split
  · rename_i d _
    have h : Within ev.s (changeTrain t (fun r => r.updTower w (Tower.stepEnds ev.s d)) ev).s :=
      changeTrain_within _ _ _ fun l => Train.lawful.updTower l w _ fun k => Tower.stepEnds_lawful k _ _
    simp only
    split
    · exact h.trans (checkSwitch_within _ _ _)
    · exact h
  · exact .refl _

theorem offSpecExpired_within (t : Nat) (ev : Ev) : Within ev.s (offSpecExpired t ev).s := by
  unfold offSpecExpired
  split
  · simp only
    split
    · exact (markOffSpec_within _ _).trans (beginSwitch_within _ _ _ _)
    · exact markOffSpec_within _ _
  · exact .refl _

theorem Tower.completeStart_lawful {w : Tower} (h : w.lawful) (s : State) (d : Option TrainDef) :
    (w.completeStart s d).lawful := by
  unfold Tower.completeStart
  split <;> exact h

theorem completeStartDtc_within (s : State) : Within s s.completeStartDtc where
  sizes := by simp +contextual [SizeLaw, State.completeStartDtc]
  towers := fun l r hr => by
    simp only [State.completeStartDtc, List.mem_mapIdx] at hr
    obtain ⟨i, hi, rfl⟩ := hr
    exact ⟨Tower.completeStart_lawful (l _ (List.getElem_mem _)).1 _ _,
      Tower.completeStart_lawful (l _ (List.getElem_mem _)).2 _ _⟩

/-! ### The account book (Book.lean) -/

@[simp] theorem length_proportional (q : Nat) (w : List Nat) : (proportional q w).length = w.length := by
  simp [proportional]

theorem length_tierShares (x : Nat) (i f : List Nat) (h : i.length = f.length) :
    (tierShares x i f).length = i.length := by
  simp only [tierShares]
  split <;> simp [h]

theorem length_takeExcess (sign : Int) (x : Nat) (classes : List AccountClass) (cs : List (Int × Reason))
    (h : classes.length = cs.length) : (takeExcess sign x classes cs).length = cs.length := by
  simp only [takeExcess, List.length_zipWith]
  rw [length_tierShares] <;> simp [h]

theorem length_stationPass (cap : CapSlot) (classes : List AccountClass) (cs : List (Int × Reason))
    (h : classes.length = cs.length) : (stationPass cap classes cs).length = cs.length := by
  simp only [stationPass]
  split
  · exact length_takeExcess _ _ _ _ h
  · split
    · exact length_takeExcess _ _ _ _ h
    · rfl

theorem length_confirmSlot (s : State) (st : List Account × List Int) (k : Nat) (h : st.1.length = st.2.length) :
    (s.confirmSlot st k).1.length = st.1.length ∧ (s.confirmSlot st k).2.length = st.1.length := by
  simp only [State.confirmSlot, List.length_zipWith]
  rw [length_stationPass] <;> simp [← h]

/-- A re-confirmation keeps the accounts' number. -/
theorem length_confirmed (s : State) (h : Nat) : (s.confirmed h).length = s.acb.accounts.length := by
  have fold : ∀ (l : List Nat) (st : List Account × List Int), st.1.length = st.2.length →
      (l.foldl s.confirmSlot st).1.length = st.1.length := by
    intro l
    induction l with
    | nil => exact fun _ _ => rfl
    | cons k l ih =>
      intro st hst
      obtain ⟨h1, h2⟩ := length_confirmSlot s st k hst
      rw [List.foldl_cons, ih _ (h1.trans h2.symm), h1]
  exact fold _ _ (by simp)

theorem raiseCurtailments_within (before after : List Account) (ev : Ev) :
    Within ev.s (raiseCurtailments before after ev).s := by
  refine foldl_within _ (fun e a => ?_) _ ev
  split
  · exact raise_within _ _ _
  · exact .refl _

theorem reconfirm_within (h : Nat) (ev : Ev) : Within ev.s (reconfirm h ev).s := by
  have first : ∀ l : List Account, l.length = ev.s.acb.accounts.length →
      Within ev.s { ev.s with acb := { ev.s.acb with accounts := l } } := fun l hl =>
    { sizes := by simp +contextual [SizeLaw, hl] }
  unfold reconfirm
  simp only
  exact (first _ (by simp [length_confirmed])).trans
    (raiseCurtailments_within _ _ (ev.map fun s => { s with acb := { s.acb with accounts := _ } }))

theorem setInventory_within (a : Nat) (v : Int) (ev : Ev) : Within ev.s (setInventory a v ev).s := by
  unfold setInventory
  split
  · exact .refl _
  · exact (updAccount_within ev.s a _).trans (newWatchValue_within _ _ { ev with s := ev.s.updAccount a _ })

theorem advanceBook_within (s : State) (b : Bool) : Within s (s.advanceBook b) := by
  unfold State.advanceBook
  split
  · exact { sizes := by simp +contextual [SizeLaw, State.dayRoll] }
  · exact {}

theorem unloadedBoundary_within (b : Bool) (ev : Ev) : Within ev.s (unloadedBoundary b ev).s :=
  (advanceBook_within ev.s b).trans (reconfirm_within _ { ev with s := ev.s.advanceBook b })

theorem newStartHour_within (s : State) : Within s s.newStartHour := by
  unfold State.newStartHour
  simp only
  split
  · exact { sizes := by simp +contextual [SizeLaw, State.emptyBooks, State.runningFromClock] }
  · exact { sizes := by simp +contextual [SizeLaw, State.emptyBooks] }

theorem refreshCaps_within (s : State) : Within s s.refreshCaps where
  sizes := by simp +contextual [SizeLaw, State.refreshCaps]

theorem siteToBook_within (old : Option Site) (load : Bool) (ev : Ev) : Within ev.s (siteToBook old load ev).s := by
  unfold siteToBook
  have h := (iteState_within (newStartHour_within ev.s) (.refl ev.s) (p := ((old.map Site.startHour).getD
    Config.startHourInvalid != ev.s.startHour && !ev.s.acb.loaded) = true)).trans (refreshCaps_within _)
  exact ite_within (h.trans (reconfirm_within _ { ev with s := _ })) h

/-! ### The planner (Planner.lean) -/

theorem activeStep_within (cause : StepCause) (ev : Ev) : Within ev.s (activeStep cause ev).s := by
  have h : ∀ a b (f : Ev → Int) (w : Ev → Walk), Within ev.s
      (distribute (f (handDemands a b ev)) (w (handDemands a b ev)) (handDemands a b ev)).s :=
    fun a b f w => (handDemands_within a b ev).trans (distribute_within _ _ _)
  unfold activeStep
  simp only
  exact (h _ _ (fun e => clamp (-(ev.s.wdLimit : Int)) e.s.injLimit ((ev.s.figures.map Figures.required).getD 0))
    (fun e => e.s.stepWalk (clamp (-(ev.s.wdLimit : Int)) e.s.injLimit
      ((ev.s.figures.map Figures.required).getD 0)))).trans { trip := fun l => l }

theorem heldStep_within (cause : StepCause) (ev : Ev) : Within ev.s (heldStep cause ev).s :=
  ((handDemands_within 0 0 ev).trans (distribute_within 0 _ _)).trans { trip := fun l => l }

theorem fplStep_within (cause : StepCause) (ev : Ev) : Within ev.s (fplStep cause ev).s := by
  unfold fplStep
  split
  · exact activeStep_within _ _
  · exact heldStep_within _ _

end Sys2Proof.Machine
end

