-- ==== Sys2Proof/Laws/WithinEvents.lean ====
section
/-! SUPPORT. `Within` for the operations of the Trip Unit, settlement, measurement and the profile store, and for the
end of an event: one lemma for each shared operation. -/

namespace Sys2Proof.Machine

set_option Elab.async false

/-! ### Trips and the end of an event (Trips.lean) -/

theorem record_within (s : State) (l : Launch) : Within s (s.record l) where
  trip := fun h => by
    unfold TripLaw State.record Tru.place at *
    simp only
    split
    · exact h
    · split <;> exact h

theorem tripStation_within (ev : Ev) : Within ev.s (tripStation ev).s := by
  unfold tripStation
  dsimp only
  generalize ha : (ev.map fun s => { s with tru := { s.tru with tripped := true } }) = a
  generalize hb : tripUnits (tripAllCaverns a) = b
  have k : Within a.s b.s := hb ▸ (tripAllCaverns_within a).trans (tripUnits_within _)
  generalize hc : (b.map fun s => { s with fpl := { s.fpl with active := false } }) = c
  have hc1 : c.s.fpl.active = false := by rw [← hc]; rfl
  have kc : Within b.s c.s := by
    rw [← hc]
    exact map_within _ _ fun _ => { trip := fun _ _ => rfl, held := fun _ => rfl }
  have kd : Within a.s (heldStep .trip c).s := (k.trans kc).trans (heldStep_within _ _)
  have hd : (heldStep .trip c).s.fpl.active = false := (heldStep_within _ c).held hc1
  generalize (heldStep .trip c).s = d at kd hd
  subst ha
  exact
    { pending := kd.pending, phase := kd.phase, input := kd.input, arrivals := kd.arrivals, queue := kd.queue
      caverns := kd.caverns, units := kd.units, towers := kd.towers, notices := kd.notices
      trip := fun _ _ => hd, held := fun _ => hd, sizes := kd.sizes }

theorem launchTrip_within (ev : Ev) (l : Launch) : Within ev.s (launchTrip ev l).s := by
  unfold launchTrip
  dsimp only
  split
  · refine Within.trans ?_ (map_within _ _ fun _ => joinNotice_within _ _ _ _)
    exact (map_within _ _ fun _ => record_within _ _).trans (tripStation_within _)
  · refine Within.trans ?_ (map_within _ _ fun _ => joinNotice_within _ _ _ _)
    exact (map_within _ _ fun _ => record_within _ _).trans (tripCavern_within _ _ _)

theorem secondFailure_within (c : Nat) (ev : Ev) : Within ev.s (secondFailure c ev).s :=
  Within.trans (t := { ev.s with tru := { ev.s.tru with current := _ } }) {} (joinNotice_within _ _ _ _)

theorem headerCheck_within (v : Int) (ev : Ev) : Within ev.s (headerCheck v ev).s := by
  unfold headerCheck
  split
  · exact .refl _
  · exact ite_within {} {}

theorem finishRounds_within (n : Nat) (ev : Ev) : Within ev.s (finishRounds n ev) := by
  induction n generalizing ev with
  | zero => exact .refl _
  | succ n ih =>
    unfold finishRounds
    split
    · exact iteState_within ((fplStep_within _ _).trans (ih _)) (.refl _)
    · exact (foldl_within launchTrip launchTrip_within _ { ev with launches := [] }).trans (ih _)

/-- An event, once finished, is within its beginning. -/
theorem finish_within (ev : Ev) : Within ev.s ev.finish := finishRounds_within 64 ev

/-- An event whose parts are within is finished within. -/
theorem finished {s : State} {ev : Ev} (h : Within s ev.s) : Within s ev.finish := h.trans (finish_within ev)

/-! ### Settlement (Settlement.lean) -/

theorem setBalance_within (b : Int) (ev : Ev) : Within ev.s (setBalance b ev).s := by
  unfold setBalance
  exact ite_within (.refl _)
    ((map_within ev _ fun _ => {}).trans (newWatchValue_within _ _ _))

theorem inventoryWatches_within (before : List Account) (ev : Ev) : Within ev.s (inventoryWatches before ev).s :=
  foldl_within _ (fun _ _ => ite_within (.refl _) (newWatchValue_within _ _ _)) _ ev

theorem postClose_within (r : Settled) (ev : Ev) : Within ev.s (postClose r ev).s := by
  unfold postClose
  dsimp only
  refine Within.trans ?_ (inventoryWatches_within _ _)
  refine Within.trans ?_ (setBalance_within _ _)
  exact map_within _ _ fun _ => {}

theorem emptyBooks_within (s : State) : Within s s.emptyBooks where
  sizes := by simp +contextual [SizeLaw, State.emptyBooks]

theorem runningFromClock_within (s : State) : Within s s.runningFromClock := {}

theorem skipBook_within (ev : Ev) : Within ev.s (skipBook ev).s := by
  unfold skipBook
  dsimp only
  refine Within.trans ?_ (raiseCurtailments_within _ _ _)
  exact ((emptyBooks_within ev.s).trans (runningFromClock_within _)).trans {}

theorem skip_within (ev : Ev) : Within ev.s (skip ev).s :=
  (map_within ev _ fun _ => {}).trans (skipBook_within _)

theorem nextClose_within (s : State) : Within s s.nextClose := by
  unfold State.nextClose
  split <;> exact {}

theorem raiseObaLimit_within (ev : Ev) : Within ev.s (raiseObaLimit ev).s :=
  ite_within (raise_within _ _ _) (.refl _)

theorem postPeriod_within (c : Close) (ev : Ev) : Within ev.s (postPeriod c ev).s :=
  (postClose_within _ ev).trans (map_within _ _ fun _ => Within.trans {} (advanceBook_within _ _))

theorem openPeriod_within (ev : Ev) : Within ev.s (openPeriod ev).s := by
  have h := reconfirm_within ev.s.acb.running ev
  exact ((ite_within (h.trans (skip_within _)) h).trans (map_within _ _ nextClose_within)).trans (fplStep_within _ _)

theorem completeClose_within (c : Close) (ev : Ev) : Within ev.s (completeClose c ev).s := by
  have h := ((postPeriod_within c ev).trans (openPeriod_within _)).trans
    (raise_within .periodClosed none (openPeriod (postPeriod c ev)) (data := .closed
      ((ev.s.settled c).toRecord c).number ((ev.s.settled c).toRecord c).case))
  exact (ite_within (h.trans (raise_within _ _ _)) h).trans (raiseObaLimit_within _)

theorem keepResidues_within (s : State) : Within s s.keepResidues where
  sizes := by simp +contextual [SizeLaw, State.keepResidues]

theorem enterPeriod_within (s : State) (b : Clk) (m : Bool) : Within s (s.enterPeriod b m) := by
  unfold State.enterPeriod
  cases m
  · exact {}
  · exact (keepResidues_within s).trans {}

theorem closeBegin_within (b : Clk) (ev : Ev) : Within ev.s (closeBegin b ev).s :=
  (enterPeriod_within ev.s b true).trans (iteState_within (.refl _) (nextClose_within _))

theorem discardBoundary_within (b : Clk) (day : Bool) (ev : Ev) : Within ev.s (discardBoundary b day ev).s :=
  (map_within ev _ fun x => (keepResidues_within x).trans {}).trans (unloadedBoundary_within _ _)

theorem suBoundary_within (b : Clk) (day : Bool) (ev : Ev) : Within ev.s (suBoundary b day ev).s :=
  ite_within (closeBegin_within _ _) (discardBoundary_within _ _ _)

theorem countMissed_within (s : State) : Within s s.countMissed := {}

theorem discardMissed_within (ev : Ev) (b : Clk) : Within ev.s (discardMissed ev b).s :=
  (map_within ev _ countMissed_within).trans (discardBoundary_within b _ _)

theorem enterMissed_within (l : List Clk) : ∀ s : State, Within s (l.foldl State.enterMissed s) := by
  induction l with
  | nil => exact fun s => .refl s
  | cons x l ih => exact fun s => ((enterPeriod_within s x _).trans (countMissed_within _)).trans (ih _)

theorem missedLoaded_within (start : Clk) (s : State) : Within s (missedLoaded start s) := by
  unfold missedLoaded
  exact iteState_within (enterMissed_within _ _) ((enterMissed_within _ _).trans {})

theorem missedUnloaded_within (start : Clk) (ev : Ev) : Within ev.s (missedUnloaded start ev).s := by
  unfold missedUnloaded
  have h := foldl_within discardMissed discardMissed_within
    (boundariesAfter (min (missedCount start ev.s.clock) (Config.missedSingly - ev.s.su.missedTaken)) start) ev
  exact ite_within h ((h.trans (map_within _ _ fun _ => {})).trans (skipBook_within _))

theorem missedBoundaries_within (ev : Ev) : Within ev.s (missedBoundaries ev).s := by
  unfold missedBoundaries
  split
  · exact .refl _
  · exact ite_within (.refl _) (ite_within (missedLoaded_within _ _) (missedUnloaded_within _ _))

theorem beginDue_within (ev : Ev) : Within ev.s (beginDue ev).s :=
  ite_within (.refl _) (ite_within (.refl _) (nextClose_within _))

/-! ### Measurement (Signals.lean) -/

theorem setHeader_within (ch : Nat) (v : Int) (q : Quality) (ev : Ev) : Within ev.s (setHeader ch v q ev).s :=
  ite_within (map_within _ _ fun _ => {}) (.refl _)

theorem newValue_within (ch : Nat) (v : Int) (ev : Ev) : Within ev.s (newValue ch v ev).s := by
  unfold newValue
  dsimp only
  refine Within.trans ?_ (newWatchValue_within _ _ _)
  have h := (foldl_within (fun e c => cavernNewValue c v e) (fun e c => cavernNewValue_within c v e)
    (cavernsOn ch ev.s) ev).trans (foldl_within _ (trainDewValue_within ch v) (List.range 4) _)
  exact ite_within ((h.trans (setHeader_within ch v _ _)).trans (headerCheck_within _ _))
    (h.trans (setHeader_within ch v _ _))

theorem qualityChange_within (ch : Nat) (ev : Ev) : Within ev.s (qualityChange ch ev).s := by
  unfold qualityChange
  dsimp only
  refine Within.trans ?_ (setHeader_within _ _ _ _)
  have h := foldl_within (fun e c => cavernQuality c (ev.s.chan ch).quality (ev.s.chan ch).value e)
    (fun e c => cavernQuality_within c _ _ e) (cavernsOn ch ev.s) ev
  exact ite_within (h.trans (foldl_within _ (trainDewLost_within ch) _ _)) h

theorem mapChan_within (ev : Ev) (c : Nat) (f : Channel → Channel) :
    Within ev.s (ev.map fun s => s.updChan c f).s := updChan_within _ _ _

theorem inRangeReading_within (ch : Nat) (v : Int) (ev : Ev) : Within ev.s (inRangeReading ch v ev).s := by
  unfold inRangeReading
  exact ite_within ((mapChan_within _ _ _).trans (newValue_within _ _ _)) (ite_within (mapChan_within _ _ _)
    (((mapChan_within _ _ _).trans (qualityChange_within _ _)).trans (newValue_within _ _ _)))

theorem outOfRangeReading_within (ch : Nat) (d : ChanDef) (ev : Ev) : Within ev.s (outOfRangeReading ch d ev).s :=
  ite_within ((mapChan_within _ _ _).trans (qualityChange_within _ _)) (mapChan_within _ _ _)

theorem reading_within (ch current : Nat) (d : ChanDef) (ev : Ev) : Within ev.s (reading ch current d ev).s := by
  unfold reading
  refine ite_within (mapChan_within _ _ _) ?_
  dsimp only
  split
  · exact (mapChan_within ev _ _).trans (inRangeReading_within _ _ _)
  · exact (mapChan_within ev _ _).trans (outOfRangeReading_within _ _ _)

theorem holdExpired_within (ch : Nat) (ev : Ev) : Within ev.s (holdExpired ch ev).s :=
  ((mapChan_within _ _ _).trans (qualityChange_within _ _)).trans (raise_within _ _ _)

theorem passBegins_within (ev : Ev) (ch : Nat) : Within ev.s (passBegins ev ch).s :=
  ite_within ((mapChan_within _ _ _).trans (qualityChange_within _ _)) (.refl _)

theorem passEnds_within (ev : Ev) (ch : Nat) : Within ev.s (passEnds ev ch).s :=
  ite_within ((mapChan_within _ _ _).trans (qualityChange_within _ _)) (.refl _)

theorem mapRun_within (ev : Ev) (r : Nat) (f : Run → Run) : Within ev.s (ev.map fun s => s.updRun r f).s :=
  updRun_within _ _ _

theorem addEnergy_within (r e : Nat) (ev : Ev) : Within ev.s (addEnergy r e ev).s := by
  unfold addEnergy
  dsimp only
  split
  · exact (mapRun_within _ _ _).trans (handOff_within _ _ _)
  · exact mapRun_within _ _ _

theorem setRate_within (r v : Nat) (ev : Ev) : Within ev.s (setRate r v ev).s :=
  ite_within (.refl _) ((mapRun_within _ _ _).trans (newWatchValue_within _ _ _))

theorem timePulse_within (r e : Nat) (d : RunDef) (ev : Ev) : Within ev.s (timePulse r e d ev).s := by
  unfold timePulse
  dsimp only
  split
  · exact (setRate_within _ _ _).trans (updRun_within _ _ _)
  · exact updRun_within _ _ _

theorem pulse_within (r : Nat) (d : RunDef) (ev : Ev) : Within ev.s (pulse r d ev).s :=
  ite_within ((mapRun_within _ _ _).trans (timePulse_within _ _ _ _))
    ((addEnergy_within _ _ _).trans (timePulse_within _ _ _ _))

theorem raiseBoundary_within (s : State) (c : Clk) : Within s (s.raiseBoundary c) :=
  iteState_within {} (.refl _)

/-- A list of units, each changed in a way that keeps the law of a unit. -/
theorem mapUnits_lawful {l : List CompUnit} (f : CompUnit → CompUnit) (hf : ∀ r, r.lawful → (f r).lawful)
    (h : ∀ r ∈ l, r.lawful) : ∀ r ∈ l.map f, r.lawful := by
  intro r hr
  obtain ⟨x, hx, rfl⟩ := List.mem_map.mp hr
  exact hf x (h x hx)

theorem second_within (s : State) : Within s s.second := by
  unfold State.second
  dsimp only
  refine iteState_within (Within.trans ?_ (raiseBoundary_within _ _)) {}
  exact { units := mapUnits_lawful _ fun r h => by unfold CompUnit.second; split <;> exact h }

theorem moveDeadlines_within (s : State) (by_ : Clk) : Within s (s.moveDeadlines by_) where
  sizes := by simp +contextual [SizeLaw, State.moveDeadlines]
  queue := by
    simp only [State.moveDeadlines, List.map_map]
    apply List.map_congr_left
    intro e _
    simp only [Function.comp]
    split <;> rfl
  caverns := fun h r hr => by
    obtain ⟨x, hx, rfl⟩ := List.mem_map.mp hr
    exact h x hx
  units := mapUnits_lawful _ fun _ h => h
  towers := fun h r hr => by
    obtain ⟨x, hx, rfl⟩ := List.mem_map.mp hr
    exact h x hx

/-! ### The profile store (Profiles.lean) -/

theorem beginCommit_within (s : State) : Within s s.beginCommit := by
  unfold State.beginCommit
  split <;> exact {}

theorem setCommit_within (s : State) (g : Group) (c : Option CommitState) : Within s (s.setCommit g c) := by
  cases g <;> exact {}

theorem storeImage_within (s : State) (g : Group) : Within s (s.storeImage g) := by
  cases g <;> exact {}

theorem enterCommit_within (s : State) (g : Group) : Within s (s.enterCommit g) :=
  (Within.trans {} (setCommit_within _ g _)).trans (beginCommit_within _)

theorem commitDone_within (g : Group) (v : Bool) (ev : Ev) : Within ev.s (commitDone g v ev).s := by
  have finish (s : State) : Within s ({ s with pst := { s.pst with writing := none } } : State).beginCommit :=
    Within.trans {} (beginCommit_within _)
  unfold commitDone
  refine ite_within ?_ ?_
  · exact (map_within ev _ fun s =>
      ((storeImage_within s g).trans (setCommit_within _ _ _)).trans (finish _)).trans (raise_within _ _ _)
  · exact (setCommit_within ev.s g _).trans (finish _)

theorem fitHeader_within (s : State) (old : Option Site) : Within s (s.fitHeader old) := by
  unfold State.fitHeader
  refine iteState_within (.refl _) ?_
  split <;> exact {}

theorem applySite_within (p : Site) (b : Bool) (ev : Ev) : Within ev.s (applySite p b ev).s := by
  unfold applySite
  refine Within.trans ?_ (siteToBook_within _ _ _)
  have h : ∀ (t : State) (old : Option Site), Within t (t.fitRuns old) := fun t old =>
    { sizes := by simp +contextual [SizeLaw, State.fitRuns] }
  exact (Within.trans {} (h _ _)).trans (fitHeader_within _ _)

theorem applyCaverns_within (l : List CavernDef) (ev : Ev) : Within ev.s (applyCaverns l ev).s := by
  unfold applyCaverns
  rw [Ev.hand_s]
  refine map_within ev _ fun s => ?_
  refine Within.trans ?_ (disarm_within _)
  refine Within.trans ?_ (fitCaverns_within _)
  exact {}

theorem refigureLoading_within (before : State) (ev : Ev) (t : Nat) : Within ev.s (refigureLoading before ev t).s :=
  ite_within (.refl _) (newWatchValue_within _ _ _)

theorem applyPlant_within (p : Plant) (ev : Ev) : Within ev.s (applyPlant p ev).s := by
  refine Within.trans ?_ (fitUnits_within _ _)
  refine Within.trans ?_ (foldl_within _ (refigureLoading_within ev.s) _ _)
  refine map_within ev _ fun s => ?_
  refine Within.trans ?_ (disarm_within _)
  refine Within.trans ?_ (fitTrains_within _)
  exact {}

theorem applyWrite_within (g : Group) (v : List Int) (ev : Ev) : Within ev.s (applyWrite g v ev).s := by
  unfold applyWrite
  have h : ∀ e : Ev, Within ev.s e.s → Within ev.s (e.map fun s => s.settleAfterWrite.enterCommit g).s :=
    fun e k => k.trans (Within.trans (t := e.s.settleAfterWrite) {} (enterCommit_within _ _))
  cases g
  · exact h _ (applySite_within _ _ _)
  · exact h _ (applyCaverns_within _ _)
  · exact h _ (applyPlant_within _ _)

end Sys2Proof.Machine
end

