-- ==== Sys2Proof/Laws/Requests.lean ====
section
/-! SUPPORT. The taking of a request, said once: which answer `serve` gives when a request is taken, and what the
arrival of a request leaves as it was. -/

namespace Sys2Proof.Machine

set_option Elab.async false

/-! ### Events that end at once -/

@[simp] theorem State.ev_finish (s : State) : s.ev.finish = s := rfl

theorem finish_of_quiet {ev : Ev} (h : ev.launches = []) (k : ev.restep = false) : ev.finish = ev.s := by
  simp [Ev.finish, finishRounds, h, k]

/-! ### Arrival -/

theorem enqueue_eq (s : State) (c : Instr) (k : Nat) : ∃ q, s.enqueue c k = { s with slu := q } := by
  unfold State.enqueue
  split
  · unfold State.refuseFrame
    split
    · exact ⟨s.slu, rfl⟩
    · exact ⟨_, rfl⟩
  · exact ⟨_, rfl⟩

/-- The arrival of a request changes nothing but the link's record. -/
theorem arrived_eq (s : State) (c : Instr) : ∃ q, s.arrived c = { s with slu := q } := by
  unfold State.arrived
  split
  · exact ⟨s.slu, rfl⟩
  · exact enqueue_eq _ _ _

@[simp] theorem arrived_pending (s : State) (c : Instr) : (s.arrived c).pending = s.pending := by
  obtain ⟨q, h⟩ := arrived_eq s c; rw [h]

@[simp] theorem arrived_phase (s : State) (c : Instr) : (s.arrived c).phase = s.phase := by
  obtain ⟨q, h⟩ := arrived_eq s c; rw [h]

@[simp] theorem arrived_resetInput (s : State) (c : Instr) : (s.arrived c).resetInput = s.resetInput := by
  obtain ⟨q, h⟩ := arrived_eq s c; rw [h]

@[simp] theorem arrived_mu (s : State) (c : Instr) : (s.arrived c).mu = s.mu := by
  obtain ⟨q, h⟩ := arrived_eq s c; rw [h]

@[simp] theorem arrived_cvc (s : State) (c : Instr) : (s.arrived c).cvc = s.cvc := by
  obtain ⟨q, h⟩ := arrived_eq s c; rw [h]

@[simp] theorem arrived_cdm (s : State) (c : Instr) : (s.arrived c).cdm = s.cdm := by
  obtain ⟨q, h⟩ := arrived_eq s c; rw [h]

@[simp] theorem arrived_dtc (s : State) (c : Instr) : (s.arrived c).dtc = s.dtc := by
  obtain ⟨q, h⟩ := arrived_eq s c; rw [h]

@[simp] theorem arrived_acb (s : State) (c : Instr) : (s.arrived c).acb = s.acb := by
  obtain ⟨q, h⟩ := arrived_eq s c; rw [h]

@[simp] theorem arrived_fpl (s : State) (c : Instr) : (s.arrived c).fpl = s.fpl := by
  obtain ⟨q, h⟩ := arrived_eq s c; rw [h]

@[simp] theorem arrived_su (s : State) (c : Instr) : (s.arrived c).su = s.su := by
  obtain ⟨q, h⟩ := arrived_eq s c; rw [h]

@[simp] theorem arrived_wnu (s : State) (c : Instr) : (s.arrived c).wnu = s.wnu := by
  obtain ⟨q, h⟩ := arrived_eq s c; rw [h]

@[simp] theorem arrived_tru (s : State) (c : Instr) : (s.arrived c).tru = s.tru := by
  obtain ⟨q, h⟩ := arrived_eq s c; rw [h]

@[simp] theorem arrived_pst (s : State) (c : Instr) : (s.arrived c).pst = s.pst := by
  obtain ⟨q, h⟩ := arrived_eq s c; rw [h]

@[simp] theorem arrived_resetPending (s : State) (c : Instr) :
    (s.arrived c).slu.resetPending = s.slu.resetPending := by
  unfold State.arrived State.enqueue State.refuseFrame
  split
  · rfl
  · split
    · split <;> rfl
    · rfl

/-! ### Taking -/

/-- What `takes` says. -/
theorem takes_parts {c : Instr} {s : State} {e : QEntry} (h : takes c s e = true) :
    s.phase = .running ∧ s.slu.resetPending = false ∧ lengthAllowed (c.kind.getD 0) c.body.length = true ∧
      (s.arrived c).findEntry c = some e ∧ e.request = c ∧ (s.arrived c).inTurn e = true ∧
      (s.arrived c).heldByClose e = false := by
  simp only [takes, Bool.and_eq_true, beq_iff_eq, Bool.not_eq_true'] at h
  obtain ⟨⟨⟨⟨⟨h1, h2⟩, h3⟩, h4⟩, h5⟩, h6⟩ := h
  refine ⟨h1, h2, h3, h4, ?_, h5, h6⟩
  have := List.find?_some h4
  simp only [Bool.and_eq_true, beq_iff_eq] at this
  exact this.1

theorem serve_of_takes {c : Instr} {s : State} {e : QEntry} (take : State → Ev × Answer) (h : takes c s e = true) :
    serve c take s = takeEntry take e (s.arrived c) := by
  obtain ⟨h1, h2, h3, h4, h5, h6, h7⟩ := takes_parts h
  have ha : s.arrived c = if (s.findEntry c).isSome then s
      else if lengthAllowed (c.kind.getD 0) c.body.length then s.enqueue c (c.kind.getD 0)
      else s.refuseFrame (c.kind.getD 0 + 0x80) c.tag .badLength {} := by
    unfold State.arrived
    rw [h3]
    simp
  simp only [serve, h1, h2, ← ha, h4, tryEntry, h6, h7]
  simp

/-- A request that its block answers OK is done. -/
theorem serve_completes {c : Instr} {s : State} {e : QEntry} {take : State → Ev × Answer} {ev : Ev}
    {body : List Fld} (h : takes c s e = true) (k : take (s.arrived c) = (ev, .ok body)) :
    serve c take s = (s.arrived c).answered e ev body := by
  rw [serve_of_takes _ h, takeEntry, k]
  rfl

/-- A request that its block refuses is refused, with whatever its event leaves. -/
theorem serve_refused {c : Instr} {s : State} {e : QEntry} {take : State → Ev × Answer} {ev : Ev} {st : Status}
    {d : Detail} (h : takes c s e = true) (k : take (s.arrived c) = (ev, .no st d)) :
    serve c take s = ((s.arrived c).noteTaking ev.finish e.arrival).formReply e st d [] := by
  rw [serve_of_takes _ h, takeEntry, k]

/-- The link notes nothing of a taking that changes nothing. -/
theorem noteTaking_self {s : State} (h : s.slu.resetPending = false) (a : Nat) : s.noteTaking s a = s := by
  have k : (if s.slu.resetPending then some a else s.slu.resetReply) = s.slu.resetReply := by simp [h]
  unfold State.noteTaking
  rw [k, if_pos rfl]

/-- A request answered OK with nothing changed only tells. -/
theorem serve_tells {c : Instr} {s : State} {e : QEntry} {take : State → Ev × Answer} {body : List Fld}
    (h : takes c s e = true) (k : take (s.arrived c) = ((s.arrived c).ev, .ok body)) :
    serve c take s = (s.arrived c).formReply e .ok {} body := by
  rw [serve_completes h k, State.answered, State.ev_finish, noteTaking_self]
  simpa using (takes_parts h).2.1

/-- A request refused with nothing changed. -/
theorem serve_refuses {c : Instr} {s : State} {e : QEntry} {take : State → Ev × Answer} {st : Status} {d : Detail}
    (h : takes c s e = true) (k : take (s.arrived c) = ((s.arrived c).ev, .no st d)) :
    serve c take s = (s.arrived c).formReply e st d [] := by
  rw [serve_refused h k, State.ev_finish, noteTaking_self]
  simpa using (takes_parts h).2.1

/-- A request that its block refuses whatever the link's record holds is refused. -/
theorem serve_refuses_always {c : Instr} {s : State} {e : QEntry} {take : State → Ev × Answer} {st : Status}
    {d : Detail} (h : takes c s e = true)
    (k : ∀ q, take { s with slu := q } = (({ s with slu := q } : State).ev, .no st d)) :
    serve c take s = (s.arrived c).formReply e st d [] := by
  obtain ⟨q, hq⟩ := arrived_eq s c
  exact serve_refuses h (by rw [hq]; exact k q)

/-! ### Verdicts -/

theorem judged_nil (s : State) (go : Ev × Answer) : judged s [] go = go := rfl

theorem judged_cons_true (s : State) (k : Nat) (l : List (Nat × Bool)) (go : Ev × Answer) :
    judged s ((k, true) :: l) go = judged s l go := by simp [judged, firstBad]

theorem judged_cons_false (s : State) (k : Nat) (l : List (Nat × Bool)) (go : Ev × Answer) :
    judged s ((k, false) :: l) go = (s.ev, .badField k) := by simp [judged, firstBad]

@[simp] theorem refuseIf_false (s : State) (a : Answer) (go : Ev × Answer) : refuseIf s false a go = go := rfl

@[simp] theorem refuseIf_true (s : State) (a : Answer) (go : Ev × Answer) : refuseIf s true a go = (s.ev, a) := rfl

/-- An entry that offends is the first to do so where none before it does. -/
theorem firstOffending_eq_some {ok : Nat → Bool} {l : List Nat} {i : Nat} (hi : i < l.length)
    (h : ok (l.getD i 0) = false ∨ l.getD i 0 ∈ l.take i)
    (first : ∀ j, j < i → ok (l.getD j 0) = true ∧ l.getD j 0 ∉ l.take j) : firstOffending ok l = some i := by
  rw [firstOffending, List.find?_range_eq_some]
  refine ⟨?_, List.mem_range.2 hi, fun j hj => ?_⟩
  · rcases h with h | h <;> simp_all
  · have := first j hj; simp_all

/-- A list of which no entry offends has no first that does. -/
theorem firstOffending_eq_none {ok : Nat → Bool} {l : List Nat}
    (h : ∀ i, i < l.length → ok (l.getD i 0) = true ∧ l.getD i 0 ∉ l.take i) : firstOffending ok l = none := by
  rw [firstOffending, List.find?_eq_none]
  intro i hi
  have := h i (List.mem_range.1 hi)
  simp_all

/-! ### What a close has held back -/

/-- Nothing held back is nothing taken. -/
@[simp] theorem takeWaiting_nil (s : State) : s.takeWaiting [] = s := by
  unfold State.takeWaiting
  split <;> rfl

/-- A further close, or a pending reset, leaves what has waited as it is (R125, R183). -/
theorem takeWaiting_waits {s : State} (h : s.inFlight = true ∨ s.slu.resetPending = true) (held : List QEntry) :
    s.takeWaiting held = s := by
  rcases h with h | h <;> simp [State.takeWaiting, h]

/-- With no close in flight an entry that was held back is taken when its turn has come. -/
theorem takeHeld_takes {s : State} {e : QEntry} {take : State → Ev × Answer} (h : closeTaking e.request = some take)
    (k : s.inFlight = false) (turn : s.inTurn e = true) : takeHeld s e = takeEntry take e s := by
  simp [takeHeld, h, tryEntry, turn, State.heldByClose, State.waitsForClose, k]

end Sys2Proof.Machine
end

