-- ==== Sys2Proof/Laws/Takings.lean ====
section
/-! SUPPORT. `Within` for what each request does, whatever its answer: one lemma for each request that changes anything;
a request that only tells is `answerOnly`. -/

namespace Sys2Proof.Machine

set_option Elab.async false

/-! ### Shapes -/

theorem answerOnly_within (s : State) (b : List Fld) : Within s (answerOnly s b).1.s := .refl _

theorem judged_within {s : State} {l : List (Nat × Bool)} {go : Ev × Answer} (h : Within s go.1.s) :
    Within s (judged s l go).1.s := by
  unfold judged
  split
  · exact .refl _
  · exact h

theorem refuseIf_within {s : State} {b : Bool} {a : Answer} {go : Ev × Answer} (h : Within s go.1.s) :
    Within s (refuseIf s b a go).1.s := by
  cases b
  · exact h
  · exact .refl _

theorem onCavern_within {s : State} {c : Nat} {l : List (Nat × Bool)} {go : CavernDef → Ev × Answer}
    (h : ∀ d, Within s (go d).1.s) : Within s (onCavern s c l go).1.s := by
  refine judged_within ?_
  split
  · exact .refl _
  · exact h _

theorem onUnit_within {s : State} {u : Nat} {l : List (Nat × Bool)} {go : Ev × Answer} (h : Within s go.1.s) :
    Within s (onUnit s u l go).1.s := judged_within (refuseIf_within h)

theorem onTrain_within {s : State} {t : Nat} {l : List (Nat × Bool)} {go : TrainDef → Ev × Answer}
    (h : ∀ d, Within s (go d).1.s) : Within s (onTrain s t l go).1.s := by
  refine judged_within ?_
  split
  · exact .refl _
  · exact h _

theorem onAccount_within {s : State} {a : Nat} {l : List (Nat × Bool)} {go : Ev × Answer} (h : Within s go.1.s) :
    Within s (onAccount s a l go).1.s := judged_within h

/-- Either of two answers is within. -/
theorem iteAnswer_within {p : Prop} [Decidable p] {s : State} {x y : Ev × Answer} (h : Within s x.1.s)
    (k : Within s y.1.s) : Within s (if p then x else y).1.s := by
  split
  · exact h
  · exact k

/-! ### Measurement -/

theorem takeReadChannel_within (c : Nat) (s : State) : Within s (takeReadChannel c s).1.s :=
  judged_within (answerOnly_within _ _)

theorem checkBegins_within (ch i h : Nat) (ev : Ev) : Within ev.s (checkBegins ch i h ev).s :=
  ite_within ((mapChan_within _ _ _).trans (qualityChange_within _ _)) (mapChan_within _ _ _)

theorem takeLoopCheckBegin_within (c i : Nat) (s : State) : Within s (takeLoopCheckBegin c i s).1.s := by
  refine judged_within ?_
  split
  · exact .refl _
  · refine refuseIf_within ?_
    split
    · exact .refl _
    · exact checkBegins_within _ _ _ s.ev

theorem takeLoopCheckEnd_within (c : Nat) (s : State) : Within s (takeLoopCheckEnd c s).1.s :=
  judged_within (refuseIf_within (mapChan_within s.ev _ _))

theorem takeReadMeter_within (r : Nat) (s : State) : Within s (takeReadMeter r s).1.s :=
  judged_within (answerOnly_within _ _)

theorem takeSetGasQuality_within (r cv : Nat) (s : State) : Within s (takeSetGasQuality r cv s).1.s :=
  judged_within (ite_within ((mapRun_within s.ev _ _).trans (addEnergy_within _ _ _)) (mapRun_within s.ev _ _))

theorem firstClock_within (s : State) (v : Clk) : Within s (s.firstClock v) := by
  unfold State.firstClock
  exact ((moveDeadlines_within s _).trans {}).trans (Within.trans (runningFromClock_within _) {})

theorem trimClock_within (s : State) (v : Clk) (t : Int) : Within s (s.trimClock v t) := by
  unfold State.trimClock
  exact iteState_within (Within.trans {} (raiseBoundary_within _ _)) {}

theorem takeSetClock_within (v : Nat) (s : State) : Within s (takeSetClock v s).1.s :=
  iteAnswer_within (firstClock_within _ _) (judged_within (refuseIf_within (trimClock_within _ _ _)))

/-! ### Caverns -/

theorem takeCavernServiceIn_within (c : Nat) (s : State) : Within s (takeCavernServiceIn c s).1.s := by
  refine onCavern_within fun d => ?_
  cases h : (s.cav c).state != .outOfService with
  | true => exact .refl _
  | false =>
    refine refuseIf_within (refuseIf_within ?_)
    refine changeCavern_within c _ s.ev fun l => ?_
    have h0 : (s.cav c).state = .outOfService := by simpa using h
    have hz := Cavern.lawful.still l (by simp [h0]) (by simp [h0])
    exact Cavern.rest_signed hz rfl (by simp [CavernState.isOpen])

theorem takeCavernServiceOut_within (c d : Nat) (s : State) : Within s (takeCavernServiceOut c d s).1.s := by
  refine onCavern_within fun _ => ?_
  cases h : (s.cav c).state.leavable with
  | false => exact .refl _
  | true =>
    refine changeCavern_within c _ s.ev fun l => ?_
    have hz : (s.cav c).setpoint = 0 := by
      refine Cavern.lawful.still l ?_ ?_ <;>
        · intro hc
          simp [hc, CavernState.leavable] at h
    exact Cavern.rest_signed hz rfl (by simp [CavernState.isOpen])

theorem takeCavernEnable_within (c : Nat) (s : State) : Within s (takeCavernEnable c s).1.s := by
  refine onCavern_within fun d => refuseIf_within (refuseIf_within ?_)
  cases h : (s.cav c).state.isClosed with
  | false => exact .refl _
  | true =>
    refine refuseIf_within (refuseIf_within ?_)
    refine changeCavern_within c _ s.ev fun l => ?_
    have hz : (s.cav c).setpoint = 0 := by
      refine Cavern.lawful.still l ?_ ?_ <;>
        · intro hc
          simp [hc, CavernState.isClosed] at h
    exact ⟨by simp [hz], by simp [hz], by simp⟩

theorem takeCavernShut_within (c : Nat) (s : State) : Within s (takeCavernShut c s).1.s := by
  refine onCavern_within fun d => ?_
  split
  any_goals exact changeCavern_within c _ s.ev fun l => Cavern.beginClosing_signed _ _ _ _
  all_goals exact .refl _

theorem takeSetMeritOrder_within (d : Nat) (l : List Nat) (s : State) : Within s (takeSetMeritOrder d l s).1.s := by
  refine judged_within (refuseIf_within ?_)
  split
  · exact .refl _
  · exact map_within s.ev (fun t => t.setMerit d l) fun t => by
      unfold State.setMerit
      exact iteState_within {} {}

theorem takeReadMeritOrder_within (d : Nat) (s : State) : Within s (takeReadMeritOrder d s).1.s :=
  judged_within (answerOnly_within _ _)

theorem takeReadCavern_within (c : Nat) (s : State) : Within s (takeReadCavern c s).1.s :=
  judged_within (answerOnly_within _ _)

theorem travelExpired_within (c : Nat) (ev : Ev) : Within ev.s (travelExpired c ev).s := by
  have h : Within ev.s (changeCavern c Cavern.toFault ev).s :=
    changeCavern_within c _ ev fun _ => Cavern.toFault_signed _
  unfold travelExpired
  dsimp only
  split
  · exact ite_within (h.trans (secondFailure_within _ _)) h
  · exact h
  any_goals exact ite_within (.refl _) h
  all_goals exact .refl _

/-! ### Compressors -/

theorem takeUnitMaintenance_within (u : Nat) (s : State) : Within s (takeUnitMaintenance u s).1.s := by
  refine onUnit_within ?_
  split
  any_goals exact updUnit_within s u _ fun _ => by simp [CompUnit.lawful, UnitState.counts]
  all_goals exact .refl _

theorem takeUnitAvailable_within (u : Nat) (s : State) : Within s (takeUnitAvailable u s).1.s := by
  refine onUnit_within (refuseIf_within ?_)
  cases h : (s.unit u).state != .maintenance with
  | true => exact .refl _
  | false =>
    have h0 : (s.unit u).state = .maintenance := by simpa using h
    refine refuseIf_within (refuseIf_within (updUnit_within s u _ fun l => ?_))
    have hc : ¬(s.unit u).command = .run := fun k => by
      have := l.mp k
      simp [h0, UnitState.counts] at this
    unfold CompUnit.release
    split
    · split <;> simp [CompUnit.lawful, hc, UnitState.counts]
    · simp [CompUnit.lawful, hc, UnitState.counts]

theorem takeResetLockout_within (u : Nat) (s : State) : Within s (takeResetLockout u s).1.s :=
  onUnit_within (refuseIf_within (refuseIf_within
    (updUnit_within s u _ fun _ => by simp [CompUnit.lawful, UnitState.counts])))

theorem moveDuty_within (s : State) (u : Nat) (d : Duty) : Within s (s.moveDuty u d) :=
  ((leaveDuty_within s u).trans (updUnit_within _ u _ id)).trans (updDuty_within _ _ _)

theorem takeSetDuty_within (u d : Nat) (s : State) : Within s (takeSetDuty u d s).1.s := by
  refine onUnit_within ?_
  split
  any_goals exact iteAnswer_within (.refl _) (moveDuty_within _ _ _)
  exact .refl _

theorem takeSetDutyOrder_within (d : Nat) (l : List Nat) (s : State) : Within s (takeSetDutyOrder d l s).1.s := by
  refine judged_within (refuseIf_within ?_)
  split
  · exact .refl _
  · split
    · exact .refl _
    · exact mapDuty_within s.ev _ _

theorem takeReadUnit_within (u : Nat) (s : State) : Within s (takeReadUnit u s).1.s :=
  judged_within (answerOnly_within _ _)

/-! ### Trains -/

theorem takeTrainOnline_within (t : Nat) (s : State) : Within s (takeTrainOnline t s).1.s :=
  onTrain_within fun _ => refuseIf_within (refuseIf_within (refuseIf_within
    (iteAnswer_within (.refl _) (intoService_within _ _ s.ev))))

theorem takeTrainOffline_within (t : Nat) (s : State) : Within s (takeTrainOffline t s).1.s :=
  onTrain_within fun _ => iteAnswer_within (changeTrain_within t _ s.ev fun l => l) (.refl _)

theorem takeForceSwitchover_within (t : Nat) (s : State) : Within s (takeForceSwitchover t s).1.s := by
  refine onTrain_within fun _ => refuseIf_within ?_
  split
  · exact .refl _
  · exact beginSwitch_within _ _ _ s.ev

theorem takeResetTower_within (t w : Nat) (s : State) : Within s (takeResetTower t w s).1.s := by
  refine onTrain_within fun d => ?_
  split
  · exact .refl _
  · exact refuseIf_within (changeTrain_within t _ s.ev fun l => Train.lawful.updTower l _ _ fun _ k => by simp at k)

theorem takeReadTrain_within (t : Nat) (s : State) : Within s (takeReadTrain t s).1.s :=
  judged_within (answerOnly_within _ _)

/-! ### Accounts -/

theorem takeAccountsReady_within (s : State) : Within s (takeAccountsReady s).1.s :=
  refuseIf_within (ite_within (.refl _) (Within.trans {} (reconfirm_within _ s.loadBook.ev)))

theorem takeOpenAccount_within (a code cls sp rin rwd : Nat) (s : State) :
    Within s (takeOpenAccount a code cls sp rin rwd s).1.s :=
  onAccount_within (refuseIf_within (judged_within (updAccount_within s a _)))

theorem takeLoadInventory_within (a i : Nat) (s : State) : Within s (takeLoadInventory a i s).1.s :=
  onAccount_within (refuseIf_within (refuseIf_within
    (((updAccount_within s a _).trans (setInventory_within a i (s.mark a).ev)).trans (reconfirm_within _ _))))

theorem changeAccountState_within (a : Nat) (st : AccountState) (s : State) :
    Within s (changeAccountState a st s).s :=
  Within.trans (updAccount_within s a _) (reconfirm_within _ (State.ev _))

theorem takeSuspendAccount_within (a : Nat) (s : State) : Within s (takeSuspendAccount a s).1.s := by
  refine onAccount_within ?_
  split
  · exact changeAccountState_within _ _ _
  all_goals exact .refl _

theorem takeResumeAccount_within (a : Nat) (s : State) : Within s (takeResumeAccount a s).1.s := by
  refine onAccount_within ?_
  split
  · exact changeAccountState_within _ _ _
  all_goals exact .refl _

theorem takeCloseAccount_within (a : Nat) (s : State) : Within s (takeCloseAccount a s).1.s := by
  refine onAccount_within ?_
  split
  · exact .refl _
  · exact (updAccount_within s a _).trans (disarm_within _)

theorem takeSetRights_within (a sp rin rwd : Nat) (s : State) : Within s (takeSetRights a sp rin rwd s).1.s :=
  onAccount_within (refuseIf_within (judged_within (refuseIf_within
    (Within.trans (updAccount_within s a _) (reconfirm_within _ (State.ev _))))))

theorem moveInventory_within (a b q : Nat) (s : State) : Within s (moveInventory a b q s).s :=
  (setInventory_within a _ s.ev).trans (setInventory_within b _ _)

theorem takeTransfer_within (a b q : Nat) (s : State) : Within s (takeTransfer a b q s).1.s :=
  judged_within (refuseIf_within (refuseIf_within (refuseIf_within
    ((moveInventory_within a b q s).trans (reconfirm_within _ _)))))

theorem takeNominate_within (a k : Nat) (n : Int) (s : State) : Within s (takeNominate a k n s).1.s :=
  refuseIf_within (judged_within (refuseIf_within (refuseIf_within
    (Within.trans (updAccount_within s a _) (reconfirm_within _ (State.ev _))))))

theorem takeDeclareCapacity_within (k i w : Nat) (s : State) : Within s (takeDeclareCapacity k i w s).1.s :=
  refuseIf_within (judged_within (refuseIf_within (Within.trans {} (reconfirm_within _ (State.ev _)))))

theorem takeReadCapacity_within (f c : Nat) (s : State) : Within s (takeReadCapacity f c s).1.s :=
  judged_within (answerOnly_within _ _)

theorem takeReadChanged_within (s : State) : Within s (takeReadChanged s).1.s where
  sizes := by simp +contextual [SizeLaw, takeReadChanged]

theorem takeReadAccount_within (a : Nat) (s : State) : Within s (takeReadAccount a s).1.s :=
  onAccount_within (answerOnly_within _ _)

theorem takeReadBook_within (a f c : Nat) (s : State) : Within s (takeReadBook a f c s).1.s :=
  onAccount_within (answerOnly_within _ _)

/-! ### Planner and settlement; DISPATCH_ENABLE alone makes the planner ACTIVE -/

theorem takeDispatchHold_within (s : State) : Within s (takeDispatchHold s).1.s :=
  ite_within (Within.trans (t := s.setActive false) { trip := fun _ _ => rfl, held := fun _ => rfl }
    (heldStep_within _ (State.ev _))) (.refl _)

theorem intervalStep_within (ev : Ev) : Within ev.s (intervalStep ev).s :=
  (map_within ev _ fun _ => {}).trans (fplStep_within _ _)

theorem takeObaAdjust_within (a : Nat) (q : Int) (s : State) : Within s (takeObaAdjust a q s).1.s :=
  onAccount_within (refuseIf_within (refuseIf_within (refuseIf_within
    ((((setInventory_within a _ s.ev).trans (setBalance_within _ _)).trans (reconfirm_within _ _)).trans
      (raiseObaLimit_within _)))))

theorem takeReadPeriod_within (n : Nat) (p : Option Nat) (s : State) : Within s (takeReadPeriod n p s).1.s := by
  refine judged_within ?_
  split
  · exact .refl _
  · exact judged_within (answerOnly_within _ _)

/-! ### Watches and notices -/

theorem takeSetWatch_within (i : Nat) (w : WatchFields) (s : State) : Within s (takeSetWatch i w s).1.s :=
  judged_within (refuseIf_within (refuseIf_within (updWatch_within s i _)))

theorem takeClearWatch_within (i : Nat) (s : State) : Within s (takeClearWatch i s).1.s :=
  judged_within (updWatch_within s i _)

theorem takeReadWatches_within (s : State) : Within s (takeReadWatches s).1.s where
  sizes := by simp +contextual [SizeLaw, takeReadWatches, State.clearFlags]

theorem takeReadWatch_within (i : Nat) (s : State) : Within s (takeReadWatch i s).1.s :=
  judged_within (answerOnly_within _ _)

theorem takeAwaitFlags_within (m d : Nat) (s : State) : Within s (takeAwaitFlags m d s).1.s :=
  judged_within (iteAnswer_within {} (.refl _))

theorem NoticeChannel.acknowledged_lawful {c : NoticeChannel} (h : c.lawful) : c.acknowledged.lawful := by
  unfold NoticeChannel.acknowledged
  split
  · exact ⟨NoticeList.empty_lawful, NoticeList.empty_lawful, by simp, by simp⟩
  · exact ⟨h.2.1, NoticeList.empty_lawful, by simp, by simp⟩

theorem takeAckNotice_within (n : Nat) (l : List Nat) (s : State) : Within s (takeAckNotice n l s).1.s := by
  have fold : ∀ (l : List Nat) (t : State),
      Within t (l.foldl (fun t w => t.updWatch w fun r => { r with state := .armed, latch := none }) t) := by
    intro l
    induction l with
    | nil => exact fun t => .refl t
    | cons x l ih => exact fun t => (updWatch_within t x _).trans (ih _)
  refine judged_within ?_
  split
  · exact .refl _
  · exact refuseIf_within ((updNotice_within s n _ NoticeChannel.acknowledged_lawful).trans (fold _ _))

theorem holdAll_within (s : State) (b : Bool) : Within s (s.holdAll b) where
  sizes := by simp +contextual [SizeLaw, State.holdAll]
  notices := fun h c hc => by
    obtain ⟨x, hx, rfl⟩ := List.mem_map.mp hc
    exact h x hx

theorem takeDiscardNotice_within (n : Nat) (s : State) : Within s (takeDiscardNotice n s).1.s := by
  refine judged_within ?_
  split
  · rename_i hp
    exact updNotice_within s n _ fun h =>
      ⟨NoticeList.empty_lawful, h.2.1, fun _ => rfl, fun _ => h.2.2.2 (by simp [hp])⟩
  · exact .refl _
  · exact .refl _

theorem takeTestNotice_within (n : Nat) (s : State) : Within s (takeTestNotice n s).1.s :=
  judged_within (joinNotice_within s n _ _)

theorem takeReadNoticeState_within (n : Option Nat) (s : State) : Within s (takeReadNoticeState n s).1.s :=
  judged_within (answerOnly_within _ _)

/-! ### Trips and the store -/

theorem takeClearTrip_within (s : State) : Within s (takeClearTrip s).1.s := by
  refine refuseIf_within ?_
  split
  · exact .refl _
  · exact { trip := fun _ h => by cases h }

theorem completeWrite_within (g : Group) (b : List Byte) (s : State) : Within s (completeWrite g b s).1.s := by
  unfold completeWrite
  split
  · exact .refl _
  · exact applyWrite_within _ _ s.ev

theorem takeWriteProfile_within (g sg l : Nat) (b : List Byte) (s : State) :
    Within s (takeWriteProfile g sg l b s).1.s := by
  have stage (x : Option Staging) : Within s (s.setStaging x) := {}
  unfold takeWriteProfile
  split
  · exact .refl _
  · refine judged_within ?_
    unfold takeSegment
    dsimp only
    split
    · exact stage none
    · exact iteAnswer_within (stage none)
        (iteAnswer_within (stage _) ((stage none).trans (completeWrite_within _ _ _)))

theorem takeReadProfile_within (g sg : Nat) (s : State) : Within s (takeReadProfile g sg s).1.s := by
  unfold takeReadProfile
  split
  · exact .refl _
  · exact judged_within (answerOnly_within _ _)

theorem takeResetController_within (s : State) : Within s (takeResetController s).1.s := {}

end Sys2Proof.Machine
end

