-- ==== Sys2Proof/Laws/Frames.lean ====
section
/-! SUPPORT. What the shared operations leave alone: `Frame flow gas book s t` says which blocks are the same in `t` as
in `s`, whatever else happens on the way. One lemma for each shared operation. -/

namespace Sys2Proof.Machine

set_option Elab.async false

/-- Profiles, phase and reset input are the same; so are caverns, units, planner and trips where `flow` is false,
measurement and trains where `gas` is, book and settlement where `book` is. -/
structure Frame (flow gas book : Prop) (s t : State) : Prop where
  cvc : ¬flow → t.cvc = s.cvc := by intro h; first | rfl | exact absurd trivial h
  cdm : ¬flow → t.cdm = s.cdm := by intro h; first | rfl | exact absurd trivial h
  fpl : ¬flow → t.fpl = s.fpl := by intro h; first | rfl | exact absurd trivial h
  tru : ¬flow → t.tru = s.tru := by intro h; first | rfl | exact absurd trivial h
  mu : ¬gas → t.mu = s.mu := by intro h; first | rfl | exact absurd trivial h
  dtc : ¬gas → t.dtc = s.dtc := by intro h; first | rfl | exact absurd trivial h
  acb : ¬book → t.acb = s.acb := by intro h; first | rfl | exact absurd trivial h
  su : ¬book → t.su = s.su := by intro h; first | rfl | exact absurd trivial h
  pst : t.pst = s.pst := by rfl
  phase : t.phase = s.phase := by rfl
  input : t.resetInput = s.resetInput := by rfl

variable {F G B : Prop}

theorem Frame.refl (s : State) : Frame F G B s s := {}

theorem Frame.trans {s t u : State} (h : Frame F G B s t) (k : Frame F G B t u) : Frame F G B s u where
  cvc := fun x => (k.cvc x).trans (h.cvc x)
  cdm := fun x => (k.cdm x).trans (h.cdm x)
  fpl := fun x => (k.fpl x).trans (h.fpl x)
  tru := fun x => (k.tru x).trans (h.tru x)
  mu := fun x => (k.mu x).trans (h.mu x)
  dtc := fun x => (k.dtc x).trans (h.dtc x)
  acb := fun x => (k.acb x).trans (h.acb x)
  su := fun x => (k.su x).trans (h.su x)
  pst := k.pst.trans h.pst
  phase := k.phase.trans h.phase
  input := k.input.trans h.input

/-- A change of state made in an event. -/
theorem map_frame (ev : Ev) (f : State → State) (h : ∀ s, Frame F G B s (f s)) : Frame F G B ev.s (ev.map f).s := h ev.s

theorem ite_frame {p : Prop} [Decidable p] {s : State} {x y : Ev} (h : Frame F G B s x.s) (k : Frame F G B s y.s) :
    Frame F G B s (if p then x else y).s := by
  split
  · exact h
  · exact k

theorem iteState_frame {p : Prop} [Decidable p] {s x y : State} (h : Frame F G B s x) (k : Frame F G B s y) :
    Frame F G B s (if p then x else y) := by
  split
  · exact h
  · exact k

theorem iteAnswer_frame {p : Prop} [Decidable p] {s : State} {x y : Ev × Answer} (h : Frame F G B s x.1.s)
    (k : Frame F G B s y.1.s) : Frame F G B s (if p then x else y).1.s := by
  split
  · exact h
  · exact k

theorem foldl_frame {α : Type} (f : Ev → α → Ev) (h : ∀ ev x, Frame F G B ev.s (f ev x).s) (l : List α) (ev : Ev) :
    Frame F G B ev.s (l.foldl f ev).s := by
  induction l generalizing ev with
  | nil => exact .refl _
  | cons x l ih => exact (h ev x).trans (ih _)

theorem foldlState_frame {α : Type} (f : State → α → State) (h : ∀ s x, Frame F G B s (f s x)) (l : List α)
    (s : State) : Frame F G B s (l.foldl f s) := by
  induction l generalizing s with
  | nil => exact .refl _
  | cons x l ih => exact (h s x).trans (ih _)

/-! ### One record changed -/

theorem updChan_frame (s : State) (c : Nat) (f : Channel → Channel) : Frame F True B s (s.updChan c f) := {}

theorem updRun_frame (s : State) (r : Nat) (f : Run → Run) : Frame F True B s (s.updRun r f) := {}

theorem updTrain_frame (s : State) (t : Nat) (f : Train → Train) : Frame F True B s (s.updTrain t f) := {}

theorem updCav_frame (s : State) (c : Nat) (f : Cavern → Cavern) : Frame True G B s (s.updCav c f) := {}

theorem updUnit_frame (s : State) (u : Nat) (f : CompUnit → CompUnit) : Frame True G B s (s.updUnit u f) := {}

theorem updDuty_frame (s : State) (d : Duty) (f : DutyRec → DutyRec) : Frame True G B s (s.updDuty d f) := by
  cases d <;> exact {}

theorem updAccount_frame (s : State) (a : Nat) (f : Account → Account) : Frame F G True s (s.updAccount a f) := {}

theorem updWatch_frame (s : State) (w : Nat) (f : Watch → Watch) : Frame F G B s (s.updWatch w f) := {}

theorem updNotice_frame (s : State) (n : Nat) (f : NoticeChannel → NoticeChannel) :
    Frame F G B s (s.updNotice n f) := {}

theorem mapDuty_frame (ev : Ev) (d : Duty) (f : DutyRec → DutyRec) :
    Frame True G B ev.s (ev.map fun s => s.updDuty d f).s := updDuty_frame _ _ _

/-! ### Replies, watches and notices -/

theorem setEntry_frame (s : State) (a : Nat) (st : EntryState) : Frame F G B s (s.setEntry a st) := {}

theorem formReply_frame (s : State) (e : QEntry) (st : Status) (d : Detail) (b : List Fld) :
    Frame F G B s (s.formReply e st d b) := {}

theorem answerAwaits_frame (s : State) (w : Nat) : Frame F G B s (s.answerAwaits w) :=
  iteState_frame (.refl _)
    ((foldlState_frame _ (fun t e => formReply_frame t e .ok {} _) _ s).trans {})

theorem joinNotice_frame (s : State) (n : Nat) (src : NoticeSource) (code : Nat) :
    Frame F G B s (s.joinNotice n src code) := updNotice_frame _ _ _

theorem fireWatch_frame (w : Nat) (d : WatchDef) (ev : Ev) : Frame F G B ev.s (fireWatch w d ev).s := by
  have h1 : Frame F G B ev.s ((ev.s.updWatch w fun r => { r with fired := true }).answerAwaits w) :=
    (updWatch_frame _ _ _).trans (answerAwaits_frame _ _)
  have h2 : Frame F G B ev.s (match d.channel with
      | some n =>
        ((ev.s.updWatch w fun r => { r with fired := true }).answerAwaits w).joinNotice n (.watch w) d.hostCode
      | none => (ev.s.updWatch w fun r => { r with fired := true }).answerAwaits w) := by
    split
    · exact h1.trans (joinNotice_frame _ _ _ _)
    · exact h1
  unfold fireWatch
  simp only
  split
  · simp only [Ev.map]
    split <;> exact h2.trans (updWatch_frame _ _ _)
  · split <;> exact h2

theorem evaluateWatch_frame (on : WatchSource → Bool) (v : Int) (ev : Ev) (w : Nat) :
    Frame F G B ev.s (evaluateWatch on v ev w).s := by
  unfold evaluateWatch
  simp only
  split
  · split
    · split
      · exact (updWatch_frame ev.s w _).trans (fireWatch_frame w _ { ev with s := ev.s.updWatch w _ })
      · exact updWatch_frame _ _ _
    · exact .refl _
  · exact .refl _

theorem newWatchValue_frame (on : WatchSource → Bool) (v : Int) (ev : Ev) :
    Frame F G B ev.s (newWatchValue on v ev).s := foldl_frame _ (evaluateWatch_frame on v) _ ev

theorem offerEvent_frame (name : EventName) (index : Option Nat) (ev : Ev) (w : Nat) :
    Frame F G B ev.s (offerEvent name index ev w).s := by
  unfold offerEvent
  simp only
  split
  · split
    · exact fireWatch_frame _ _ _
    · exact .refl _
  · exact .refl _

theorem raise_frame (name : EventName) (index : Option Nat) (ev : Ev) {data : EventData} :
    Frame F G B ev.s (raise name index ev data).s :=
  foldl_frame _ (offerEvent_frame name index) _ { ev with raised := ev.raised ++ [⟨name, index, data⟩] }

/-! ### Caverns -/

theorem changeCavern_frame (c : Nat) (f : Cavern → Cavern) (ev : Ev) :
    Frame True G B ev.s (changeCavern c f ev).s := updCav_frame _ _ _

theorem tripCavern_frame (station : Bool) (c : Nat) (ev : Ev) : Frame True G B ev.s (tripCavern station c ev).s := by
  unfold tripCavern
  split
  · exact changeCavern_frame _ _ _
  · exact .refl _

theorem tripAllCaverns_frame (ev : Ev) : Frame True G B ev.s (tripAllCaverns ev).s :=
  foldl_frame _ (fun ev c => tripCavern_frame true c ev) _ ev

theorem cavernNewValue_frame (c : Nat) (v : Int) (ev : Ev) : Frame True G B ev.s (cavernNewValue c v ev).s := by
  unfold cavernNewValue
  split
  · simp only [reportEnvelope_s]
    exact changeCavern_frame _ _ _
  · exact .refl _

theorem cavernQuality_frame (c : Nat) (q : Quality) (v : Int) (ev : Ev) :
    Frame True G B ev.s (cavernQuality c q v ev).s := by
  unfold cavernQuality
  split
  · exact changeCavern_frame _ _ _
  · exact .refl _

theorem giveOrder_frame (o : Order) (c : Nat) (ev : Ev) : Frame True G B ev.s (giveOrder o c ev).s := by
  unfold giveOrder
  split
  · split
    · split <;> exact changeCavern_frame _ _ _
    · exact .refl _
  · exact .refl _

theorem distribute_frame (sp : Int) (w : Walk) (ev : Ev) : Frame True G B ev.s (distribute sp w ev).s :=
  foldl_frame _ (fun e c => giveOrder_frame _ c e) _ ev

theorem travelExpired_frame (c : Nat) (ev : Ev) : Frame True G B ev.s (travelExpired c ev).s := by
  have h : Frame True G B ev.s (changeCavern c Cavern.toFault ev).s := changeCavern_frame _ _ _
  have h2 : Frame True G B ev.s (secondFailure c (changeCavern c Cavern.toFault ev)).s :=
    h.trans (Frame.trans (t := { (changeCavern c Cavern.toFault ev).s with tru := _ }) {} (joinNotice_frame _ _ _ _))
  unfold travelExpired
  dsimp only
  split
  · exact ite_frame h2 h
  · exact h
  any_goals exact ite_frame (.refl _) h
  all_goals exact .refl _

/-! ### Compressors -/

theorem attemptStart_frame (s : State) (d : Duty) (u : Nat) : Frame True G B s (s.attemptStart d u) :=
  (updUnit_frame s u _).trans (updDuty_frame _ _ _)

theorem startDecision_frame (d : Duty) (ev : Ev) : Frame True G B ev.s (startDecision d ev).s := by
  unfold startDecision
  split
  · rename_i u _
    have h : Frame True G B ev.s ((ev.s.attemptStart d u).updDuty d fun q => { q with startPending := none }) :=
      (attemptStart_frame _ _ _).trans (updDuty_frame _ _ _)
    exact ite_frame (h.trans (mapDuty_frame { ev with s := _ } d _)) h
  · exact (updDuty_frame ev.s d _).trans (raise_frame _ _ { ev with s := ev.s.updDuty d _ })

theorem reviewStart_frame (d : Duty) (ev : Ev) : Frame True G B ev.s (reviewStart d ev).s := by
  unfold reviewStart
  refine ite_frame (mapDuty_frame ev d _) (ite_frame ?_ (mapDuty_frame ev d _))
  exact (updDuty_frame ev.s d _).trans (startDecision_frame _ { ev with s := ev.s.updDuty d _ })

theorem beginStop_frame (s : State) (u : Nat) : Frame True G B s (s.beginStop u) := updUnit_frame _ _ _

theorem leaveOrder_frame (s : State) (u : Nat) : Frame True G B s (s.leaveOrder u) := {}

theorem leaveDuty_frame (s : State) (u : Nat) : Frame True G B s (s.leaveDuty u) :=
  (updDuty_frame _ _ _).trans (updDuty_frame _ _ _)

theorem stopUnit_frame (s : State) (d : Duty) (u : Nat) : Frame True G B s (s.stopUnit d u) := by
  unfold State.stopUnit
  exact ((beginStop_frame s u).trans (leaveOrder_frame _ u)).trans (updDuty_frame _ _ _)

theorem reviewStop_frame (d : Duty) (ev : Ev) : Frame True G B ev.s (reviewStop d ev).s := by
  unfold reviewStop
  split
  · exact mapDuty_frame ev d _
  · exact ite_frame (ite_frame (stopUnit_frame _ _ _) (mapDuty_frame ev d _)) (mapDuty_frame ev d _)

theorem review_frame (d : Duty) (ev : Ev) : Frame True G B ev.s (review d ev).s :=
  (reviewStart_frame d ev).trans (reviewStop_frame d _)

theorem handDemands_frame (inj boost : Nat) (ev : Ev) : Frame True G B ev.s (handDemands inj boost ev).s :=
  (((updDuty_frame ev.s .inject _).trans (updDuty_frame _ .boost _)).trans
    (review_frame .inject { ev with s := (ev.s.updDuty .inject _).updDuty .boost _ })).trans (review_frame .boost _)

theorem lockOut_frame (s : State) (u : Nat) : Frame True G B s (s.lockOut u) :=
  (updUnit_frame s u _).trans (leaveOrder_frame _ _)

theorem uncommanded_frame (u : Nat) (ev : Ev) : Frame True G B ev.s (uncommanded u ev).s :=
  (lockOut_frame ev.s u).trans (raise_frame _ _ { ev with s := ev.s.lockOut u })

theorem runLost_frame (u : Nat) (ev : Ev) : Frame True G B ev.s (runLost u ev).s := by
  unfold runLost
  refine Frame.trans ?_ (raise_frame _ _ _)
  exact (lockOut_frame ev.s u).trans {}

theorem feedbackChanged_frame (u : Nat) (ev : Ev) : Frame True G B ev.s (feedbackChanged u ev).s := by
  unfold feedbackChanged
  simp only
  split
  · exact updUnit_frame _ _ _
  · exact updUnit_frame _ _ _
  · exact runLost_frame _ _
  · exact uncommanded_frame _ _
  · exact uncommanded_frame _ _
  · exact uncommanded_frame _ _
  · exact .refl _

theorem startFailed_frame (u : Nat) (ev : Ev) : Frame True G B ev.s (startFailed u ev).s := by
  unfold startFailed
  have h : Frame True G B ev.s ((ev.s.updUnit u fun r =>
      { r with
        command := .stop, start := none, failures := (ev.s.unit u).failures + 1
        state := if (ev.s.unit u).failures + 1 < 2 then .failed else .lockedOut
        rest := if (ev.s.unit u).failures + 1 < 2 then ev.s.restUntil u else none }).leaveOrder u) :=
    (updUnit_frame ev.s u _).trans (leaveOrder_frame _ _)
  have h2 := h.trans
    (raise_frame .startFailed (some u) (data := .failures ((ev.s.unit u).failures + 1)) { ev with s := _ })
  exact ite_frame h2 (h2.trans (raise_frame _ _ _))

theorem stopExpired_frame (u : Nat) (ev : Ev) : Frame True G B ev.s (stopExpired u ev).s :=
  ite_frame (updUnit_frame ev.s u _) (updUnit_frame ev.s u _)

theorem tripUnit_frame (ev : Ev) (u : Nat) : Frame True G B ev.s (tripUnit ev u).s :=
  ite_frame ((beginStop_frame _ _).trans (leaveOrder_frame _ _)) (.refl _)

theorem tripUnits_frame (ev : Ev) : Frame True G B ev.s (tripUnits ev).s :=
  (foldl_frame _ tripUnit_frame _ ev).trans (map_frame _ _ fun _ => {})

/-! ### The planner, trips and the end of an event -/

theorem activeStep_frame (cause : StepCause) (ev : Ev) : Frame True G B ev.s (activeStep cause ev).s := by
  have h : ∀ a b (f : Ev → Int) (w : Ev → Walk), Frame True G B ev.s
      (distribute (f (handDemands a b ev)) (w (handDemands a b ev)) (handDemands a b ev)).s :=
    fun a b f w => (handDemands_frame a b ev).trans (distribute_frame _ _ _)
  unfold activeStep
  simp only
  exact (h _ _ (fun e => clamp (-(ev.s.wdLimit : Int)) e.s.injLimit ((ev.s.figures.map Figures.required).getD 0))
    (fun e => e.s.stepWalk (clamp (-(ev.s.wdLimit : Int)) e.s.injLimit
      ((ev.s.figures.map Figures.required).getD 0)))).trans {}

theorem heldStep_frame (cause : StepCause) (ev : Ev) : Frame True G B ev.s (heldStep cause ev).s :=
  ((handDemands_frame 0 0 ev).trans (distribute_frame 0 _ _)).trans {}

theorem fplStep_frame (cause : StepCause) (ev : Ev) : Frame True G B ev.s (fplStep cause ev).s :=
  ite_frame (activeStep_frame _ _) (heldStep_frame _ _)

theorem intervalStep_frame (ev : Ev) : Frame True G B ev.s (intervalStep ev).s :=
  Frame.trans (t := (ev.map fun s => { s with fpl := _ }).s) {} (fplStep_frame _ _)

theorem tripStation_frame (ev : Ev) : Frame True G B ev.s (tripStation ev).s := by
  unfold tripStation
  dsimp only
  generalize ha : (ev.map fun s => { s with tru := { s.tru with tripped := true } }) = a
  generalize hb : tripUnits (tripAllCaverns a) = b
  have h0 : Frame True G B ev.s a.s := by rw [← ha]; exact {}
  have h1 : Frame True G B a.s b.s := hb ▸ (tripAllCaverns_frame a).trans (tripUnits_frame _)
  have h2 : Frame True G B b.s (heldStep .trip (b.map fun s => { s with fpl := { s.fpl with active := false } })).s :=
    Frame.trans (t := (b.map fun s => { s with fpl := { s.fpl with active := false } }).s) {} (heldStep_frame _ _)
  exact (h0.trans h1).trans h2

theorem launchTrip_frame (ev : Ev) (l : Launch) : Frame True G B ev.s (launchTrip ev l).s := by
  unfold launchTrip
  dsimp only
  have h0 : Frame True G B ev.s (ev.map fun s => s.record l).s := {}
  split
  · exact (h0.trans (tripStation_frame _)).trans (joinNotice_frame _ _ _ _)
  · exact (h0.trans (tripCavern_frame _ _ _)).trans (joinNotice_frame _ _ _ _)

theorem finishRounds_frame (n : Nat) (ev : Ev) : Frame True G B ev.s (finishRounds n ev) := by
  induction n generalizing ev with
  | zero => exact .refl _
  | succ n ih =>
    unfold finishRounds
    split
    · exact iteState_frame ((fplStep_frame _ _).trans (ih _)) (.refl _)
    · exact (foldl_frame launchTrip launchTrip_frame _ { ev with launches := [] }).trans (ih _)

/-- The end of an event leaves measurement, trains, book and settlement alone. -/
theorem finish_frame (ev : Ev) : Frame True G B ev.s ev.finish := finishRounds_frame 64 ev

theorem headerCheck_frame (v : Int) (ev : Ev) : Frame True G B ev.s (headerCheck v ev).s := by
  unfold headerCheck
  split
  · exact .refl _
  · exact ite_frame {} {}

/-! ### Trains -/

theorem changeTrain_frame (t : Nat) (f : Train → Train) (ev : Ev) : Frame F True B ev.s (changeTrain t f ev).s := by
  have h1 : ∀ b, Frame F True B ev.s (Ev.hand (ev.map fun s => s.updTrain t f) b).s := fun _ => updTrain_frame _ _ _
  have h2 : ∀ (p : Prop) (_ : Decidable p) b on v, Frame F True B ev.s
      (if p then Ev.hand (ev.map fun s => s.updTrain t f) b
        else newWatchValue on v (Ev.hand (ev.map fun s => s.updTrain t f) b)).s :=
    fun _ _ b _ _ => ite_frame (h1 b) ((h1 b).trans (newWatchValue_frame _ _ _))
  unfold changeTrain
  dsimp only
  split
  · exact ite_frame ((h2 _ _ _ _ _).trans (raise_frame _ _ _)) (h2 _ _ _ _ _)
  · exact h2 _ _ _ _ _

theorem beginSwitch_frame (t : Nat) (d : TrainDef) (w : TowerId) (ev : Ev) :
    Frame F True B ev.s (beginSwitch t d w ev).s :=
  ite_frame ((changeTrain_frame t _ ev).trans (changeTrain_frame t _ _)) (changeTrain_frame t _ ev)

theorem checkSwitch_frame (t : Nat) (d : TrainDef) (ev : Ev) : Frame F True B ev.s (checkSwitch t d ev).s := by
  unfold checkSwitch
  simp only
  split
  · split
    · exact beginSwitch_frame _ _ _ _
    · exact .refl _
  · exact .refl _

theorem handOff_frame (t e : Nat) (ev : Ev) : Frame F True B ev.s (handOff t e ev).s := by
  unfold handOff
  split
  · exact .refl _
  · split
    · exact raise_frame _ _ _
    · exact (changeTrain_frame t _ ev).trans (checkSwitch_frame _ _ _)

theorem markOffSpec_frame (t : Nat) (ev : Ev) : Frame F True B ev.s (markOffSpec t ev).s :=
  (changeTrain_frame t _ ev).trans (raise_frame _ _ _)

theorem trainDewValue_frame (ch : Nat) (v : Int) (ev : Ev) (t : Nat) :
    Frame F True B ev.s (trainDewValue ch v ev t).s := by
  unfold trainDewValue
  split
  · exact ite_frame (changeTrain_frame _ _ _) (.refl _)
  · exact .refl _

theorem trainDewLost_frame (ch : Nat) (ev : Ev) (t : Nat) : Frame F True B ev.s (trainDewLost ch ev t).s := by
  unfold trainDewLost
  split
  · exact ite_frame (markOffSpec_frame _ _) (.refl _)
  · exact .refl _

theorem switchFullBed_frame (t : Nat) (d : TrainDef) (ev : Ev) : Frame F True B ev.s (switchFullBed t d ev).s := by
  unfold switchFullBed
  split
  · exact ite_frame (beginSwitch_frame _ _ _ _) (.refl _)
  · exact .refl _

theorem intoService_frame (t : Nat) (d : TrainDef) (ev : Ev) : Frame F True B ev.s (intoService t d ev).s :=
  (((changeTrain_frame t _ ev).trans (switchFullBed_frame _ _ _)).trans
    (ite_frame (markOffSpec_frame _ _) (changeTrain_frame _ _ _))).trans (checkSwitch_frame _ _ _)

theorem towerFeedback_frame (t : Nat) (w : TowerId) (ev : Ev) : Frame F True B ev.s (towerFeedback t w ev).s := by
  unfold towerFeedback
  simp only
  split
  · exact ite_frame (changeTrain_frame _ _ _) (.refl _)
  · exact .refl _

theorem stepExpired_frame (t : Nat) (w : TowerId) (ev : Ev) : Frame F True B ev.s (stepExpired t w ev).s := by
  unfold stepExpired
  split
  · exact ite_frame ((changeTrain_frame t _ ev).trans (checkSwitch_frame _ _ _)) (changeTrain_frame t _ ev)
  · exact .refl _

theorem offSpecExpired_frame (t : Nat) (ev : Ev) : Frame F True B ev.s (offSpecExpired t ev).s := by
  unfold offSpecExpired
  split
  · simp only
    split
    · exact (markOffSpec_frame _ _).trans (beginSwitch_frame _ _ _ _)
    · exact markOffSpec_frame _ _
  · exact .refl _

/-! ### Measurement -/

theorem setHeader_frame (ch : Nat) (v : Int) (q : Quality) (ev : Ev) : Frame True G B ev.s (setHeader ch v q ev).s :=
  ite_frame {} (.refl _)

theorem newValue_frame (ch : Nat) (v : Int) (ev : Ev) : Frame True True B ev.s (newValue ch v ev).s := by
  unfold newValue
  dsimp only
  refine Frame.trans ?_ (newWatchValue_frame _ _ _)
  have h := (foldl_frame (F := True) (G := True) (B := B) (fun e c => cavernNewValue c v e)
    (fun e c => cavernNewValue_frame c v e) (cavernsOn ch ev.s) ev).trans
      (foldl_frame _ (trainDewValue_frame ch v) (List.range 4) _)
  exact ite_frame ((h.trans (setHeader_frame ch v _ _)).trans (headerCheck_frame _ _))
    (h.trans (setHeader_frame ch v _ _))

theorem qualityChange_frame (ch : Nat) (ev : Ev) : Frame True True B ev.s (qualityChange ch ev).s := by
  unfold qualityChange
  dsimp only
  refine Frame.trans ?_ (setHeader_frame _ _ _ _)
  have h := foldl_frame (F := True) (G := True) (B := B)
    (fun e c => cavernQuality c (ev.s.chan ch).quality (ev.s.chan ch).value e)
    (fun e c => cavernQuality_frame c _ _ e) (cavernsOn ch ev.s) ev
  exact ite_frame (h.trans (foldl_frame _ (trainDewLost_frame ch) _ _)) h

theorem mapChan_frame (ev : Ev) (c : Nat) (f : Channel → Channel) :
    Frame F True B ev.s (ev.map fun s => s.updChan c f).s := updChan_frame _ _ _

theorem reading_frame (ch current : Nat) (d : ChanDef) (ev : Ev) : Frame True True B ev.s (reading ch current d ev).s := by
  have hin : ∀ v (e : Ev), Frame True True B e.s (inRangeReading ch v e).s := fun v e =>
    ite_frame ((mapChan_frame _ _ _).trans (newValue_frame _ _ _)) (ite_frame (mapChan_frame _ _ _)
      (((mapChan_frame _ _ _).trans (qualityChange_frame _ _)).trans (newValue_frame _ _ _)))
  have hout : ∀ e : Ev, Frame True True B e.s (outOfRangeReading ch d e).s := fun e =>
    ite_frame ((mapChan_frame _ _ _).trans (qualityChange_frame _ _)) (mapChan_frame _ _ _)
  unfold reading
  refine ite_frame (mapChan_frame _ _ _) ?_
  dsimp only
  split
  · exact (mapChan_frame ev _ _).trans (hin _ _)
  · exact (mapChan_frame ev _ _).trans (hout _)

theorem holdExpired_frame (ch : Nat) (ev : Ev) : Frame True True B ev.s (holdExpired ch ev).s :=
  ((mapChan_frame _ _ _).trans (qualityChange_frame _ _)).trans (raise_frame _ _ _)

theorem passBegins_frame (ev : Ev) (ch : Nat) : Frame True True B ev.s (passBegins ev ch).s :=
  ite_frame ((mapChan_frame _ _ _).trans (qualityChange_frame _ _)) (.refl _)

theorem passEnds_frame (ev : Ev) (ch : Nat) : Frame True True B ev.s (passEnds ev ch).s :=
  ite_frame ((mapChan_frame _ _ _).trans (qualityChange_frame _ _)) (.refl _)

theorem mapRun_frame (ev : Ev) (r : Nat) (f : Run → Run) : Frame F True B ev.s (ev.map fun s => s.updRun r f).s :=
  updRun_frame _ _ _

theorem addEnergy_frame (r e : Nat) (ev : Ev) : Frame F True B ev.s (addEnergy r e ev).s := by
  unfold addEnergy
  dsimp only
  split
  · exact (mapRun_frame _ _ _).trans (handOff_frame _ _ _)
  · exact mapRun_frame _ _ _

theorem setRate_frame (r v : Nat) (ev : Ev) : Frame F True B ev.s (setRate r v ev).s :=
  ite_frame (.refl _) ((mapRun_frame _ _ _).trans (newWatchValue_frame _ _ _))

theorem timePulse_frame (r e : Nat) (d : RunDef) (ev : Ev) : Frame F True B ev.s (timePulse r e d ev).s := by
  unfold timePulse
  dsimp only
  split
  · exact (setRate_frame _ _ _).trans (updRun_frame _ _ _)
  · exact updRun_frame _ _ _

theorem pulse_frame (r : Nat) (d : RunDef) (ev : Ev) : Frame F True B ev.s (pulse r d ev).s :=
  ite_frame ((mapRun_frame _ _ _).trans (timePulse_frame _ _ _ _))
    ((addEnergy_frame _ _ _).trans (timePulse_frame _ _ _ _))

/-! ### Book and settlement -/

theorem raiseCurtailments_frame (before after : List Account) (ev : Ev) :
    Frame F G B ev.s (raiseCurtailments before after ev).s := by
  refine foldl_frame _ (fun e a => ?_) _ ev
  split
  · exact raise_frame _ _ _
  · exact .refl _

theorem reconfirm_frame (h : Nat) (ev : Ev) : Frame F G True ev.s (reconfirm h ev).s := by
  unfold reconfirm
  simp only
  exact Frame.trans (t := { ev.s with acb := { ev.s.acb with accounts := _ } }) {}
    (raiseCurtailments_frame _ _ (ev.map fun s => { s with acb := { s.acb with accounts := _ } }))

theorem setInventory_frame (a : Nat) (v : Int) (ev : Ev) : Frame F G True ev.s (setInventory a v ev).s :=
  ite_frame (.refl _)
    ((updAccount_frame ev.s a _).trans (newWatchValue_frame _ _ { ev with s := ev.s.updAccount a _ }))

theorem setBalance_frame (b : Int) (ev : Ev) : Frame F G True ev.s (setBalance b ev).s :=
  ite_frame (.refl _) (Frame.trans (t := (ev.map fun s => { s with su := _ }).s) {} (newWatchValue_frame _ _ _))

theorem raiseObaLimit_frame (ev : Ev) : Frame F G True ev.s (raiseObaLimit ev).s :=
  ite_frame (raise_frame _ _ _) (.refl _)

/-! ### A start at the Settlement Unit (R136, R139) -/

theorem reconfirm_su (h : Nat) (ev : Ev) : (reconfirm h ev).s.su = ev.s.su :=
  (raiseCurtailments_frame (F := False) (G := False) (B := False) _ _ (ev.map _)).su id

theorem newStartHour_su (s : State) : s.newStartHour.su = s.su := by
  unfold State.newStartHour
  dsimp only
  split <;> rfl

theorem ite_su {p : Prop} [Decidable p] {v : Su} {x y : Ev} (h : x.s.su = v) (k : y.s.su = v) :
    (if p then x else y).s.su = v := by
  split
  · exact h
  · exact k

/-- What a SITE group brings to the book is no concern of the Settlement Unit (R101). -/
theorem siteToBook_su (old : Option Site) (load : Bool) (ev : Ev) : (siteToBook old load ev).s.su = ev.s.su := by
  have shifted (b : Bool) : (if b then ev.s.newStartHour else ev.s).refreshCaps.su = ev.s.su := by
    cases b
    · rfl
    · exact newStartHour_su ev.s
  exact ite_su ((reconfirm_su _ _).trans (shifted _)) (shifted _)

theorem discardMissed_su (ev : Ev) (b : Clk) :
    (discardMissed ev b).s.su = { ev.s.su with openStart := some b, missedTaken := ev.s.su.missedTaken + 1 } := by
  unfold discardMissed discardBoundary unloadedBoundary
  refine (reconfirm_su _ _).trans ?_
  simp only [Ev.map, State.advanceBook]
  split <;> rfl

theorem skipBook_su (ev : Ev) : (skipBook ev).s.su = ev.s.su :=
  (raiseCurtailments_frame (F := False) (G := False) (B := False) _ _ { ev with s := _ }).su id

/-- Each boundary that an UNLOADED book takes singly is counted. -/
theorem discardMissed_counts (l : List Clk) (ev : Ev) :
    (l.foldl discardMissed ev).s.su.missedTaken = ev.s.su.missedTaken + l.length := by
  induction l generalizing ev with
  | nil => rfl
  | cons b l ih =>
    rw [List.foldl_cons, ih, discardMissed_su, List.length_cons, Nat.add_comm l.length, ← Nat.add_assoc]

@[simp] theorem boundariesAfter_length (n : Nat) : ∀ c : Clk, (boundariesAfter n c).length = n := by
  induction n with
  | zero => exact fun _ => rfl
  | succ n ih => exact fun c => congrArg Nat.succ (ih _)

/-- An UNLOADED book takes at most 48 missed boundaries of one start singly, whichever part of the start finds them
(R139). -/
theorem missedUnloaded_counts (start : Clk) (ev : Ev) :
    (missedUnloaded start ev).s.su.missedTaken =
      ev.s.su.missedTaken + min (missedCount start ev.s.clock) (Config.missedSingly - ev.s.su.missedTaken) := by
  have counted := discardMissed_counts
    (boundariesAfter (min (missedCount start ev.s.clock) (Config.missedSingly - ev.s.su.missedTaken)) start) ev
  rw [boundariesAfter_length] at counted
  unfold missedUnloaded
  dsimp only
  split
  · exact counted
  · rw [skipBook_su]
    exact counted

/-! ### Answers, requests and events -/

theorem judged_frame {s : State} {l : List (Nat × Bool)} {go : Ev × Answer} (h : Frame F G B s go.1.s) :
    Frame F G B s (judged s l go).1.s := by
  unfold judged
  split
  · exact .refl _
  · exact h

theorem refuseIf_frame {s : State} {b : Bool} {a : Answer} {go : Ev × Answer} (h : Frame F G B s go.1.s) :
    Frame F G B s (refuseIf s b a go).1.s := by
  cases b
  · exact h
  · exact .refl _

theorem onCavern_frame {s : State} {c : Nat} {l : List (Nat × Bool)} {go : CavernDef → Ev × Answer}
    (h : ∀ d, Frame F G B s (go d).1.s) : Frame F G B s (onCavern s c l go).1.s := by
  refine judged_frame ?_
  split
  · exact .refl _
  · exact h _

theorem onUnit_frame {s : State} {u : Nat} {l : List (Nat × Bool)} {go : Ev × Answer} (h : Frame F G B s go.1.s) :
    Frame F G B s (onUnit s u l go).1.s := judged_frame (refuseIf_frame h)

theorem onTrain_frame {s : State} {t : Nat} {l : List (Nat × Bool)} {go : TrainDef → Ev × Answer}
    (h : ∀ d, Frame F G B s (go d).1.s) : Frame F G B s (onTrain s t l go).1.s := by
  refine judged_frame ?_
  split
  · exact .refl _
  · exact h _

theorem onAccount_frame {s : State} {a : Nat} {l : List (Nat × Bool)} {go : Ev × Answer} (h : Frame F G B s go.1.s) :
    Frame F G B s (onAccount s a l go).1.s := judged_frame h

theorem link_frame (s : State) (q : Slu) : Frame F G B s { s with slu := q } := {}

theorem refuseFrame_frame (s : State) (k t : Nat) (st : Status) (d : Detail) :
    Frame F G B s (s.refuseFrame k t st d) := iteState_frame (.refl _) {}

theorem enqueue_frame (s : State) (c : Instr) (k : Nat) : Frame F G B s (s.enqueue c k) :=
  iteState_frame (refuseFrame_frame _ _ _ _ _) {}

/-- A request served leaves alone what its event, to its end, leaves alone. -/
theorem serve_frame (c : Instr) {take : State → Ev × Answer} (s : State)
    (h : ∀ t, Frame F G B t (take t).1.finish) : Frame F G B s (serve c take s) := by
  have h1 : ∀ k, Frame F G B s (if (s.findEntry c).isSome then s
      else if lengthAllowed k c.body.length then s.enqueue c k
      else s.refuseFrame (k + 0x80) c.tag .badLength {}) := fun k =>
    iteState_frame (.refl _) (iteState_frame (enqueue_frame _ _ _) (refuseFrame_frame _ _ _ _ _))
  have h2 : ∀ (e : QEntry) (t : State), Frame F G B t (takeEntry take e t) := fun e t => by
    have k : Frame F G B t (t.noteTaking (take t).1.finish e.arrival) := (h t).trans {}
    unfold takeEntry
    dsimp only
    split
    · exact k.trans (formReply_frame _ _ _ _ _)
    · exact k.trans (formReply_frame _ _ _ _ _)
    · exact k.trans (setEntry_frame _ _ _)
  unfold serve
  refine iteState_frame (.refl _) ?_
  dsimp only
  split
  · exact (h1 _).trans (iteState_frame (.refl _) (iteState_frame (setEntry_frame _ _ _) (h2 _ _)))
  · exact h1 _

/-- A request whose event may be followed by the planner and by trips. -/
theorem serveFlow_frame (c : Instr) {take : State → Ev × Answer} (s : State)
    (h : ∀ t, Frame True G B t (take t).1.s) : Frame True G B s (serve c take s) :=
  serve_frame c s fun t => (h t).trans (finish_frame _)

theorem occurs_frame {enabled : State → Bool} {f : Ev → Ev} (s : State) (h : Frame True G B s.ev.s (f s.ev).s) :
    Frame True G B s (occurs enabled f s) := iteState_frame (h.trans (finish_frame _)) (.refl _)

theorem inputChange_frame {changed : Bool} {record : State → State} {f : Ev → Ev} (s : State)
    (h : Frame True G B s (record s)) (k : ∀ ev : Ev, Frame True G B ev.s (f ev).s) :
    Frame True G B s (inputChange changed record f s) :=
  iteState_frame (.refl _) (iteState_frame (h.trans ((k (record s).ev).trans (finish_frame _))) h)

end Sys2Proof.Machine
end

