-- ==== Sys2Proof/Laws/Finish.lean ====
section
/-! SUPPORT. The end of an event: what a launch and a re-step hand on in their turn, the order of the launches, and that
the rounds of `finishRounds` are more than an event can need, so that `Ev.finish` obeys the equations one expects. -/

namespace Sys2Proof.Machine

set_option Elab.async false

/-! ### The order of launches (R156) -/

theorem Launch.before_total (a b : Launch) : a.before b = true ∨ b.before a = true := by
  simp only [Launch.before, Bool.or_eq_true, Bool.and_eq_true, decide_eq_true_eq, beq_iff_eq]
  omega

theorem Launch.before_trans {a b c : Launch} (h : a.before b = true) (k : b.before c = true) : a.before c = true := by
  simp only [Launch.before, Bool.or_eq_true, Bool.and_eq_true, decide_eq_true_eq, beq_iff_eq] at *
  omega

theorem insertLaunch_perm (l : Launch) (ls : List Launch) : (insertLaunch l ls).Perm (l :: ls) := by
  induction ls with
  | nil => exact .refl _
  | cons x rest ih =>
    unfold insertLaunch
    split
    · exact .refl _
    · exact (ih.cons x).trans (.swap l x rest)

/-- The launches taken are those handed on. -/
theorem sortLaunches_perm (ls : List Launch) : (sortLaunches ls).Perm ls := by
  induction ls with
  | nil => exact .refl _
  | cons x rest ih => exact (insertLaunch_perm x _).trans (ih.cons x)

theorem insertLaunch_sorted (l : Launch) (ls : List Launch) (h : ls.Pairwise fun a b => a.before b = true) :
    (insertLaunch l ls).Pairwise fun a b => a.before b = true := by
  induction ls with
  | nil => exact List.pairwise_singleton _ _
  | cons x rest ih =>
    unfold insertLaunch
    split
    case isTrue hx =>
      exact List.pairwise_cons.2 ⟨fun y hy => by
        rcases List.mem_cons.1 hy with rfl | hy
        · exact hx
        · exact Launch.before_trans hx ((List.pairwise_cons.1 h).1 y hy), h⟩
    case isFalse hx =>
      refine List.pairwise_cons.2 ⟨fun y hy => ?_, ih (List.pairwise_cons.1 h).2⟩
      rcases List.mem_cons.1 ((insertLaunch_perm l rest).mem_iff.1 hy) with rfl | hy
      · exact (Launch.before_total x y).resolve_right hx
      · exact (List.pairwise_cons.1 h).1 y hy

/-- The launches are taken in ascending code, those of one code in ascending watch index. -/
theorem sortLaunches_sorted (ls : List Launch) : (sortLaunches ls).Pairwise fun a b => a.before b = true := by
  induction ls with
  | nil => exact .nil
  | cons x rest ih => exact insertLaunch_sorted x _ ih

/-! ### What a planner step hands on -/

/-- What a part of a planner step may do to the trips: the station trip state is the same; while it is TRIPPED no launch
is handed on and no watch, channel or link record changes; a launch that is handed on is of station scope. -/
structure Calm (u v : Ev) : Prop where
  tripped : v.s.tru.tripped = u.s.tru.tripped := by
    first | rfl | simp [Ev.map, Ev.hand, State.attemptStart, State.stopUnit]
  quiet : u.s.tru.tripped = true → v.launches = u.launches := by intro; rfl
  told : u.s.tru.tripped = true → v.s.wnu = u.s.wnu ∧ v.s.slu = u.s.slu := by
    intro; first | exact ⟨rfl, rfl⟩ | simp [Ev.map, Ev.hand, State.attemptStart, State.stopUnit]
  station : ∀ l ∈ v.launches, l ∈ u.launches ∨ l.scope = none := by intro l h; exact .inl h

theorem Calm.trans {u v w : Ev} (h : Calm u v) (k : Calm v w) : Calm u w where
  tripped := k.tripped.trans h.tripped
  quiet := fun t => (k.quiet (h.tripped.trans t)).trans (h.quiet t)
  told := fun t =>
    have x := h.told t
    have y := k.told (h.tripped.trans t)
    ⟨y.1.trans x.1, y.2.trans x.2⟩
  station := fun l m => (k.station l m).elim (h.station l) .inr

theorem ite_calm {p : Prop} [Decidable p] {u v w : Ev} (h : Calm u v) (k : Calm u w) : Calm u (if p then v else w) := by
  split
  · exact h
  · exact k

theorem foldl_calm {α : Type} (f : Ev → α → Ev) (h : ∀ ev x, Calm ev (f ev x)) (l : List α) (ev : Ev) :
    Calm ev (l.foldl f ev) := by
  induction l generalizing ev with
  | nil => exact {}
  | cons x l ih => exact (h ev x).trans (ih _)

theorem giveOrder_calm (o : Order) (c : Nat) (ev : Ev) : Calm ev (giveOrder o c ev) := by
  unfold giveOrder
  split
  · refine ite_calm ?_ {}
    split <;> exact {}
  · exact {}

theorem distribute_calm (sp : Int) (w : Walk) (ev : Ev) : Calm ev (distribute sp w ev) :=
  foldl_calm _ (fun _ _ => giveOrder_calm _ _ _) _ ev

/-- A watch on an event hands on no launch but one of station scope (R141, R145). -/
theorem fireWatch_station (w : Nat) (d : WatchDef) (ev : Ev) (name : EventName) (f : Option Nat)
    (h : d.source = .event name f) : ∀ l ∈ (fireWatch w d ev).launches, l ∈ ev.launches ∨ l.scope = none := by
  intro l m
  have key : (fireWatch w d ev).launches = ev.launches ∨
      (fireWatch w d ev).launches = ev.launches ++ [{ code := 0x070, watch := some (w, d.hostCode) }] := by
    unfold fireWatch
    rw [h]
    dsimp only
    cases d.action <;> split <;> first | exact .inl rfl | exact .inr rfl
  rcases key with k | k <;> rw [k] at m
  · exact .inl m
  · rcases List.mem_append.1 m with m | m
    · exact .inl m
    · exact .inr (by rw [List.mem_singleton.1 m])

theorem offerEvent_station (name : EventName) (index : Option Nat) (ev : Ev) (w : Nat) :
    ∀ l ∈ (offerEvent name index ev w).launches, l ∈ ev.launches ∨ l.scope = none := by
  unfold offerEvent
  dsimp only
  split
  · rename_i d _ _
    split
    · rename_i hd
      cases hs : d.source with
      | event n f => exact fireWatch_station w d ev n f hs
      | _ => simp [hs, WatchSource.hears] at hd
    · exact fun _ m => .inl m
  · exact fun _ m => .inl m

/-- An event that is raised hands on no launch but those of station scope. -/
theorem raise_station (name : EventName) (index : Option Nat) (ev : Ev) (data : EventData) :
    ∀ l ∈ (raise name index ev data).launches, l ∈ ev.launches ∨ l.scope = none := by
  unfold raise
  generalize he : ({ ev with raised := ev.raised ++ [⟨name, index, data⟩] } : Ev) = e
  have h0 : e.launches = ev.launches := by rw [← he]
  rw [← h0]
  clear h0 he
  generalize List.range 24 = ws
  induction ws generalizing e with
  | nil => exact fun _ m => .inl m
  | cons w ws ih =>
    exact fun l m => (ih _ l m).elim (offerEvent_station name index e w l) .inr

theorem startDecision_calm (d : Duty) (ev : Ev) (h : ev.s.tru.tripped = false) : Calm ev (startDecision d ev) := by
  unfold startDecision
  split
  · dsimp only
    exact ite_calm {} {}
  · refine ⟨?_, fun t => (Bool.false_ne_true (h.symm.trans t)).elim,
      fun t => (Bool.false_ne_true (h.symm.trans t)).elim, raise_station _ _ _ _⟩
    exact congrArg Tru.tripped (((raise_frame (F := False) (G := False) (B := False) _ _ _).tru id).trans
      (by simp [Ev.map]))

theorem reviewStart_calm (d : Duty) (ev : Ev) : Calm ev (reviewStart d ev) := by
  unfold reviewStart
  split
  · exact {}
  · rename_i h
    dsimp only
    refine ite_calm (Calm.trans {} (startDecision_calm d _ ?_)) {}
    simp only [Bool.or_eq_true, not_or, Bool.not_eq_true] at h
    simpa [Ev.map] using h.1

theorem reviewStop_calm (d : Duty) (ev : Ev) : Calm ev (reviewStop d ev) := by
  unfold reviewStop
  split
  · exact {}
  · dsimp only
    exact ite_calm (ite_calm {} {}) {}

theorem handDemands_calm (i b : Nat) (ev : Ev) : Calm ev (handDemands i b ev) := by
  unfold handDemands
  have h (q : Duty) (e : Ev) : Calm e (review q e) := (reviewStart_calm q e).trans (reviewStop_calm q _)
  exact (Calm.trans {} (h .inject _)).trans (h .boost _)

theorem heldStep_calm (c : StepCause) (ev : Ev) : Calm ev (heldStep c ev) := by
  unfold heldStep
  exact ((handDemands_calm 0 0 ev).trans (distribute_calm _ _ _)).trans {}

theorem activeStep_calm (c : StepCause) (ev : Ev) : Calm ev (activeStep c ev) := by
  unfold activeStep
  exact ((handDemands_calm _ _ ev).trans (distribute_calm _ _ _)).trans {}

/-- What a planner step hands on: no launch but those of station scope, and none while the station is TRIPPED. -/
theorem fplStep_calm (c : StepCause) (ev : Ev) : Calm ev (fplStep c ev) := by
  unfold fplStep
  exact ite_calm (activeStep_calm c ev) (heldStep_calm c ev)

/-- A planner step leaves no re-step owed (R108). -/
theorem fplStep_restep (c : StepCause) (ev : Ev) : (fplStep c ev).restep = false := by
  unfold fplStep
  split <;> rfl

/-! ### What a launch hands on -/

/-- What a trip command of caverns and units leaves alone: launches, trips, watches, channels and the link. -/
structure Bare (u v : Ev) : Prop where
  launches : v.launches = u.launches := by rfl
  tru : v.s.tru = u.s.tru := by rfl
  wnu : v.s.wnu = u.s.wnu := by rfl
  slu : v.s.slu = u.s.slu := by rfl

theorem Bare.trans {u v w : Ev} (h : Bare u v) (k : Bare v w) : Bare u w where
  launches := k.launches.trans h.launches
  tru := k.tru.trans h.tru
  wnu := k.wnu.trans h.wnu
  slu := k.slu.trans h.slu

theorem foldl_bare {α : Type} (f : Ev → α → Ev) (h : ∀ ev x, Bare ev (f ev x)) (l : List α) (ev : Ev) :
    Bare ev (l.foldl f ev) := by
  induction l generalizing ev with
  | nil => exact {}
  | cons x l ih => exact (h ev x).trans (ih _)

theorem tripCavern_bare (b : Bool) (c : Nat) (ev : Ev) : Bare ev (tripCavern b c ev) := by
  unfold tripCavern
  split <;> exact {}

theorem tripUnit_bare (ev : Ev) (u : Nat) : Bare ev (tripUnit ev u) := by
  unfold tripUnit
  split <;> exact {}

theorem tripUnits_bare (ev : Ev) : Bare ev (tripUnits ev) := by
  have h := foldl_bare tripUnit tripUnit_bare (List.range 6) ev
  exact ⟨by simp only [tripUnits, Ev.map, h.launches], by simp only [tripUnits, Ev.map, h.tru],
    by simp only [tripUnits, Ev.map, h.wnu], by simp only [tripUnits, Ev.map, h.slu]⟩

/-- A station-scope trip command trips the station; it hands on no launch and no re-step, and tells no one. -/
theorem tripStation_ends (ev : Ev) : (tripStation ev).launches = ev.launches ∧ (tripStation ev).restep = ev.restep ∧
    (tripStation ev).s.tru.tripped = true ∧ (tripStation ev).s.wnu = ev.s.wnu ∧ (tripStation ev).s.slu = ev.s.slu := by
  unfold tripStation
  dsimp only
  generalize ha : (ev.map fun s => { s with tru := { s.tru with tripped := true } }) = a
  have hl : a.launches = ev.launches ∧ a.s.tru.tripped = true ∧ a.s.wnu = ev.s.wnu ∧ a.s.slu = ev.s.slu := by
    rw [← ha]; exact ⟨rfl, rfl, rfl, rfl⟩
  have hab : Bare a (tripUnits (tripAllCaverns a)) :=
    (foldl_bare _ (fun e c => tripCavern_bare true c e) (List.range 8) a).trans (tripUnits_bare _)
  generalize tripUnits (tripAllCaverns a) = b at hab ⊢
  have ht : b.s.tru.tripped = true := (congrArg Tru.tripped hab.tru).trans hl.2.1
  have h := heldStep_calm .trip (b.map fun s => { s with fpl := { s.fpl with active := false } })
  have hq := h.quiet ht
  have hk := h.tripped.trans ht
  have hw := h.told ht
  clear h
  generalize heldStep .trip (b.map fun s => { s with fpl := { s.fpl with active := false } }) = x at hq hk hw ⊢
  exact ⟨hq.trans (hab.launches.trans hl.1), rfl, hk, hw.1.trans (hab.wnu.trans hl.2.2.1),
    hw.2.trans (hab.slu.trans hl.2.2.2)⟩

/-- A launch hands on no launch. -/
theorem launchTrip_launches (ev : Ev) (l : Launch) : (launchTrip ev l).launches = ev.launches := by
  unfold launchTrip
  dsimp only
  split
  · have h := (tripStation_ends (ev.map fun s => s.record l)).1
    generalize tripStation (ev.map fun s => s.record l) = x at h ⊢
    exact h
  · rename_i c _
    have h := (tripCavern_bare false c (ev.map fun s => s.record l)).launches
    generalize tripCavern false c (ev.map fun s => s.record l) = x at h ⊢
    exact h

/-- A launch of station scope hands on no re-step. -/
theorem launchTrip_restep (ev : Ev) (l : Launch) (h : l.scope = none) : (launchTrip ev l).restep = ev.restep := by
  unfold launchTrip
  rw [h]
  have k := (tripStation_ends (ev.map fun s => s.record l)).2.1
  dsimp only
  generalize tripStation (ev.map fun s => s.record l) = x at k ⊢
  exact k

theorem foldl_launchTrip_launches (ls : List Launch) (ev : Ev) : (ls.foldl launchTrip ev).launches = ev.launches := by
  induction ls generalizing ev with
  | nil => rfl
  | cons l ls ih => rw [List.foldl_cons, ih, launchTrip_launches]

theorem foldl_launchTrip_restep (ls : List Launch) (ev : Ev) (h : ∀ l ∈ ls, l.scope = none) :
    (ls.foldl launchTrip ev).restep = ev.restep := by
  induction ls generalizing ev with
  | nil => rfl
  | cons l ls ih =>
    rw [List.foldl_cons, ih _ fun x m => h x (List.mem_cons_of_mem l m)]
    exact launchTrip_restep ev l (h l List.mem_cons_self)

/-! ### The rounds -/

/-- One round of an event's end is enough where nothing is owed. -/
theorem finishRounds_done (n : Nat) (ev : Ev) (h : ev.launches = []) (k : ev.restep = false) :
    finishRounds n ev = ev.s := by
  cases n with
  | zero => rfl
  | succ n => simp [finishRounds, h, k]

/-- After a re-step: at most launches of station scope are left, and then nothing. -/
theorem finishRounds_stepped (n m : Nat) (ev : Ev) (k : ev.restep = false) (h : ∀ l ∈ ev.launches, l.scope = none) :
    finishRounds (n + 1) ev = finishRounds (m + 1) ev := by
  cases hl : ev.launches with
  | nil => rw [finishRounds_done _ _ hl k, finishRounds_done _ _ hl k]
  | cons l ls =>
    have e : ∀ n, finishRounds (n + 1) ev =
        finishRounds n ((sortLaunches ev.launches).foldl launchTrip { ev with launches := [] }) := by
      intro n
      rw [finishRounds, hl]
    have q : ((sortLaunches ev.launches).foldl launchTrip { ev with launches := [] }).restep = false :=
      (foldl_launchTrip_restep _ _ fun x m => h x ((sortLaunches_perm _).mem_iff.1 m)).trans k
    have z := foldl_launchTrip_launches (sortLaunches ev.launches) { ev with launches := [] }
    rw [e, e, finishRounds_done _ _ z q, finishRounds_done _ _ z q]

/-- With no launch to take, three rounds do. -/
theorem finishRounds_quiet (n m : Nat) (ev : Ev) (h : ev.launches = []) :
    finishRounds (n + 2) ev = finishRounds (m + 2) ev := by
  cases k : ev.restep with
  | false => rw [finishRounds_done _ _ h k, finishRounds_done _ _ h k]
  | true =>
    have e : ∀ n, finishRounds (n + 1) ev = finishRounds n (fplStep .restep ev) := by
      intro n
      simp [finishRounds, h, k]
    rw [e, e]
    refine finishRounds_stepped _ _ _ (fplStep_restep _ _) fun l m => ?_
    refine ((fplStep_calm .restep ev).station l m).resolve_left ?_
    rw [h]; exact List.not_mem_nil

/-- Three rounds are enough for every event, so that the bound of 64 takes nothing away. -/
theorem finishRounds_enough (n m : Nat) (ev : Ev) : finishRounds (n + 3) ev = finishRounds (m + 3) ev := by
  cases hl : ev.launches with
  | nil => exact finishRounds_quiet (n + 1) (m + 1) ev hl
  | cons l ls =>
    have e : ∀ n, finishRounds (n + 1) ev =
        finishRounds n ((sortLaunches ev.launches).foldl launchTrip { ev with launches := [] }) := by
      intro n
      rw [finishRounds, hl]
    rw [e, e]
    exact finishRounds_quiet n m _ (foldl_launchTrip_launches _ _)

end Sys2Proof.Machine
end

