-- ==== Sys2Proof/Laws/Keeps.lean ====
section
/-! SUPPORT. What a whole command keeps: the waiting commands and every law of Safety.lean; one lemma for each way a
command is carried out (a request served, an event, an input, a start, the line). -/

namespace Sys2Proof.Machine

set_option Elab.async false

/-- The laws pass from `s` to `t`, and the commands that wait are the same. -/
structure Keeps (s t : State) : Prop where
  pending : t.pending = s.pending := by rfl
  caverns : CavernLaw s → CavernLaw t := by exact id
  units : UnitLaw s → UnitLaw t := by exact id
  towers : TowerLaw s → TowerLaw t := by exact id
  notices : NoticeLaw s → NoticeLaw t := by exact id
  trip : TripLaw s → TripLaw t := by exact id
  queue : QueueLaw s → QueueLaw t := by exact id
  sizes : SizeLaw s → SizeLaw t := by first | exact id | simp +contextual [SizeLaw, State.updChan, State.updRun, State.updCav, State.updUnit, State.updTrain, State.updAccount, State.updWatch, State.updNotice]

theorem Keeps.refl (s : State) : Keeps s s := {}

theorem Keeps.trans {s t u : State} (h : Keeps s t) (k : Keeps t u) : Keeps s u where
  pending := k.pending.trans h.pending
  caverns := k.caverns ∘ h.caverns
  units := k.units ∘ h.units
  towers := k.towers ∘ h.towers
  notices := k.notices ∘ h.notices
  trip := k.trip ∘ h.trip
  queue := k.queue ∘ h.queue
  sizes := k.sizes ∘ h.sizes

theorem Within.keeps {s t : State} (h : Within s t) : Keeps s t where
  pending := h.pending
  caverns := h.caverns
  units := h.units
  towers := h.towers
  notices := h.notices
  trip := h.trip
  sizes := h.sizes
  queue := fun ⟨h1, h2, h3⟩ => by
    have hl : t.slu.queue.length = s.slu.queue.length := by
      simpa using congrArg List.length h.queue
    refine ⟨hl ▸ h1, h.queue ▸ h2, fun e he => ?_⟩
    have : e.arrival ∈ s.slu.queue.map QEntry.arrival := h.queue ▸ List.mem_map_of_mem he
    obtain ⟨x, hx, hxe⟩ := List.mem_map.mp this
    rw [h.arrivals, ← hxe]
    exact h3 x hx

theorem iteState_keeps {p : Prop} [Decidable p] {s x y : State} (h : Keeps s x) (k : Keeps s y) :
    Keeps s (if p then x else y) := by
  split
  · exact h
  · exact k

/-- A change of the commands that wait for nothing: any state with the same blocks. -/
theorem Keeps.phase (s : State) (p : Phase) (b : Bool) : Keeps s { s with phase := p, resetInput := b } := {}

/-! ### Requests -/

theorem refuseFrame_keeps (s : State) (k t : Nat) (st : Status) (d : Detail) : Keeps s (s.refuseFrame k t st d) :=
  iteState_keeps (.refl _) {}

theorem enqueue_keeps (s : State) (c : Instr) (k : Nat) : Keeps s (s.enqueue c k) := by
  unfold State.enqueue
  split
  · exact refuseFrame_keeps _ _ _ _ _
  · rename_i hn
    exact
      { queue := fun ⟨h1, h2, h3⟩ => by
          simp only [Config.queuePlaces, Nat.not_le] at hn
          refine ⟨?_, ?_, ?_⟩
          · simp only [List.length_append, List.length_singleton]
            omega
          · simp only [List.map_append, List.map_cons, List.map_nil, List.pairwise_append]
            refine ⟨h2, by simp, ?_⟩
            intro a ha b hb
            simp only [List.mem_singleton] at hb
            obtain ⟨x, hx, rfl⟩ := List.mem_map.mp ha
            rw [hb]
            exact h3 x hx
          · intro e he
            rcases List.mem_append.mp he with he | he
            · exact Nat.lt_succ_of_lt (h3 e he)
            · simp only [List.mem_singleton] at he
              simp [he] }

theorem noteTaking_keeps (s t : State) (a : Nat) (h : Keeps s t) : Keeps s (s.noteTaking t a) := h.trans {}

theorem takeEntry_keeps {take : State → Ev × Answer} (e : QEntry) (s : State)
    (h : ∀ t, Keeps t (take t).1.s) : Keeps s (takeEntry take e s) := by
  unfold takeEntry
  have h1 := noteTaking_keeps s _ e.arrival ((h s).trans (finish_within _).keeps)
  dsimp only
  split
  · exact h1.trans (formReply_within _ _ _ _ _).keeps
  · exact h1.trans (formReply_within _ _ _ _ _).keeps
  · exact h1.trans (setEntry_within _ _ _).keeps

theorem tryEntry_keeps {take : State → Ev × Answer} (e : QEntry) (s : State)
    (h : ∀ t, Keeps t (take t).1.s) : Keeps s (tryEntry take e s) :=
  iteState_keeps (.refl _) (iteState_keeps (setEntry_within _ _ _).keeps (takeEntry_keeps e s h))

/-- A request served keeps whatever its taking keeps. -/
theorem serve_keeps (c : Instr) {take : State → Ev × Answer} (s : State) (h : ∀ t, Keeps t (take t).1.s) :
    Keeps s (serve c take s) := by
  have h1 : ∀ k, Keeps s (if (s.findEntry c).isSome then s
      else if lengthAllowed k c.body.length then s.enqueue c k
      else s.refuseFrame (k + 0x80) c.tag .badLength {}) := fun k =>
    iteState_keeps (.refl _) (iteState_keeps (enqueue_keeps _ _ _) (refuseFrame_keeps _ _ _ _ _))
  unfold serve
  refine iteState_keeps (.refl _) ?_
  dsimp only
  split
  · exact (h1 _).trans (tryEntry_keeps _ _ h)
  · exact h1 _

/-- What a close holds back keeps the laws when it is taken. -/
theorem closeTaking_within {c : Instr} {take : State → Ev × Answer} (h : closeTaking c = some take) (s : State) :
    Within s (take s).1.s := by
  cases c <;> simp only [closeTaking, Option.some.injEq, reduceCtorEq] at h <;> subst h
  · exact takeAccountsReady_within _
  · exact takeOpenAccount_within _ _ _ _ _ _ _
  · exact takeLoadInventory_within _ _ _
  · exact takeSuspendAccount_within _ _
  · exact takeResumeAccount_within _ _
  · exact takeCloseAccount_within _ _
  · exact takeSetRights_within _ _ _ _ _
  · exact takeTransfer_within _ _ _ _
  · exact takeNominate_within _ _ _ _
  · exact takeDeclareCapacity_within _ _ _ _
  · exact takeReadCapacity_within _ _ _
  · exact takeReadChanged_within _
  · exact takeReadAccount_within _ _
  · exact takeReadBook_within _ _ _ _
  · exact takeObaAdjust_within _ _ _
  · exact answerOnly_within _ _
  · exact takeReadPeriod_within _ _ _

theorem takeHeld_keeps (s : State) (e : QEntry) : Keeps s (takeHeld s e) := by
  unfold takeHeld
  split
  · rename_i take h
    exact tryEntry_keeps e s fun t => (closeTaking_within h t).keeps
  · exact .refl _

/-- The taking of what has waited for a close keeps every law. -/
theorem takeWaiting_keeps (s : State) (held : List QEntry) : Keeps s (s.takeWaiting held) := by
  refine iteState_keeps (.refl _) ?_
  induction held generalizing s with
  | nil => exact .refl _
  | cons e l ih => exact (takeHeld_keeps s e).trans (ih _)

/-- The completion of a close, with the requests that have waited for it, keeps every law. -/
theorem closeComplete_keeps (c : Close) (s : State) :
    Keeps s ((completeClose c s.ev).finish.takeWaiting s.heldEntries) :=
  (finished (completeClose_within c s.ev)).keeps.trans (takeWaiting_keeps _ _)

theorem takeDispatchEnable_keeps (s : State) : Keeps s (takeDispatchEnable s).1.s := by
  unfold takeDispatchEnable
  split
  · exact .refl _
  · unfold refuseIf
    split
    · exact .refl _
    · split
      · exact .refl _
      · rename_i ht
        have ht0 : s.tru.tripped = false := by simpa using ht
        have ha : Keeps s (s.setActive true) := { trip := fun _ h => by rw [show (s.setActive true).tru = s.tru from rfl, ht0] at h; cases h }
        split
        · exact .refl _
        · split
          · exact .refl _
          · split
            · exact .refl _
            · exact ha.trans (activeStep_within _ (s.setActive true).ev).keeps

/-! ### Events -/

/-- An event, whether it takes place or not. -/
theorem occurs_keeps {enabled : State → Bool} {f : Ev → Ev} (s : State)
    (h : enabled s = true → Within s (f s.ev).s) : Keeps s (occurs enabled f s) := by
  unfold occurs
  split
  · rename_i hc
    simp only [Bool.and_eq_true] at hc
    exact (finished (h hc.2)).keeps
  · exact .refl _

theorem inputChange_keeps {changed : Bool} {record : State → State} {f : Ev → Ev} (s : State)
    (h : Within s (record s)) (k : ∀ ev : Ev, Within ev.s (f ev).s) : Keeps s (inputChange changed record f s) :=
  iteState_keeps (.refl _) (iteState_keeps (h.trans (finished (k (record s).ev))).keeps h.keeps)

theorem onLink_keeps {f : State → State} (s : State) (h : Keeps s (f s)) : Keeps s (onLink f s) :=
  iteState_keeps h (.refl _)

/-! ### Starts -/

/-- What the groups are is nothing to the laws. -/
theorem startGroups_keeps (s : State) (p : Bool) : Within s (s.startGroups p) := by
  have a : ∀ t : State, Within t t.judgeCaverns := fun t => iteState_within {} (.refl _)
  have b : ∀ t : State, Within t t.judgePlant := fun t => iteState_within {} (.refl _)
  exact (Within.trans {} (a _)).trans (b _)

/-- Every unit's command is STOP; at a COLD START none is STARTING or RUNNING. -/
def AllStopped (cold : Bool) (s : State) : Prop :=
  ∀ r ∈ s.cdm.units, r.command = .stop ∧ (cold = true → r.state.counts = false)

theorem updUnit_stopped {cold : Bool} {s : State} (h : AllStopped cold s) (u : Nat) (f : CompUnit → CompUnit)
    (hf : ∀ r, (f r).command = .stop ∧ (f r).state.counts = false) : AllStopped cold (s.updUnit u f) := by
  intro r hr
  rcases mem_modify hr with hr | ⟨y, _, _, rfl⟩
  · exact h r hr
  · exact ⟨(hf y).1, fun _ => (hf y).2⟩

theorem updDuty_stopped {cold : Bool} {s : State} (h : AllStopped cold s) (d : Duty) (f : DutyRec → DutyRec) :
    AllStopped cold (s.updDuty d f) := by
  cases d <;> exact h

theorem fitUnit_stopped {cold : Bool} (ev : Ev) (u : Nat) (h : AllStopped cold ev.s) :
    AllStopped cold (fitUnit false ev u).s := by
  unfold fitUnit
  dsimp only
  split
  · have h1 := updUnit_stopped h u (fun r =>
      { r with
        present := false, state := .maintenance, command := .stop, start := none, stop := none, minRun := none
        minRunTaken := false, rest := none }) fun _ => ⟨rfl, rfl⟩
    exact h1
  · split
    · exact h
    · simp only [Bool.false_and, Bool.false_eq_true, if_false]
      exact updDuty_stopped (updUnit_stopped (updDuty_stopped (updDuty_stopped h .inject _) .boost _) u _
        fun _ => ⟨rfl, rfl⟩) _ _

theorem fitUnits_stopped {cold : Bool} (ev : Ev) (h : AllStopped cold ev.s) :
    AllStopped cold (fitUnits false ev).s := by
  unfold fitUnits
  generalize List.range 6 = l
  induction l generalizing ev with
  | nil => exact h
  | cons u l ih => exact ih _ (fitUnit_stopped ev u h)

/-- Units restarted and fitted (R60) are lawful whatever they were. -/
theorem startCdm_lawful (s : State) (cold : Bool) : UnitLaw (s.startCdm cold) := by
  intro r hr
  simp only [State.startCdm, List.mem_map] at hr
  obtain ⟨x, hx, rfl⟩ := hr
  have hs := fitUnits_stopped (cold := cold) _ (fun r hr => by
    obtain ⟨y, _, rfl⟩ := List.mem_map.mp hr
    exact ⟨rfl, fun hc => by subst hc; rfl⟩) x hx
  obtain ⟨h1, h2⟩ := hs
  unfold CompUnit.settleState
  split
  · rename_i hc
    simp [CompUnit.lawful, h1, h2 hc]
  · split <;> simp_all [CompUnit.lawful, UnitState.counts]

/-- A state in which the units were replaced, and are lawful. -/
theorem replaceUnits_keeps {s a b : State} {x y : Cdm} (h : Within { s with cdm := x } a)
    (hb : b = { a with cdm := y }) (hx : x.units.length = s.cdm.units.length) (hy : y.units.length = a.cdm.units.length)
    (hu : UnitLaw b) : Keeps s b := by
  subst hb
  have sizes : SizeLaw s → SizeLaw { a with cdm := y } := fun k => by
    have k1 : SizeLaw { s with cdm := x } := by simpa only [SizeLaw, hx] using k
    have k2 := h.sizes k1
    simpa only [SizeLaw, hy] using k2
  exact
    { sizes := sizes, pending := h.pending, caverns := h.caverns, units := fun _ => hu, towers := h.towers, notices := h.notices
      trip := h.trip, queue := h.keeps.queue }

theorem startCdm_keeps (s : State) (cold : Bool) : Keeps s (s.startCdm cold) :=
  replaceUnits_keeps (fitUnits_within false (State.ev _)) rfl (by simp) (by simp) (startCdm_lawful s cold)

theorem startDtc_keeps (s : State) (cold : Bool) : Keeps s (s.startDtc cold) := by
  refine Keeps.trans ?_ (fitTrains_within _).keeps
  exact
    { sizes := by simp +contextual [SizeLaw]
      towers := fun h t ht => by
        obtain ⟨x, hx, rfl⟩ := List.mem_map.mp ht
        have tower (w : Tower) (k : w.lawful) : (w.restart cold).lawful := by
          cases cold
          · exact k
          · exact fun _ => ⟨rfl, rfl⟩
        exact ⟨tower _ (h x hx).1, tower _ (h x hx).2⟩ }

theorem startAcb_keeps (s : State) (cold : Bool) : Keeps s (s.startAcb cold) :=
  iteState_keeps { sizes := by simp +contextual [SizeLaw] } (.refl _)

theorem startSu_keeps (s : State) (cold : Bool) : Keeps s (s.startSu cold) := {}

theorem startFpl_keeps (s : State) : Keeps s s.startFpl := { trip := fun _ _ => rfl }

theorem startWnu_keeps (s : State) (cold : Bool) : Keeps s (s.startWnu cold) where
  sizes := by cases cold <;> simp +contextual [SizeLaw, State.startWnu]
  notices := fun _ c hc => by
    simp only [State.startWnu, List.mem_replicate] at hc
    rw [hc.2]
    exact ⟨NoticeList.empty_lawful, NoticeList.empty_lawful, fun _ => rfl, fun _ => rfl⟩

theorem clearNotices_keeps (s : State) : Keeps s s.clearNotices where
  sizes := by simp +contextual [SizeLaw, State.clearNotices]
  notices := fun _ c hc => by
    simp only [State.clearNotices, List.mem_replicate] at hc
    rw [hc.2]
    exact ⟨NoticeList.empty_lawful, NoticeList.empty_lawful, fun _ => rfl, fun _ => rfl⟩

theorem startTru_keeps (s : State) (cold : Bool) : Keeps s (s.startTru cold) where
  trip := fun h => by
    cases cold
    · exact h
    · intro k
      cases k

theorem startSlu_keeps (s : State) : Keeps s s.startSlu where
  queue := fun _ => ⟨by simp [State.startSlu], by simp [State.startSlu], by simp [State.startSlu]⟩

theorem startMu_keeps (s : State) (cold : Bool) : Keeps s (s.startMu cold) where
  sizes := by simp +contextual [SizeLaw, State.startMu]

theorem restoreBlocks_keeps (s : State) (cold : Bool) : Keeps s (s.restoreBlocks cold) := by
  unfold State.restoreBlocks
  refine Keeps.trans ?_ (disarm_within _).keeps
  refine Keeps.trans ?_ (startSlu_keeps _)
  refine Keeps.trans ?_ (startTru_keeps _ _)
  refine Keeps.trans ?_ (startWnu_keeps _ _)
  refine Keeps.trans ?_ (startSu_keeps _ _)
  refine Keeps.trans ?_ (startFpl_keeps _)
  refine Keeps.trans ?_ (startAcb_keeps _ _)
  refine Keeps.trans ?_ (startDtc_keeps _ _)
  refine Keeps.trans ?_ (startCdm_keeps _ _)
  exact (startMu_keeps _ _).trans (startCvc_within _ _).keeps

/-- The beginning of a start keeps every law. -/
theorem beginStart_keeps (p : Bool) (s : State) : Keeps s (beginStart p s) := by
  unfold beginStart
  refine Keeps.trans ?_ (finished ((siteToBook_within s.site true (State.ev _)).trans (missedBoundaries_within _))).keeps
  exact ((startGroups_keeps s p).keeps.trans {}).trans (restoreBlocks_keeps _ _)

theorem reenterCommit_within (s : State) (g : Group) : Within s (reenterCommit s g) :=
  iteState_within (enterCommit_within _ _) (.refl _)

theorem readEsd_within (ev : Ev) : Within ev.s (readEsd ev).s := ite_within (.refl _) (.refl _)

/-- The completion of a start keeps every law. -/
theorem completeStart_keeps (s : State) : Keeps s (completeStart s) := by
  unfold completeStart
  have h1 : Keeps s (missedBoundaries ({ s with phase := .running } : State).ev).s :=
    Keeps.trans {} (missedBoundaries_within (State.ev _)).keeps
  have h2 : ∀ t : State, Keeps t ((((t.startFpl).superviseAll).completeStartDtc).startSlu).clearNotices := fun t =>
    ((((startFpl_keeps t).trans (superviseAll_within _).keeps).trans (completeStartDtc_within _).keeps).trans
      (startSlu_keeps _)).trans (clearNotices_keeps _)
  have h3 : ∀ ev : Ev, Within ev.s (beginDue (readEsd ((List.range 6).foldl completeStartUnit
      (heldStep .start ev)))).finish := fun ev => by
    refine finished (Within.trans ?_ (beginDue_within _))
    refine Within.trans ?_ (readEsd_within _)
    exact (heldStep_within _ _).trans (foldl_within _ completeStartUnit_within _ _)
  have h4 : ∀ t : State, Within t ([Group.site, Group.caverns, Group.plant].foldl reenterCommit t) := fun t =>
    ((reenterCommit_within t .site).trans (reenterCommit_within _ .caverns)).trans (reenterCommit_within _ .plant)
  dsimp only
  generalize missedBoundaries ({ s with phase := .running } : State).ev = ev1 at h1 ⊢
  have h5 : Keeps ev1.s (ev1.map fun s =>
    ((((s.startFpl).superviseAll).completeStartDtc).startSlu).clearNotices).s := h2 _
  generalize (ev1.map fun s => ((((s.startFpl).superviseAll).completeStartDtc).startSlu).clearNotices) = ev2 at h5 ⊢
  exact (h1.trans h5).trans ((h3 ev2).trans (h4 _)).keeps

/-! ### The line -/

theorem judgeFrame_keeps (s : State) (k t : Nat) (b : List Byte) : Keeps s (s.judgeFrame k t b) := by
  unfold State.judgeFrame
  split
  · exact refuseFrame_keeps _ _ _ _ _
  · split
    · split
      · exact enqueue_keeps _ _ _
      · exact .refl _
    · exact refuseFrame_keeps _ _ _ _ _

theorem receiveFrame_keeps (s : State) : Keeps s s.receiveFrame := by
  unfold State.receiveFrame
  split
  · exact .refl _
  · refine iteState_keeps ?_ (.refl _)
    split
    · exact iteState_keeps {} (Keeps.trans (t := s.hunt) {} (judgeFrame_keeps _ _ _ _))
    · exact {}

theorem huntByte_keeps (s : State) (b : Byte) : Keeps s (s.huntByte b) := iteState_keeps {} {}

theorem receiveByte_keeps (s : State) (b : Byte) : Keeps s (s.receiveByte b) := by
  unfold State.receiveByte
  split
  · exact huntByte_keeps _ _
  · exact iteState_keeps ((receiveFrame_keeps _).trans (huntByte_keeps _ _))
      (iteState_keeps (huntByte_keeps _ _) (iteState_keeps {} {}))

theorem gapTimeout_keeps (s : State) : Keeps s s.gapTimeout := by
  unfold State.gapTimeout
  split
  · exact iteState_keeps {} (.refl _)
  · exact .refl _

theorem grantReply_keeps (s : State) : Keeps s s.grantReply := by
  unfold State.grantReply
  split
  · exact iteState_keeps (.refl _) {}
  · exact .refl _

theorem setSending_keeps (s : State) (x : Option Telegram) : Keeps s { s with slu := { s.slu with sending := x } } := {}

theorem sendNotice_keeps (s : State) : Keeps s s.sendNotice := by
  unfold State.sendNotice
  split
  · exact .refl _
  · exact (setSending_keeps s _).trans (updNotice_within _ _ _ fun h => ⟨h.1, h.2.1, by simp, by simp⟩).keeps

theorem freePlace_keeps (s : State) (o : Origin) : Keeps s (s.freePlace o) := by
  unfold State.freePlace
  split
  · exact {}
  · exact
      { queue := fun ⟨h1, h2, h3⟩ => by
          refine ⟨(List.length_filter_le _ _).trans h1, ?_, fun e he => h3 e (List.mem_filter.mp he).1⟩
          exact List.Pairwise.sublist (List.filter_sublist.map _) h2 }

theorem takeRate_keeps (s : State) (a : Nat) : Keeps s (s.takeRate a) := by
  unfold State.takeRate
  split
  · exact {}
  · exact .refl _

theorem endTelegram_keeps (s : State) : Keeps s s.endTelegram := by
  unfold State.endTelegram
  split
  · exact .refl _
  · dsimp only
    split
    · exact {}
    · have h : ∀ o, Keeps s (({ s with slu := { s.slu with sending := none } } : State).freePlace o) :=
        fun o => Keeps.trans {} (freePlace_keeps _ o)
      split
      · exact h _
      · exact iteState_keeps ((h _).trans (beginStart_keeps _ _)) ((h _).trans (takeRate_keeps _ _))

theorem awaitTimeout_keeps (s : State) (a : Nat) : Keeps s (s.awaitTimeout a) := by
  unfold State.awaitTimeout
  split
  · split
    · exact iteState_keeps (formReply_within _ _ _ _ _).keeps (.refl _)
    all_goals exact .refl _
  · exact .refl _

theorem periodBoundary_keeps (s : State) (b : Bool) : Keeps s (s.periodBoundary b) := by
  have h : ∀ b t, Within t (takeBoundary b t) := fun b t => finished (suBoundary_within _ _ t.ev)
  unfold State.periodBoundary
  split
  · exact .refl _
  · refine iteState_keeps ?_ (iteState_keeps ?_ ?_)
    · exact Within.keeps (Within.trans {} (h _ _))
    · exact Within.keeps (Within.trans (Within.trans {} (rotateDuties_within _)) (h _ _))
    · exact Within.keeps (Within.trans (Within.trans {} (h _ _)) (rotateDuties_within _))

end Sys2Proof.Machine
end

