-- ==== Sys2Proof/Laws/Telegrams.lean ====
section
/-! SUPPORT. Numbers in bytes: the lengths of what Decode.lean writes, and the reading of a field back from a body. -/

namespace Sys2Proof

set_option Elab.async false

@[simp] theorem length_bytesOfNat (w n : Nat) : (bytesOfNat w n).length = w := by
  induction w generalizing n with
  | zero => rfl
  | succ w ih => simp [bytesOfNat, ih]

@[simp] theorem length_bytesOfInt (w : Nat) (v : Int) : (bytesOfInt w v).length = w := length_bytesOfNat _ _

theorem foldl_bytes (l : List Byte) (a : Nat) :
    l.foldl (fun acc b => acc * 256 + b.toNat) a = a * 256 ^ l.length + natOfBytes l := by
  induction l generalizing a with
  | nil => simp [natOfBytes]
  | cons b l ih =>
    simp only [natOfBytes, List.foldl_cons, List.length_cons, Nat.zero_mul, Nat.zero_add]
    rw [ih, ih b.toNat]
    ring

theorem natOfBytes_cons (b : Byte) (l : List Byte) : natOfBytes (b :: l) = b.toNat * 256 ^ l.length + natOfBytes l := by
  simpa [natOfBytes] using foldl_bytes l b.toNat

/-- A number written in `w` bytes reads back modulo 256 to the `w`. -/
theorem natOfBytes_bytesOfNat (w n : Nat) : natOfBytes (bytesOfNat w n) = n % 256 ^ w := by
  induction w generalizing n with
  | zero => simp [bytesOfNat, natOfBytes, Nat.mod_one]
  | succ w ih =>
    rw [bytesOfNat, natOfBytes_cons, ih, length_bytesOfNat, BitVec.toNat_ofNat, Nat.mod_mod,
      show (2 : Nat) ^ 8 = 256 from rfl, pow_succ, Nat.mod_mul]
    ring

theorem natOfBytes_lt (l : List Byte) : natOfBytes l < 256 ^ l.length := by
  induction l with
  | nil => simp [natOfBytes]
  | cons b l ih =>
    rw [natOfBytes_cons, List.length_cons, pow_succ]
    have := b.isLt
    nlinarith

/-- A number in the range of `w` bytes in two's complement reads back. -/
theorem intOfBytes_bytesOfInt (w : Nat) (v : Int) (hlo : -(256 ^ w : Nat) ≤ 2 * v) (hhi : 2 * v < (256 ^ w : Nat)) :
    intOfBytes (bytesOfInt w v) = v := by
  have hm : ((256 ^ w : Nat) : Int) > 0 := by positivity
  have hlt := Int.emod_lt_of_pos v hm
  have hnn := Int.emod_nonneg v (ne_of_gt hm)
  unfold intOfBytes bytesOfInt
  rw [natOfBytes_bytesOfNat, length_bytesOfNat, Nat.mod_eq_of_lt (by omega), signedOfNat]
  rcases lt_or_ge v 0 with h | h
  · have he : v % (256 ^ w : Nat) = v + (256 ^ w : Nat) := by
      rw [← Int.add_emod_right, Int.emod_eq_of_lt (by omega) (by omega)]
    rw [he]
    split <;> omega
  · have he : v % (256 ^ w : Nat) = v := Int.emod_eq_of_lt h (by omega)
    rw [he]
    split <;> omega

/-- The first field of a body. -/
theorem field_here (a b : List Byte) (w : Nat) (h : a.length = w) : field (a ++ b) 0 w = natOfBytes a := by
  simp [field, ← h]

/-- A field that lies beyond a part of the body. -/
theorem field_beyond (a b : List Byte) (k w : Nat) (h : a.length ≤ k) :
    field (a ++ b) k w = field b (k - a.length) w := by
  simp [field, List.drop_append, List.drop_eq_nil_of_le h]

theorem sfield_here (a b : List Byte) (w : Nat) (h : a.length = w) : sfield (a ++ b) 0 w = intOfBytes a := by
  simp [sfield, ← h]

theorem sfield_beyond (a b : List Byte) (k w : Nat) (h : a.length ≤ k) :
    sfield (a ++ b) k w = sfield b (k - a.length) w := by
  simp [sfield, List.drop_append, List.drop_eq_nil_of_le h]

/-- A list of indices of one byte each reads back. -/
theorem indices_ofNat (l : List Nat) (h : l.all fits1 = true) : indices (l.map (BitVec.ofNat 8)) = l := by
  induction l with
  | nil => rfl
  | cons a l ih =>
    simp only [List.all_cons, Bool.and_eq_true, fits1, decide_eq_true_eq] at h
    simp only [indices, List.map_cons, List.map_map, BitVec.toNat_ofNat] at ih ⊢
    rw [Nat.mod_eq_of_lt h.1]
    congr 1
    simpa using ih h.2

end Sys2Proof
end

