-- ==== Sys2Proof/Laws/PerInstr.lean ====
section
/-! SUPPORT. The family BodyLength, one lemma for each constructor of Instr: a well-formed request has a body of a
length its kind allows (11.5, R178), and an event has none. -/

namespace Sys2Proof.Laws.BodyLength

set_option Elab.async false

/-- A well-formed request's body has a length its kind allows; an event has no body. -/
def Statement (i : Instr) : Prop :=
  i.wellFormed = true →
    match i.kind with
    | some k => lengthAllowed k i.body.length = true
    | none => i.body = []

theorem readChannel (tag channel : Nat) : Statement (.readChannel tag channel) := fun _ => rfl

theorem loopCheckBegin (tag channel current : Nat) : Statement (.loopCheckBegin tag channel current) := fun _ => rfl

theorem loopCheckEnd (tag channel : Nat) : Statement (.loopCheckEnd tag channel) := fun _ => rfl

theorem readMeter (tag run : Nat) : Statement (.readMeter tag run) := fun _ => rfl

theorem setGasQuality (tag run cv : Nat) : Statement (.setGasQuality tag run cv) := fun _ => rfl

theorem setClock (tag value : Nat) : Statement (.setClock tag value) := fun _ => rfl

theorem cavernServiceIn (tag cavern : Nat) : Statement (.cavernServiceIn tag cavern) := fun _ => rfl

theorem cavernServiceOut (tag cavern dir : Nat) : Statement (.cavernServiceOut tag cavern dir) := fun _ => rfl

theorem cavernEnable (tag cavern : Nat) : Statement (.cavernEnable tag cavern) := fun _ => rfl

theorem cavernShut (tag cavern : Nat) : Statement (.cavernShut tag cavern) := fun _ => rfl

theorem setMeritOrder (tag dir : Nat) (caverns : List Nat) : Statement (.setMeritOrder tag dir caverns) := fun h => by
  simp [Instr.wellFormed] at h
  simp [Instr.body, Instr.kind, lengthAllowed, kindLengths]
  omega

theorem readMeritOrder (tag dir : Nat) : Statement (.readMeritOrder tag dir) := fun _ => rfl

theorem readCavern (tag cavern : Nat) : Statement (.readCavern tag cavern) := fun _ => rfl

theorem unitMaintenance (tag unit : Nat) : Statement (.unitMaintenance tag unit) := fun _ => rfl

theorem unitAvailable (tag unit : Nat) : Statement (.unitAvailable tag unit) := fun _ => rfl

theorem resetLockout (tag unit : Nat) : Statement (.resetLockout tag unit) := fun _ => rfl

theorem setDuty (tag unit duty : Nat) : Statement (.setDuty tag unit duty) := fun _ => rfl

theorem setDutyOrder (tag duty : Nat) (units : List Nat) : Statement (.setDutyOrder tag duty units) := fun h => by
  simp [Instr.wellFormed] at h
  simp [Instr.body, Instr.kind, lengthAllowed, kindLengths]
  omega

theorem readUnit (tag unit : Nat) : Statement (.readUnit tag unit) := fun _ => rfl

theorem readDuty (tag : Nat) : Statement (.readDuty tag) := fun _ => rfl

theorem trainOnline (tag train : Nat) : Statement (.trainOnline tag train) := fun _ => rfl

theorem trainOffline (tag train : Nat) : Statement (.trainOffline tag train) := fun _ => rfl

theorem forceSwitchover (tag train : Nat) : Statement (.forceSwitchover tag train) := fun _ => rfl

theorem resetTower (tag train tower : Nat) : Statement (.resetTower tag train tower) := fun _ => rfl

theorem readTrain (tag train : Nat) : Statement (.readTrain tag train) := fun _ => rfl

theorem accountsReady (tag : Nat) : Statement (.accountsReady tag) := fun _ => rfl

theorem openAccount (tag account code cls space rin rwd : Nat) :
    Statement (.openAccount tag account code cls space rin rwd) :=
  fun _ => rfl

theorem loadInventory (tag account inventory : Nat) : Statement (.loadInventory tag account inventory) := fun _ => rfl

theorem suspendAccount (tag account : Nat) : Statement (.suspendAccount tag account) := fun _ => rfl

theorem resumeAccount (tag account : Nat) : Statement (.resumeAccount tag account) := fun _ => rfl

theorem closeAccount (tag account : Nat) : Statement (.closeAccount tag account) := fun _ => rfl

theorem setRights (tag account space rin rwd : Nat) : Statement (.setRights tag account space rin rwd) := fun _ => rfl

theorem transfer (tag source dest quantity : Nat) : Statement (.transfer tag source dest quantity) := fun _ => rfl

theorem nominate (tag account slot : Nat) (n : Int) : Statement (.nominate tag account slot n) := fun _ => rfl

theorem declareCapacity (tag slot inj wd : Nat) : Statement (.declareCapacity tag slot inj wd) := fun _ => rfl

theorem readCapacity (tag first count : Nat) : Statement (.readCapacity tag first count) := fun _ => rfl

theorem readChanged (tag : Nat) : Statement (.readChanged tag) := fun _ => rfl

theorem readAccount (tag account : Nat) : Statement (.readAccount tag account) := fun _ => rfl

theorem readBook (tag account first count : Nat) : Statement (.readBook tag account first count) := fun _ => rfl

theorem dispatchEnable (tag : Nat) : Statement (.dispatchEnable tag) := fun _ => rfl

theorem dispatchHold (tag : Nat) : Statement (.dispatchHold tag) := fun _ => rfl

theorem readPlan (tag : Nat) : Statement (.readPlan tag) := fun _ => rfl

theorem obaAdjust (tag account : Nat) (quantity : Int) : Statement (.obaAdjust tag account quantity) := fun _ => rfl

theorem readOba (tag : Nat) : Statement (.readOba tag) := fun _ => rfl

theorem readPeriod (tag number : Nat) (position : Option Nat) : Statement (.readPeriod tag number position) :=
  fun _ => by cases position <;> simp [Instr.body, Instr.kind, lengthAllowed, kindLengths]

theorem setWatch (tag watch sourceKind sourceIndex event filter condition : Nat) (threshold : Int)
    (hysteresis channel action hostCode mode : Nat) :
    Statement (.setWatch tag watch sourceKind sourceIndex event filter condition threshold hysteresis channel action
      hostCode mode) :=
  fun _ => rfl

theorem clearWatch (tag watch : Nat) : Statement (.clearWatch tag watch) := fun _ => rfl

theorem readWatches (tag : Nat) : Statement (.readWatches tag) := fun _ => rfl

theorem readWatch (tag watch : Nat) : Statement (.readWatch tag watch) := fun _ => rfl

theorem awaitFlags (tag mask timeout : Nat) : Statement (.awaitFlags tag mask timeout) := fun _ => rfl

theorem ackNotice (tag channel : Nat) (rearm : List Nat) : Statement (.ackNotice tag channel rearm) := fun h => by
  simp [Instr.wellFormed] at h
  simp [Instr.body, Instr.kind, lengthAllowed, kindLengths]
  omega

theorem holdNotices (tag : Nat) : Statement (.holdNotices tag) := fun _ => rfl

theorem releaseNotices (tag : Nat) : Statement (.releaseNotices tag) := fun _ => rfl

theorem discardNotice (tag channel : Nat) : Statement (.discardNotice tag channel) := fun _ => rfl

theorem testNotice (tag channel : Nat) : Statement (.testNotice tag channel) := fun _ => rfl

theorem readNoticeState (tag : Nat) (channel : Option Nat) : Statement (.readNoticeState tag channel) :=
  fun _ => by cases channel <;> simp [Instr.body, Instr.kind, lengthAllowed, kindLengths]

theorem clearTrip (tag : Nat) : Statement (.clearTrip tag) := fun _ => rfl

theorem readTrip (tag : Nat) : Statement (.readTrip tag) := fun _ => rfl

theorem writeProfile (tag group segment last : Nat) (contents : List Byte) :
    Statement (.writeProfile tag group segment last contents) :=
  fun h => by
  simp [Instr.wellFormed] at h
  simp [Instr.body, Instr.kind, lengthAllowed, kindLengths]
  omega

theorem readProfile (tag group segment : Nat) : Statement (.readProfile tag group segment) := fun _ => rfl

theorem identify (tag : Nat) : Statement (.identify tag) := fun _ => rfl

theorem resetController (tag : Nat) : Statement (.resetController tag) := fun _ => rfl

theorem frameReceived : Statement .frameReceived := fun _ => rfl

theorem frameGapTimeout : Statement .frameGapTimeout := fun _ => rfl

theorem framingError : Statement .framingError := fun _ => rfl

theorem replyGrant : Statement .replyGrant := fun _ => rfl

theorem noticeSent : Statement .noticeSent := fun _ => rfl

theorem telegramComplete : Statement .telegramComplete := fun _ => rfl

theorem mainSupplyUp : Statement .mainSupplyUp := fun _ => rfl

theorem mainSupplyLost : Statement .mainSupplyLost := fun _ => rfl

theorem resetInputAsserted : Statement .resetInputAsserted := fun _ => rfl

theorem resetInputReleased : Statement .resetInputReleased := fun _ => rfl

theorem startComplete : Statement .startComplete := fun _ => rfl

theorem channelReading (channel current : Nat) : Statement (.channelReading channel current) := fun _ => rfl

theorem holdExpiry (channel : Nat) : Statement (.holdExpiry channel) := fun _ => rfl

theorem recalibrationBegin : Statement .recalibrationBegin := fun _ => rfl

theorem recalibrationComplete : Statement .recalibrationComplete := fun _ => rfl

theorem meterPulse (run : Nat) : Statement (.meterPulse run) := fun _ => rfl

theorem zeroFlowExpiry (run : Nat) : Statement (.zeroFlowExpiry run) := fun _ => rfl

theorem clockSecond : Statement .clockSecond := fun _ => rfl

theorem crystalStop : Statement .crystalStop := fun _ => rfl

theorem crystalResume : Statement .crystalResume := fun _ => rfl

theorem periodBoundary (rotateFirst : Bool) : Statement (.periodBoundary rotateFirst) := fun _ => rfl

theorem closeComplete : Statement .closeComplete := fun _ => rfl

theorem valveLimitChange (cavern : Nat) (openMade closedMade : Bool) :
    Statement (.valveLimitChange cavern openMade closedMade) :=
  fun _ => rfl

theorem travelDeadlineExpiry (cavern : Nat) : Statement (.travelDeadlineExpiry cavern) := fun _ => rfl

theorem dwellExpiry (cavern : Nat) : Statement (.dwellExpiry cavern) := fun _ => rfl

theorem dispatchIntervalExpiry : Statement .dispatchIntervalExpiry := fun _ => rfl

theorem startPendingExpiry (duty : Duty) : Statement (.startPendingExpiry duty) := fun _ => rfl

theorem stopPendingExpiry (duty : Duty) : Statement (.stopPendingExpiry duty) := fun _ => rfl

theorem minimumRunExpiry (unit : Nat) : Statement (.minimumRunExpiry unit) := fun _ => rfl

theorem unitRunningInputChange (unit : Nat) (present : Bool) : Statement (.unitRunningInputChange unit present) :=
  fun _ => rfl

theorem startDeadlineExpiry (unit : Nat) : Statement (.startDeadlineExpiry unit) := fun _ => rfl

theorem stopDeadlineExpiry (unit : Nat) : Statement (.stopDeadlineExpiry unit) := fun _ => rfl

theorem restDeadlineExpiry (unit : Nat) : Statement (.restDeadlineExpiry unit) := fun _ => rfl

theorem startHistoryAgeOut (unit : Nat) : Statement (.startHistoryAgeOut unit) := fun _ => rfl

theorem towerFeedbackChange (train : Nat) (tower : TowerId) (made : Bool) :
    Statement (.towerFeedbackChange train tower made) :=
  fun _ => rfl

theorem switchDeadlineExpiry (train : Nat) : Statement (.switchDeadlineExpiry train) := fun _ => rfl

theorem towerStepExpiry (train : Nat) (tower : TowerId) : Statement (.towerStepExpiry train tower) := fun _ => rfl

theorem offSpecExpiry (train : Nat) : Statement (.offSpecExpiry train) := fun _ => rfl

theorem esdInputChange (asserted : Bool) : Statement (.esdInputChange asserted) := fun _ => rfl

theorem awaitFlagsTimeout (arrival : Nat) : Statement (.awaitFlagsTimeout arrival) := fun _ => rfl

theorem commitComplete (verified : Bool) : Statement (.commitComplete verified) := fun _ => rfl

theorem profileToProfileExpiry : Statement .profileToProfileExpiry := fun _ => rfl

theorem settleExpiry : Statement .settleExpiry := fun _ => rfl

theorem byteReceived (byte : Byte) : Statement (.byteReceived byte) := fun _ => rfl

theorem backupSupplyLost : Statement .backupSupplyLost := fun _ => rfl

end Sys2Proof.Laws.BodyLength
end

