-- ==== Sys2Proof/Laws/Records.lean ====
section
/-! SUPPORT. What the change of one record leaves in that record and in the others, that two changes equal at the record
are the same change, and what the arrival of a request leaves of what is read from the state. -/

namespace Sys2Proof.Machine

set_option Elab.async false

theorem getD_modify {α : Type} (l : List α) (i j : Nat) (f : α → α) (d : α) :
    (l.modify i f).getD j d = if i = j ∧ j < l.length then f (l.getD j d) else l.getD j d := by
  simp only [List.getD_eq_getElem?_getD, List.getElem?_modify]
  by_cases h : j < l.length
  · by_cases k : i = j <;> simp [h, k]
  · simp [h]

theorem modify_congr {α : Type} (l : List α) (i : Nat) (f g : α → α) (d : α) (h : f (l.getD i d) = g (l.getD i d)) :
    l.modify i f = l.modify i g := by
  apply List.ext_getElem?
  intro j
  simp only [List.getElem?_modify]
  by_cases k : i = j
  · subst k
    by_cases n : i < l.length
    · simp only [List.getD_eq_getElem?_getD, List.getElem?_eq_getElem n, Option.getD_some] at h
      simp [n, h]
    · simp [List.getElem?_eq_none (Nat.not_lt.mp n)]
  · simp [k]

/-! ### One record -/

theorem State.chan_updChan (s : State) (i j : Nat) (f : Channel → Channel) :
    (s.updChan i f).chan j = if i = j ∧ j < s.mu.channels.length then f (s.chan j) else s.chan j :=
  getD_modify _ _ _ _ _

theorem State.updChan_congr {s : State} {i : Nat} {f g : Channel → Channel} (h : f (s.chan i) = g (s.chan i)) :
    s.updChan i f = s.updChan i g := by
  unfold State.updChan
  rw [modify_congr _ i f g {} h]

@[simp] theorem State.updChan_length (s : State) (i : Nat) (f : Channel → Channel) :
    (s.updChan i f).mu.channels.length = s.mu.channels.length := List.length_modify _ _ _

theorem State.run_updRun (s : State) (i j : Nat) (f : Run → Run) :
    (s.updRun i f).run j = if i = j ∧ j < s.mu.runs.length then f (s.run j) else s.run j :=
  getD_modify _ _ _ _ _

theorem State.updRun_congr {s : State} {i : Nat} {f g : Run → Run} (h : f (s.run i) = g (s.run i)) :
    s.updRun i f = s.updRun i g := by
  unfold State.updRun
  rw [modify_congr _ i f g {} h]

@[simp] theorem State.updRun_length (s : State) (i : Nat) (f : Run → Run) :
    (s.updRun i f).mu.runs.length = s.mu.runs.length := List.length_modify _ _ _

theorem State.cav_updCav (s : State) (i j : Nat) (f : Cavern → Cavern) :
    (s.updCav i f).cav j = if i = j ∧ j < s.cvc.caverns.length then f (s.cav j) else s.cav j :=
  getD_modify _ _ _ _ _

theorem State.updCav_congr {s : State} {i : Nat} {f g : Cavern → Cavern} (h : f (s.cav i) = g (s.cav i)) :
    s.updCav i f = s.updCav i g := by
  unfold State.updCav
  rw [modify_congr _ i f g {} h]

@[simp] theorem State.updCav_length (s : State) (i : Nat) (f : Cavern → Cavern) :
    (s.updCav i f).cvc.caverns.length = s.cvc.caverns.length := List.length_modify _ _ _

theorem State.unit_updUnit (s : State) (i j : Nat) (f : CompUnit → CompUnit) :
    (s.updUnit i f).unit j = if i = j ∧ j < s.cdm.units.length then f (s.unit j) else s.unit j :=
  getD_modify _ _ _ _ _

theorem State.updUnit_congr {s : State} {i : Nat} {f g : CompUnit → CompUnit} (h : f (s.unit i) = g (s.unit i)) :
    s.updUnit i f = s.updUnit i g := by
  unfold State.updUnit
  rw [modify_congr _ i f g {} h]

@[simp] theorem State.updUnit_length (s : State) (i : Nat) (f : CompUnit → CompUnit) :
    (s.updUnit i f).cdm.units.length = s.cdm.units.length := List.length_modify _ _ _

theorem State.train_updTrain (s : State) (i j : Nat) (f : Train → Train) :
    (s.updTrain i f).train j = if i = j ∧ j < s.dtc.trains.length then f (s.train j) else s.train j :=
  getD_modify _ _ _ _ _

theorem State.updTrain_congr {s : State} {i : Nat} {f g : Train → Train} (h : f (s.train i) = g (s.train i)) :
    s.updTrain i f = s.updTrain i g := by
  unfold State.updTrain
  rw [modify_congr _ i f g {} h]

@[simp] theorem State.updTrain_length (s : State) (i : Nat) (f : Train → Train) :
    (s.updTrain i f).dtc.trains.length = s.dtc.trains.length := List.length_modify _ _ _

theorem State.account_updAccount (s : State) (i j : Nat) (f : Account → Account) :
    (s.updAccount i f).account j = if i = j ∧ j < s.acb.accounts.length then f (s.account j) else s.account j :=
  getD_modify _ _ _ _ _

theorem State.updAccount_congr {s : State} {i : Nat} {f g : Account → Account} (h : f (s.account i) = g (s.account i)) :
    s.updAccount i f = s.updAccount i g := by
  unfold State.updAccount
  rw [modify_congr _ i f g {} h]

@[simp] theorem State.updAccount_length (s : State) (i : Nat) (f : Account → Account) :
    (s.updAccount i f).acb.accounts.length = s.acb.accounts.length := List.length_modify _ _ _

theorem State.watch_updWatch (s : State) (i j : Nat) (f : Watch → Watch) :
    (s.updWatch i f).watch j = if i = j ∧ j < s.wnu.watches.length then f (s.watch j) else s.watch j :=
  getD_modify _ _ _ _ _

theorem State.updWatch_congr {s : State} {i : Nat} {f g : Watch → Watch} (h : f (s.watch i) = g (s.watch i)) :
    s.updWatch i f = s.updWatch i g := by
  unfold State.updWatch
  rw [modify_congr _ i f g {} h]

@[simp] theorem State.updWatch_length (s : State) (i : Nat) (f : Watch → Watch) :
    (s.updWatch i f).wnu.watches.length = s.wnu.watches.length := List.length_modify _ _ _

theorem State.notice_updNotice (s : State) (i j : Nat) (f : NoticeChannel → NoticeChannel) :
    (s.updNotice i f).notice j = if i = j ∧ j < s.wnu.channels.length then f (s.notice j) else s.notice j :=
  getD_modify _ _ _ _ _

theorem State.updNotice_congr {s : State} {i : Nat} {f g : NoticeChannel → NoticeChannel} (h : f (s.notice i) = g (s.notice i)) :
    s.updNotice i f = s.updNotice i g := by
  unfold State.updNotice
  rw [modify_congr _ i f g {} h]

@[simp] theorem State.updNotice_length (s : State) (i : Nat) (f : NoticeChannel → NoticeChannel) :
    (s.updNotice i f).wnu.channels.length = s.wnu.channels.length := List.length_modify _ _ _

@[simp] theorem State.duty_updDuty_self (s : State) (d : Duty) (f : DutyRec → DutyRec) :
    (s.updDuty d f).duty d = f (s.duty d) := by cases d <;> rfl

@[simp] theorem State.unit_updDuty (s : State) (d : Duty) (f : DutyRec → DutyRec) : (s.updDuty d f).unit = s.unit := by
  cases d <;> rfl

@[simp] theorem State.unitDef_updDuty (s : State) (d : Duty) (f : DutyRec → DutyRec) :
    (s.updDuty d f).unitDef = s.unitDef := by cases d <;> rfl

@[simp] theorem State.duty_updUnit (s : State) (u : Nat) (f : CompUnit → CompUnit) : (s.updUnit u f).duty = s.duty := by
  funext d; cases d <;> rfl

@[simp] theorem State.unitDef_updUnit (s : State) (u : Nat) (f : CompUnit → CompUnit) :
    (s.updUnit u f).unitDef = s.unitDef := rfl

/-! ### What is read after an arrival -/

section
variable (s : State) (c : Instr)

@[simp] theorem arrived_chan : (s.arrived c).chan = s.chan := by
  funext; simp [State.chan]

@[simp] theorem arrived_run : (s.arrived c).run = s.run := by
  funext; simp [State.run]

@[simp] theorem arrived_cav : (s.arrived c).cav = s.cav := by
  funext; simp [State.cav]

@[simp] theorem arrived_unit : (s.arrived c).unit = s.unit := by
  funext; simp [State.unit]

@[simp] theorem arrived_train : (s.arrived c).train = s.train := by
  funext; simp [State.train]

@[simp] theorem arrived_account : (s.arrived c).account = s.account := by
  funext; simp [State.account]

@[simp] theorem arrived_watch : (s.arrived c).watch = s.watch := by
  funext; simp [State.watch]

@[simp] theorem arrived_notice : (s.arrived c).notice = s.notice := by
  funext; simp [State.notice]

@[simp] theorem arrived_capSlot : (s.arrived c).capSlot = s.capSlot := by
  funext; simp [State.capSlot]

@[simp] theorem arrived_chanDef : (s.arrived c).chanDef = s.chanDef := by
  funext; simp [State.chanDef, State.site]

@[simp] theorem arrived_runDef : (s.arrived c).runDef = s.runDef := by
  funext; simp [State.runDef, State.site]

@[simp] theorem arrived_cavDef : (s.arrived c).cavDef = s.cavDef := by
  funext; simp [State.cavDef]

@[simp] theorem arrived_unitDef : (s.arrived c).unitDef = s.unitDef := by
  funext; simp [State.unitDef]

@[simp] theorem arrived_trainDef : (s.arrived c).trainDef = s.trainDef := by
  funext; simp [State.trainDef]

@[simp] theorem arrived_trainState : (s.arrived c).trainState = s.trainState := by
  funext; simp [State.trainState, State.train, State.trainDef]

@[simp] theorem arrived_inCheck : (s.arrived c).inCheck = s.inCheck := by
  funext; simp [State.inCheck]

@[simp] theorem arrived_after : (s.arrived c).after = s.after := by
  funext; simp [State.after, State.clock]

@[simp] theorem arrived_lowPressure : (s.arrived c).lowPressure = s.lowPressure := by
  funext; simp [State.lowPressure, State.cavDef, State.cav]

@[simp] theorem arrived_duty : (s.arrived c).duty = s.duty := by
  funext d; cases d <;> simp [State.duty]

@[simp] theorem arrived_site : (s.arrived c).site = s.site := by simp [State.site]

@[simp] theorem arrived_clock : (s.arrived c).clock = s.clock := by simp [State.clock]

@[simp] theorem arrived_settling : (s.arrived c).settling = s.settling := by simp [State.settling]

@[simp] theorem arrived_maxTrim : (s.arrived c).maxTrim = s.maxTrim := by simp [State.maxTrim, State.site]

@[simp] theorem arrived_leadTime : (s.arrived c).leadTime = s.leadTime := by simp [State.leadTime, State.site]

@[simp] theorem arrived_headerChannel : (s.arrived c).headerChannel = s.headerChannel := by simp [State.headerChannel, State.site]

@[simp] theorem arrived_flags : (s.arrived c).flags = s.flags := by simp [State.flags, State.watch]

@[simp] theorem arrived_channelInUse : (s.arrived c).channelInUse = s.channelInUse := by
  funext ch; simp [State.channelInUse, cavernsOn]

@[simp] theorem arrived_sourceGone : (s.arrived c).sourceGone = s.sourceGone := by
  funext x; cases x <;> simp [State.sourceGone]

@[simp] theorem arrived_sourceInCheck : (s.arrived c).sourceInCheck = s.sourceInCheck := by
  funext x; cases x <;> simp [State.sourceInCheck]

end

/-! ### What a request comes to, from its block's answer -/

/-- A request whose block answers OK with the event `f` is done. -/
theorem completes_of {c : Instr} {s : State} {e : QEntry} {f : State → Ev} {body : State → List Fld}
    {take : State → Ev × Answer} (x : exec c s = .next (serve c take s)) (h : takes c s e = true)
    (k : take (s.arrived c) = (f (s.arrived c), .ok (body (f (s.arrived c)).s))) : completes c s e f body :=
  x.trans (congrArg _ (serve_completes h k))

/-- A request whose block answers OK and changes nothing only tells. -/
theorem tells_of {c : Instr} {s : State} {e : QEntry} {body : State → List Fld} {take : State → Ev × Answer}
    (x : exec c s = .next (serve c take s)) (h : takes c s e = true)
    (k : take (s.arrived c) = ((s.arrived c).ev, .ok (body (s.arrived c)))) : tells c s e body :=
  x.trans (congrArg _ (serve_tells h k))

/-- A request that its block refuses, changing nothing, is refused. -/
theorem refuses_of {c : Instr} {s : State} {e : QEntry} {st : Status} {d : Detail} {take : State → Ev × Answer}
    (x : exec c s = .next (serve c take s)) (h : takes c s e = true)
    (k : take (s.arrived c) = ((s.arrived c).ev, .no st d)) : refuses c s e st d :=
  x.trans (congrArg _ (serve_refuses h k))

/-- Fields that all pass their verdicts let the request go on. -/
theorem judged_all {s : State} {l : List (Nat × Bool)} {go : Ev × Answer} (h : l.all Prod.snd = true) :
    judged s l go = go := by
  induction l with
  | nil => rfl
  | cons x l ih =>
    obtain ⟨k, b⟩ := x
    simp only [List.all_cons, Bool.and_eq_true] at h
    obtain ⟨rfl, h⟩ := h
    rw [judged_cons_true, ih h]

end Sys2Proof.Machine
end

