-- ==== Sys2Proof/Tests/Slice0.lean ====
section
/-! SUPPORT. The model's own tests: ill-formed commands that WellFormed refuses, the worked examples of the manual, and
for every obligation with hypotheses a state and operands that meet them. -/

namespace Sys2Proof.Tests

open Sys2Proof.Machine

set_option Elab.async false

/-! ### WellFormed refuses -/

theorem test_wellFormed_refuses_wide_bytes :
    [Instr.readChannel 256 0, .readChannel 0 256, .loopCheckBegin 0 256 0, .loopCheckBegin 0 0 65536,
      .loopCheckEnd 0 256, .readMeter 0 256, .setGasQuality 0 0 65536, .setClock 0 4294967296, .cavernServiceIn 0 256,
      .cavernServiceOut 0 0 0, .cavernServiceOut 0 0 256, .cavernEnable 0 256, .cavernShut 0 256,
      .setMeritOrder 0 0 [256], .setMeritOrder 0 0 [0, 0, 0, 0, 0, 0, 0, 0, 0], .readMeritOrder 0 256,
      .readCavern 0 256].all (fun c => !c.wellFormed) = true := by decide +kernel

theorem test_wellFormed_refuses_plant_requests :
    [Instr.unitMaintenance 0 256, .unitAvailable 0 256, .resetLockout 0 256, .setDuty 0 0 256, .setDutyOrder 0 0 [256],
      .setDutyOrder 0 0 [0, 0, 0, 0, 0, 0, 0], .readUnit 0 256, .readDuty 256, .trainOnline 0 256, .trainOffline 0 256,
      .forceSwitchover 0 256, .resetTower 0 0 256, .readTrain 0 256].all (fun c => !c.wellFormed) = true := by
  decide +kernel

theorem test_wellFormed_refuses_book_requests :
    [Instr.accountsReady 256, .openAccount 0 0 65536 0 0 0 0, .openAccount 0 0 0 256 0 0 0,
      .openAccount 0 0 0 0 4294967296 0 0, .loadInventory 0 0 4294967296, .suspendAccount 0 256, .resumeAccount 0 256,
      .closeAccount 0 256, .setRights 0 0 0 4294967296 0, .transfer 0 0 256 0, .nominate 0 0 256 0,
      .nominate 0 0 0 2147483648, .nominate 0 0 0 (-2147483649), .declareCapacity 0 0 4294967296 0,
      .readCapacity 0 0 256, .readChanged 256, .readAccount 0 256, .readBook 0 0 256 0, .dispatchEnable 256,
      .dispatchHold 256, .readPlan 256, .obaAdjust 0 0 9223372036854775808, .readOba 256, .readPeriod 0 4294967296 none,
      .readPeriod 0 0 (some 256)].all (fun c => !c.wellFormed) = true := by decide +kernel

theorem test_wellFormed_refuses_watch_and_store_requests :
    [Instr.setWatch 0 256 0 0 0 0 0 0 0 0 0 0 0, .setWatch 0 0 0 0 0 0 0 9223372036854775808 0 0 0 0 0,
      .setWatch 0 0 0 0 0 0 0 0 4294967296 0 0 0 0, .setWatch 0 0 0 0 0 0 0 0 0 0 0 65536 0, .clearWatch 0 256,
      .readWatches 256, .readWatch 0 256, .awaitFlags 0 16777216 0, .awaitFlags 0 0 65536, .ackNotice 0 0 [256],
      .ackNotice 0 0 (List.replicate 25 0), .holdNotices 256, .releaseNotices 256, .discardNotice 0 256,
      .testNotice 0 256, .readNoticeState 0 (some 256), .clearTrip 256, .readTrip 256, .writeProfile 0 256 0 0 [0],
      .writeProfile 0 0 0 0 [], .writeProfile 0 0 0 0 (List.replicate 225 0), .readProfile 0 0 256, .identify 256,
      .resetController 256].all (fun c => !c.wellFormed) = true := by decide +kernel

theorem test_wellFormed_refuses_events :
    [Instr.channelReading 16 0, .channelReading 0 25001, .holdExpiry 16, .meterPulse 7, .zeroFlowExpiry 7,
      .valveLimitChange 8 true true, .travelDeadlineExpiry 8, .dwellExpiry 8, .minimumRunExpiry 6,
      .unitRunningInputChange 6 true, .startDeadlineExpiry 6, .stopDeadlineExpiry 6, .restDeadlineExpiry 6,
      .startHistoryAgeOut 6, .towerFeedbackChange 4 .a true, .switchDeadlineExpiry 4, .towerStepExpiry 4 .a,
      .offSpecExpiry 4].all (fun c => !c.wellFormed) = true := by decide +kernel

/-! ### A site -/

/-- A channel of a role on 0..25,000. -/
def channelDef (r : Role) : ChanDef := ⟨r, 0, 25000, 60⟩

/-- The SITE group of the tests: channels 0, 1 and 5 pressures (5 the header's), 2 a dew point, 3 a temperature; M1
injects, M2 withdraws through train T1; the ratchet tables of 5.5. -/
def site : Site :=
  { linkRate := 1, scanPeriod := 250, startHour := 6, leadTime := 2, catchUpFloor := 300, dispatchInterval := 30
    maxTrim := 30, settleInterval := 5, tolerance := 500, obaLimit := 1000000, nomInj := 800000, nomWd := 800000
    injRatchet := [(0, 1000), (600, 1000), (800, 600), (1000, 250)]
    wdRatchet := [(0, 300), (200, 700), (400, 1000), (1000, 1000)]
    header := some 5, headerLimit := 14000
    channels := [channelDef .pressure, channelDef .pressure, ⟨.dewpoint, -6000, 2000, 60⟩, channelDef .temperature,
      channelDef .generic, channelDef .pressure] ++ List.replicate 10 (channelDef .generic)
    runs := [⟨some .inject, 10, none, 60⟩, ⟨some .withdraw, 10, some 0, 60⟩] ++
      List.replicate 4 ⟨some .unused, 0, none, 0⟩ ++ [⟨none, 10, none, 60⟩] }

/-- The cavern of the worked permits (2.5). -/
def cavern : CavernDef :=
  { present := true, channel := some 0, pMin := 6000, pMax := 18000, margin := 200, taper := 1000, ramp := 600, k := 800
    qInj := 600000, qWd := 900000, boost := 8000, dwell := 600, travel := 60 }

/-- The unit of the worked sequence of 3.8. -/
def unit : UnitDef :=
  { present := true, rated := 250000, duty := .inject, budget := 2, minRun := 900, minRest := 600, startTimeout := 125
    stopTimeout := 180, startDelay := 120, stopDelay := 600 }

/-- A train with the switch point of the worked switchover (4.4). -/
def train : TrainDef :=
  { present := true, capacity := 5000000, water := 200000, fraction := 900, regen := 14400, cool := 3600
    dewChannel := 2, dewLimit := -800, hysteresis := 200, dwell := 300, inletChannel := 3, travel := 30 }

/-- The PLANT group of the tests: units U1 and U2 inject, U5 boosts; one train; the water table of 4.3. -/
def plant : Plant :=
  { units := [unit, unit, {}, {}, { unit with duty := .boost, rated := 400000, startDelay := 0 }, {}]
    trains := [train, {}, {}, {}]
    water := [(500, 15), (1000, 22), (1500, 31), (2000, 42), (2500, 56), (3000, 74), (3500, 96), (4000, 124)] }

/-- An open account. -/
def openAccount : Account :=
  { state := .opened, code := 7, cls := .firm, space := 2000000, rin := 120000, rwd := 120000, inventory := 300000 }

/-- A running part at 10:00, slot 4 of a gas day that starts at 6: C1 IDLE, C2 SHUT, U1 RUNNING, T1 in service, accounts
0 and 1 OPEN, no request waiting. -/
def s0 : State :=
  let channel : Channel := { value := 12000, quality := .good, good := 3 }
  let open1 : Cavern :=
    { present := true, state := .idle, command := .driveOpen, openLimit := true, closedLimit := false
      injPermit := 480000, wdPermit := 480000, pressure := 12000, quality := .good }
  let shut2 : Cavern := { present := true, state := .shut, pressure := 12000, quality := .good }
  let off : CompUnit := { present := true, state := .off }
  let running1 : CompUnit := { off with state := .running, command := .run, feedback := true }
  let train1 : Train :=
    { present := true, inService := true
      towerA := { state := .adsorbing, loading := 15000, inletOpen := true, feedback := true }
      towerB := { state := .standby } }
  { State.reset with
    mu :=
      { channels := List.replicate 16 channel, runs := List.replicate 7 { cv := 11250 }, clock := 36000#32
        set := true }
    cvc := { caverns := [open1, shut2] ++ List.replicate 6 {}, injMerit := [0, 1], wdMerit := [1, 0] }
    cdm :=
      { units := [running1, off, {}, {}, { off with duty := .boost }, {}]
        inject := { order := [0, 1], running := [0] }, boost := { order := [4] } }
    dtc := { trains := [train1, {}, {}, {}] }
    acb :=
      { loaded := true, running := 4, accounts := List.replicate 2 openAccount ++ List.replicate 30 {}
        caps := List.replicate 48 { inj := 800000, wd := 800000 } }
    su := { openStart := some 36000#32 }
    pst :=
      { site := { live := some site }
        caverns := { live := some ([cavern, { cavern with channel := some 1 }] ++ List.replicate 6 {}) }
        plant := { live := some plant } } }

/-- The same part with its settle interval running. -/
def settling : State := { s0 with pst := { s0.pst with settle := some 36005#32 } }

/-- The same part with C1 changed. -/
def withCav (f : Cavern → Cavern) : State := s0.updCav 0 f

/-- The same part with U1 changed. -/
def withUnit (f : CompUnit → CompUnit) : State := s0.updUnit 0 f

/-- The same part with T1 changed. -/
def withTrain (f : Train → Train) : State := s0.updTrain 0 f

/-- The same part with account 0 changed. -/
def withAccount (f : Account → Account) : State := s0.updAccount 0 f

/-- The same part with channel 4, which nothing uses, changed. -/
def withChan (f : Channel → Channel) : State := s0.updChan 4 f

/-- The same part, TRIPPED, with a record of the trip. -/
def tripped : State :=
  { s0 with tru :=
      { tripped := true
        current := some
          { code := 0x010, scope := none, clock := 0#32, watch := none, acknowledged := false, secondFailures := []
            snapshot := s0.snapshot } } }

/-- The queue entry of a request that arrives first. -/
def entry (c : Instr) : QEntry := { request := c, block := (blockOf c).getD .slu, arrival := 0, state := .inTurn }

/-- The request is taken when it comes to a part with an empty request queue. -/
def taken (c : Instr) (s : State) : Bool := takes c s (entry c)

/-- The state a command leaves. -/
def after (c : Instr) (s : State) : State :=
  match exec c s with
  | .next t => t
  | .fault _ | .refused _ => s

/-- The status of the newest reply. -/
def replied (c : Instr) (s : State) : Option (Status × Nat) :=
  (after c s).slu.order.getLast?.map fun r => (r.status, r.detail.value)

/-! ### The worked examples of the manual -/

theorem test_worked_conversions :
    [12000, 4001, 4008, 3800, 20600, 2100].map (channelDef .pressure).convert =
      [some 12500, some 2, some 13, some 0, some 25000, none] ∧
    (⟨.dewpoint, -6000, 2000, 60⟩ : ChanDef).convert 6000 = some (-5000) := by decide

theorem test_worked_permits :
    [12000, 17700, 18000, 6450, 5990].map (fun p =>
      let r : Cavern := { state := .idle, quality := .good, pressure := p }
      (cavern.injPermit r, cavern.wdPermit r)) =
      [(480000, 480000), (144000, 480000), (0, 480000), (480000, 216000), (480000, 0)] := by decide

theorem test_worked_withdrawal_run_without_CV :
    let at1 (s : State) : State := { s with mu := { s.mu with ms := s.mu.ms + 1000 } }
    let p0 := s0.updRun 1 fun r => { r with cv := 0, acc := 4280 }
    let p1 := at1 (after (.meterPulse 1) p0)
    let p2 := at1 (after (.meterPulse 1) p1)
    let p3 := at1 (after (.meterPulse 1) p2)
    let p4 := after (.setGasQuality 0 1 11250) p3
    let p5 := after (.meterPulse 1) p4
    ((p3.run 1).acc, (p3.run 1).unvalued, (p3.run 1).rate) = (4280, 30, 0) ∧
    ((p4.run 1).acc, (p4.run 1).unvalued, (p4.run 1).cv) = (341780, 0, 11250) ∧
    ((p5.run 1).acc, (p5.run 1).rate) = (454280, 40500) := by decide +kernel

theorem test_worked_water_factors :
    [300, 2620, 4400].map (interpolate plant.water) = [15, 60, 124] ∧
    let w := ({ state := .adsorbing, loading := 15000 } : Tower)
    let p1 := w.charge 112500 60
    let p2 := p1.charge 112500 60
    let p3 := p2.charge 112500 124
    (p1.loading, p1.residue, p2.loading, p2.residue, p3.loading, p3.residue) =
      (15000, 6750000, 15001, 3500000, 15002, 7450000) ∧ train.switchPoint = 180000 := by decide

theorem test_worked_ratchets :
    ratcheted (some site.wdRatchet) 120000 2000000 250000 = 66000 ∧
    ratcheted (some site.wdRatchet) 120000 2000000 1000000 = 120000 ∧
    interpolate site.injRatchet 850 = 513 := by decide

theorem test_worked_cascade :
    [(-100000, 250000), (-120000, 184000), (-120000, 125920), (-120000, 75040), (-100000, 450000), (-120000, 361560),
      (-120000, 282360), (-120000, 212520)].map (fun (n, p) => openAccount.confirm (some site) n p) =
      [(-66000, .rate), (-58080, .rate), (-50880, .rate), (-44880, .rate), (-88440, .rate), (-79200, .rate),
        (-69840, .rate), (-61440, .rate)] := by decide

theorem test_worked_station_pass :
    let classes : List AccountClass := [.firm, .interruptible, .interruptible, .firm]
    let own : List (Int × Reason) := [(-150000, .none), (-90000, .none), (-60000, .none), (40000, .none)]
    stationPass ⟨800000, 205001, false⟩ classes own =
      [(-150000, .none), (-57001, .station), (-38000, .station), (40000, .none)] ∧
    stationPass ⟨800000, 100000, false⟩ classes own =
      [(-140000, .station), (0, .station), (0, .station), (40000, .none)] := by decide

/-- An account confirmed in its first slot. -/
def shipper (k : AccountClass) (c inventory : Int) : Account :=
  { state := .opened, cls := k, inventory := inventory, book := [{ c := c }] }

theorem test_worked_allocation :
    let r := settle 500 1000000 0 52301 0 612
      [shipper .firm 40000 1200000, shipper .interruptible 25000 300000, shipper .firm (-15000) 80000,
        shipper .interruptible 10000 50000] 0
    r.case = .shortInject ∧ r.d = -7699 ∧ r.a = [40000, 19501, -15000, 7800] ∧ r.obaAlloc = 0 ∧
      r.fuel = [364, 177, 0, 71] ∧ r.obaFuel = 0 := by decide +kernel

theorem test_worked_fuel_cap :
    let r := settle 500 1000000 0 0 200200 900
      [shipper .firm (-150000) 150000, shipper .interruptible (-50000) 400000] 0
    r.case = .tolerance ∧ r.a = [-150000, -50000] ∧ r.obaAlloc = -200 ∧ r.fuel = [0, 225] ∧ r.obaFuel = 675 := by
  decide +kernel

theorem test_worked_watch_evaluation :
    let d (k : WatchCondition) : WatchDef := ⟨.cavernPressure 1, k, 17500, 200, none, .notify, 0x800, false⟩
    let run (k : WatchCondition) : List Bool :=
      (([17400, 17520, 17450, 17600, 17310, 17290, 17510] : List Int).foldl
        (fun (p : Option Latch × List Bool) v =>
          let (l, f) := (d k).evaluate p.1 v
          (l, p.2 ++ [f])) (none, [])).2
    run .risesAbove = [false, true, false, false, false, false, true] ∧
    run .crosses = [false, true, false, false, false, true, true] := by decide

theorem test_worked_setpoint_output :
    let s := { s0 with cvc :=
      { s0.cvc with caverns := [{ state := .withdrawing, last := .withdraw, setpoint := -150000 }] } }
    let d := { s with pst := { s.pst with caverns := { live := some [{ cavern with qWd := 600000 }] } } }
    d.setpointOutput 0 = 8000 ∧ d.directionWithdraw 0 = true := by decide +kernel

theorem test_crc_check_value : crc16 ("123456789".toList.map fun c => BitVec.ofNat 8 c.toNat) = 0x29B1#16 := by
  decide +kernel

theorem test_reset_idles_a_millisecond :
    (match step State.reset with
      | .next t => some t.mu.ms
      | .fault _ | .refused _ => none) = some 1 ∧ State.reset.pending = [] := by decide +kernel

/-- The worked sequence of 3.8 as far as the stop of U2: starts against demand, a failed start, a stop. -/
theorem test_worked_starts_against_demand :
    let clock (n : Nat) (s : State) : State := { s with mu := { s.mu with clock := BitVec.ofNat 32 n } }
    let demand (n q : Nat) (s : State) : State := (handDemands q 0 (clock n s).ev).s
    let off : CompUnit := { present := true, state := .off }
    let p0 : State := { s0 with cdm := { s0.cdm with
      units := [off, off, {}, {}, {}, {}], inject := { order := [0, 1] }, boost := {} } }
    let plant1 : Plant := { plant with units := [unit, { unit with budget := 3 }, {}, {}, {}, {}] }
    let p0 : State := { p0 with pst := { p0.pst with plant := { live := some plant1 } } }
    let p1 := demand 10000 400000 p0
    let p2 := after (.startPendingExpiry .inject) (clock 10120 p1)
    let p3 := after (.unitRunningInputChange 0 true) (clock 10165 p2)
    p1.cdm.inject.startPending = some ⟨10120#32, some 0, false⟩ ∧
    (p2.unit 0).state = .starting ∧ (p2.unit 0).history = [10120#32] ∧
    p2.cdm.inject.startPending = some ⟨10240#32, some 1, false⟩ ∧
    (p3.unit 0).state = .running ∧ (p3.unit 0).startCount = 1 ∧ p3.runningCapacity .inject = 250000 ∧
    (p3.unit 0).minRun = some 11065#32 := by decide +kernel

/-! ### The hypotheses of the obligations are met: the queue and reads -/

/-- Four requests that wait. -/
def fullQueue : List QEntry :=
  (List.range 4).map fun a => { entry (.readDuty 9) with arrival := a, state := .waitingClose }

theorem witness_RequestNotTaken :
    (Instr.readDuty 0).kind = some 0x1E ∧ lengthAllowed 0x1E (Instr.readDuty 0).body.length = true ∧
    ({ s0 with phase := .off } : State).phase ≠ .running ∧
    ({ s0 with slu := { s0.slu with resetPending := true } } : State).slu.resetPending = true ∧
    (let s : State := { s0 with slu := { queue := fullQueue, arrivals := 4 } }
    s.phase = .running ∧ s.slu.resetPending = false ∧ s.slu.queue.length = 4 ∧ s.findEntry (.readDuty 0) = none ∧
      s.slu.refusal = none ∧ (after (.readDuty 0) s).slu.refusal ≠ none) := by decide +kernel

theorem witness_PlantReadsOnlyTell :
    [Instr.readChannel 0 15, .readMeter 0 6, .readMeritOrder 0 1, .readCavern 0 7, .readUnit 0 5, .readDuty 0,
      .readTrain 0 3, .readPlan 0].all (taken · s0) = true := by decide +kernel

/-- A period record with the shippers given. -/
def period (n : Nat) (l : List ShipperEntry) : PeriodRecord :=
  ⟨n, 0#32, 0, true, 0, 0, 0, 0, 0, 0, 0, .tolerance, l⟩

theorem witness_BookReadsOnlyTell :
    [Instr.readCapacity 0 0 48, .readCapacity 0 47 1, .readAccount 0 31, .readBook 0 31 0 48, .readBook 0 0 47 1,
      .readOba 0, .readPeriod 0 1 none, .readPeriod 0 1 (some 31), .readPeriod 0 2 none].all (taken · s0) = true ∧
    [period 1 (List.replicate 32 ⟨0, 0, 0, 0⟩)].find? (·.number == 1) ≠ none ∧
    [period 1 []].find? (·.number == 2) = none := by decide +kernel

theorem witness_BookReadsOnlyTell_refused :
    let s : State := { s0 with su := { s0.su with lastNumber := 2, ring := [period 2 [⟨0, 0, 0, 0⟩]] } }
    [(Instr.readCapacity 0 48 0, 1), (.readCapacity 0 47 0, 2), (.readCapacity 0 47 2, 2), (.readCapacity 0 0 49, 2),
      (.readBook 0 31 48 0, 2), (.readBook 0 31 47 0, 3), (.readBook 0 31 1 48, 3), (.readPeriod 0 2 (some 1), 2),
      (.readPeriod 0 1 (some 32), 2)].all (fun (c, k) => replied c s == some (.badField, k)) = true ∧
    replied (.readPeriod 0 1 (some 31)) s = some (.noSuch, 0) ∧ replied (.readPeriod 0 3 none) s = some (.noSuch, 0) := by
  decide +kernel

theorem witness_WatchTripProfileReadsOnlyTell :
    [Instr.readWatch 0 23, .readNoticeState 0 none, .readNoticeState 0 (some 2), .readTrip 0, .readProfile 0 0 0,
      .readProfile 0 2 0, .identify 0].all (taken · s0) = true ∧ 0 * 224 < Group.site.size ∧
    replied (.readProfile 0 0 2) s0 = some (.badField, 2) ∧ Group.site.size ≤ 2 * 224 := by decide +kernel

theorem witness_BadIndexRefused :
    [Instr.readChannel 0 16, .loopCheckBegin 0 16 0, .loopCheckEnd 0 255, .readMeter 0 7, .setGasQuality 0 7 0,
      .cavernServiceIn 0 8, .cavernServiceOut 0 8 1, .cavernEnable 0 8, .cavernShut 0 8, .readCavern 0 8,
      .setMeritOrder 0 2 [], .readMeritOrder 0 2, .setDutyOrder 0 2 [], .unitMaintenance 0 6, .unitAvailable 0 6,
      .resetLockout 0 6, .setDuty 0 6 0, .readUnit 0 6, .trainOnline 0 4, .trainOffline 0 4, .forceSwitchover 0 4,
      .resetTower 0 4 0, .readTrain 0 4].all (taken · s0) = true ∧
    [Instr.openAccount 0 32 0 0 0 0 0, .loadInventory 0 32 0, .suspendAccount 0 32, .resumeAccount 0 32,
      .closeAccount 0 32, .setRights 0 32 0 0 0, .transfer 0 32 0 0, .readAccount 0 32, .readBook 0 32 0 1,
      .obaAdjust 0 32 1, .clearWatch 0 24, .readWatch 0 24, .setWatch 0 24 0 0 0 0 0 0 0 0 0 0 0, .ackNotice 0 3 [],
      .discardNotice 0 3, .testNotice 0 3, .readNoticeState 0 (some 3), .writeProfile 0 3 0 0 [0],
      .readProfile 0 3 0].all (taken · s0) = true := by decide +kernel

theorem witness_AbsentIndexRefused :
    [Instr.cavernServiceIn 0 7, .cavernServiceOut 0 7 1, .cavernEnable 0 7, .cavernShut 0 7, .unitMaintenance 0 5,
      .unitAvailable 0 5, .resetLockout 0 5, .setDuty 0 5 1, .trainOnline 0 3, .trainOffline 0 3, .forceSwitchover 0 3,
      .resetTower 0 3 1].all (taken · s0) = true ∧
    s0.cavDef 7 = none ∧ s0.unitDef 5 = none ∧ s0.trainDef 3 = none := by decide +kernel

/-! ### Measurement and time -/

theorem witness_ConversionRoundsHalfAwayFromZero :
    [3599, 3600, 3999, 4000, 20000, 20001, 21000, 21001].map (channelDef .pressure).convert =
      [none, some 0, some 0, some 0, some 25000, some 25000, some 25000, none] := by decide

theorem witness_OutOfRangeReadingHolds :
    s0.phase = .running ∧ s0.mu.pass ≠ .running ∧ s0.chanDef 15 = some (channelDef .generic) ∧
    (s0.chan 15).mode = .live ∧ (channelDef .generic).convert 3599 = none ∧ 15 < s0.mu.channels.length ∧
    (s0.chan 15).quality = .good ∧ ((withChan fun r => { r with quality := .held }).chan 4).quality ≠ .good ∧
    ((after (.channelReading 15 3599) s0).chan 15).quality = .held := by decide +kernel

theorem witness_ReadingsRestoreAndCheck :
    (channelDef .generic).convert 4000 = some 0 ∧ s0.chanDef 4 = some (channelDef .generic) ∧
    (let s := withChan fun r => { r with quality := .lost, good := 1 }
    (s.chan 4).quality ≠ .good ∧ (s.chan 4).good < 2) ∧
    (let s := withChan fun r => { r with quality := .lost, good := 2 }
    (s.chan 4).quality ≠ .good ∧ 2 ≤ (s.chan 4).good ∧
      ((after (.channelReading 4 4000) s).chan 4).quality = .good) ∧
    (let s := withChan fun r => { r with mode := .check, test := some 4000 }
    (s.chan 4).mode = .check ∧ (s.chan 4).test = some 4000 ∧
      ((after (.channelReading 4 0) s).chan 4).check = some (.value 0)) ∧
    State.reset.chanDef 4 = none := by decide +kernel

theorem witness_HoldsExpireAndPassesRun :
    (let s := withChan fun r => { r with quality := .held, hold := some 36000#32 }
    (s.chan 4).quality = .held ∧ due s.clock (s.chan 4).hold = true ∧
      ((after (.holdExpiry 4) s).chan 4).quality = .lost) ∧ (s0.chan 4).quality ≠ .held ∧
    ({ s0 with mu := { s0.mu with pass := .pending } } : State).mu.pass = .pending ∧ s0.mu.pass ≠ .pending ∧
    (let s := after .recalibrationBegin { s0 with mu := { s0.mu with pass := .pending } }
    s.mu.pass = .running ∧ (s.chan 0).passHeld = true ∧
      ((after .recalibrationComplete s).chan 0).quality = .good) := by decide +kernel

theorem witness_LoopChecksBeginAndEnd :
    let lost := withChan fun r => { r with quality := .lost }
    let held := withChan fun r => { r with quality := .held, passHeld := true }
    let check := withChan fun r => { r with mode := .check }
    (taken (.loopCheckBegin 0 4 25000) s0 = true ∧ s0.channelInUse 4 = none) ∧
    (taken (.loopCheckBegin 0 4 0) lost = true ∧ lost.channelInUse 4 = none ∧ (lost.chan 4).passHeld = false) ∧
    (taken (.loopCheckBegin 0 4 0) held = true ∧ held.channelInUse 4 = none ∧ (held.chan 4).passHeld = true) ∧
    (taken (.loopCheckEnd 0 4) check = true ∧ (check.chan 4).mode = .check) ∧
    (taken (.loopCheckBegin 0 4 0) State.reset = true ∧ State.reset.chanDef 4 = none) ∧
    (taken (.loopCheckEnd 0 4) s0 = true ∧ (s0.chan 4).mode = .live) ∧
    replied (.loopCheckBegin 0 0 0) s0 = some (.notAtRest, 0) ∧
    replied (.loopCheckBegin 0 0 25001) s0 = some (.badField, 2) := by decide +kernel

theorem witness_GasQualityValuesHeldVolume :
    (taken (.setGasQuality 0 6 8000) State.reset = true ∧ (State.reset.run 6).cv = 0) ∧
    (taken (.setGasQuality 0 6 13500) s0 = true ∧ (s0.run 6).cv ≠ 0) ∧ taken (.setGasQuality 0 6 0) s0 = true ∧
    taken (.setGasQuality 0 6 7999) s0 = true ∧ replied (.setGasQuality 0 6 13501) s0 = some (.badField, 2) := by
  decide +kernel

theorem witness_PulsesCountEnergyOrVolume :
    (s0.metered 6).isSome = true ∧ (s0.metered 1).isSome = true ∧ s0.metered 2 = none ∧ State.reset.metered 0 = none ∧
    (s0.run 1).cv ≠ 0 ∧ ((s0.updRun 1 fun r => { r with cv := 0 }).run 1).cv = 0 ∧
    due s0.clock ((s0.updRun 1 fun r => { r with zero := some 36000#32 }).run 1).zero = true ∧
    due s0.clock (s0.run 1).zero = false ∧
    (after (.meterPulse 1) s0).run 1 =
      { cv := 11250, acc := 112500, last := some 0, zero := some 36060#32 } := by decide +kernel

theorem witness_ClockCountsEverySecond :
    (s0.pending = [] ∧ s0.mu.ms % 1000 ≠ 999) ∧
    ({ s0 with mu := { s0.mu with ms := 999 } } : State).mu.ms % 1000 = 999 ∧
    s0.mu.source = .crystal ∧ (after .crystalStop s0).mu.source = .internal ∧
    (after .clockSecond { s0 with mu := { s0.mu with clock := 43199#32 } }).mu.boundaries = [⟨43200#32, false⟩] ∧
    (after .clockSecond { s0 with mu := { s0.mu with clock := 21599#32 } }).mu.boundaries = [⟨21600#32, true⟩] ∧
    (after .clockSecond { s0 with mu := { s0.mu with clock := 4294967295#32 } }).mu.boundaries = [⟨0#32, true⟩] ∧
    (after .clockSecond s0).mu.boundaries = [] ∧ ((after .clockSecond s0).unit 0).runSeconds = 1 := by decide +kernel

theorem witness_ClockIsSetOrTrimmed :
    taken (.setClock 0 4294967295) State.reset = true ∧ State.reset.mu.set = false ∧
    (taken (.setClock 0 36030) s0 = true ∧ s0.mu.set = true ∧ s0.maxTrim = 30) ∧
    replied (.setClock 0 36031) s0 = some (.badField, 1) ∧ replied (.setClock 0 35999) s0 = some (.wrongState, 0) ∧
    replied (.setClock 0 36030) s0 = some (.ok, 0) := by decide +kernel

theorem witness_BoundaryGoesToSettlementAndRotation :
    let b (d : Bool) : State := { s0 with mu := { s0.mu with boundaries := [⟨39600#32, d⟩] } }
    (b false).mu.boundaries = ⟨39600#32, false⟩ :: [] ∧ (b true).mu.boundaries = ⟨39600#32, true⟩ :: [] ∧
    (after (.periodBoundary true) (b true)).cdm.inject.order = [1, 0] ∧
    (after (.periodBoundary false) (b false)).su.current.isSome = true ∧ s0.cdm.boost.order = 4 :: [] := by
  decide +kernel

/-! ### Caverns -/

theorem witness_PermitsAndOutputsFollowRecord :
    let r : Cavern := { state := .injecting, quality := .held }
    (cavern.injPermit { r with pressure := 17000 }, cavern.injPermit { r with pressure := 17001 },
      cavern.injPermit { r with pressure := 18000 }) = (480000, 479520, 0) ∧
    cavern.injPermit { r with quality := .lost } = 0 ∧ s0.cavDef 0 = some cavern ∧ s0.cavDef 7 = none ∧
    s0.valveOutputs 0 = (true, false) ∧ s0.setpointOutput 0 = 4000 := by decide +kernel

theorem witness_CavernServiceAndEnable :
    let out := withCav fun r => { r with state := .outOfService, openLimit := false, closedLimit := true }
    (taken (.cavernServiceIn 0 0) out = true ∧ out.cavDef 0 = some cavern ∧ (out.cav 0).position = .closed ∧
      ((after (.cavernServiceIn 0 0) out).cav 0).state = .shut) ∧
    (taken (.cavernServiceOut 0 1 1) s0 = true ∧ (s0.cav 1).state = .shut) ∧
    taken (.cavernServiceOut 0 0 1) (withCav fun r => { r with state := .tripped }) = true ∧
    taken (.cavernServiceOut 0 0 1) (withCav fun r => { r with state := .valveFault }) = true ∧
    (taken (.cavernEnable 0 1) s0 = true ∧ s0.settling = false ∧ s0.tru.tripped = false ∧
      (s0.cav 1).quality = .good ∧ cavern.envelopeOf (s0.cav 1).pressure = .inside ∧
      ((after (.cavernEnable 0 1) s0).cav 1).state = .opening) ∧
    (taken (.cavernEnable 0 1) tripped = true ∧ tripped.tru.tripped = true) := by decide +kernel

theorem witness_CavernServiceAndEnable_refused :
    let out (f : Cavern → Cavern) := withCav fun r => f { r with state := .outOfService }
    let shut (f : Cavern → Cavern) := withCav fun r => f { r with state := .shut }
    [(Instr.cavernServiceIn 0 0, s0), (.cavernServiceOut 0 0 1, s0), (.cavernEnable 0 0, s0)].all
      (fun (c, s) => replied c s == some (.wrongState, 0)) = true ∧
    [(Instr.cavernServiceIn 0 0, out id), (.cavernEnable 0 0, shut fun r => { r with quality := .held }),
      (.cavernEnable 0 0, shut fun r => { r with quality := .lost }),
      (.cavernEnable 0 0, shut fun r => { r with envelope := .above }),
      (.cavernEnable 0 0, shut fun r => { r with pressure := 18201 }),
      (.cavernEnable 0 0, shut fun r => { r with pressure := 5799 })].all
      (fun (c, s) => replied c s == some (.notReady, 0)) = true ∧
    replied (.cavernServiceOut 0 0 2) s0 = some (.badField, 2) ∧
    replied (.cavernEnable 0 0) settling = some (.settling, 0) ∧
    replied (.cavernEnable 0 0) tripped = some (.tripped, 0) ∧
    [18200, 5800].all (fun p => replied (.cavernEnable 0 0) (shut fun r => { r with pressure := p }) ==
      some (.ok, 0)) = true := by decide +kernel

theorem witness_CavernShutAndMeritOrder :
    [CavernState.opening, .idle, .injecting, .withdrawing, .dwell, .shut, .closing, .outOfService, .tripped,
      .valveFault].all (fun st => taken (.cavernShut 0 0) (withCav fun r => { r with state := st })) = true ∧
    (after (.cavernShut 0 0) s0).cav 0 =
      { s0.cav 0 with
        state := .closing, target := some .shut, command := .driveClose, travel := some 36060#32, injPermit := 0
        wdPermit := 0 } ∧
    (taken (.setMeritOrder 0 1 [1, 0]) s0 = true ∧ s0.pst.caverns.live ≠ none ∧ [1, 0].Nodup ∧
      ∀ i ∈ [1, 0], s0.cavDef i ≠ none) ∧
    replied (.setMeritOrder 0 0 [0, 7]) s0 = some (.badField, 3) := by decide +kernel

theorem witness_CavernShutAndMeritOrder_refused :
    let invalid : State := { s0 with pst := { s0.pst with caverns := {} } }
    replied (.setMeritOrder 0 1 [7, 7]) invalid = some (.noSuch, 0) ∧ invalid.pst.caverns.live = none ∧
    replied (.setMeritOrder 0 1 [1, 8]) s0 = some (.badField, 3) ∧
    replied (.setMeritOrder 0 0 [0, 1, 0]) s0 = some (.badField, 4) := by decide +kernel

theorem witness_ValvePositionCompletesTravel :
    let opening := withCav fun r => { r with state := .opening, openLimit := false }
    let closing (t : Target) := withCav fun r => { r with state := .closing, target := some t, command := .driveClose }
    0 < s0.cvc.caverns.length ∧ (s0.cav 0).openLimit = true ∧ (s0.cav 0).closedLimit = false ∧
    (opening.cav 0).openLimit ≠ true ∧ ((after (.valveLimitChange 0 true false) opening).cav 0).state = .idle ∧
    (closing .shut |>.cav 0).openLimit ≠ false ∧
    ((after (.valveLimitChange 0 false true) (closing .shut)).cav 0).state = .shut ∧
    ((after (.valveLimitChange 0 false true) (closing .tripped)).cav 0).state = .tripped ∧
    ((after (.valveLimitChange 0 true true) s0).cav 0).travel = some 36060#32 := by decide +kernel

theorem witness_CavernDeadlinesExpire :
    let late (st : CavernState) (t : Option Target) :=
      withCav fun r => { r with state := st, target := t, travel := some 36000#32, openLimit := false }
    due s0.clock (late .opening none |>.cav 0).travel = true ∧ due s0.clock (s0.cav 0).travel = false ∧
    [(CavernState.opening, none), (.closing, some Target.shut), (.closing, some .tripped), (.idle, none),
      (.shut, none)].all (fun (st, t) =>
        ((after (.travelDeadlineExpiry 0) (late st t)).cav 0).state == .valveFault) = true ∧
    (late .dwell none |>.cav 0).position ≠ .opened ∧ (late .tripped none |>.cav 0).position ≠ .closed ∧
    (let s := withCav fun r => { r with state := .dwell, last := .inject, dwell := some 36000#32 }
    due s.clock (s.cav 0).dwell = true ∧ ((after (.dwellExpiry 0) s).cav 0).state = .idle) ∧
    due s0.clock (s0.cav 0).dwell = false := by decide +kernel

theorem witness_TripCommandActsByState :
    (s0.cav 0).state.isOpen = true ∧ (s0.cav 1).state = .shut ∧ (s0.cav 1).position = .closed ∧
    ({ s0.cav 1 with closedLimit := false } : Cavern).position ≠ .closed ∧
    ((s0.cav 0).trip true s0 cavern).state = .closing ∧ ((s0.cav 1).trip false s0 cavern).state = .tripped := by
  decide +kernel

/-! ### Compressors -/

theorem witness_MaintenanceAndLockoutReset :
    s0.unitDef 0 = some unit ∧
    [UnitState.off, .resting, .failed, .lockedOut, .maintenance, .starting, .running, .stopping].all (fun st =>
      let s := withUnit fun r => { r with state := st }
      taken (.unitMaintenance 0 0) s && taken (.resetLockout 0 0) s) = true ∧
    (let s := withUnit fun r => { r with state := .lockedOut, feedback := false, failures := 2 }
    ((after (.resetLockout 0 0) s).unit 0).state = .off ∧ ((after (.resetLockout 0 0) s).unit 0).failures = 0) ∧
    replied (.resetLockout 0 0) (withUnit fun r => { r with state := .lockedOut }) = some (.notReady, 0) ∧
    replied (.unitMaintenance 0 0) s0 = some (.wrongState, 0) := by decide +kernel

theorem witness_UnitReturnsAndDutiesChange :
    let m (x : Option Clk) := withUnit fun r =>
      { r with state := .maintenance, command := .stop, feedback := false, rest := x }
    (taken (.unitAvailable 0 0) (m (some 36001#32)) = true ∧ passed s0.clock 36001#32 = false) ∧
    (taken (.unitAvailable 0 0) (m none) = true ∧ (m none).settling = false) ∧
    ((after (.unitAvailable 0 0) (m (some 36001#32))).unit 0).state = .resting ∧
    ((after (.unitAvailable 0 0) (m (some 36000#32))).unit 0).state = .off ∧
    (taken (.setDuty 0 1 1) s0 = true ∧ (s0.unit 1).duty = .inject ∧ (s0.unit 1).state = .off ∧
      dutyOfCode 1 = some .boost ∧ (after (.setDuty 0 1 1) s0).cdm.boost.order = [4, 1]) ∧
    (taken (.setDuty 0 1 0) s0 = true ∧ dutyOfCode 0 = some .inject) ∧
    (taken (.setDutyOrder 0 0 [1, 0]) s0 = true ∧ s0.pst.plant.live ≠ none ∧ (s0.duty .inject).order = [0, 1]) ∧
    replied (.setDutyOrder 0 0 [1]) s0 = some (.badField, 3) := by decide +kernel

theorem witness_UnitReturnsAndDutiesChange_refused :
    let maintained := withUnit fun r => { r with state := .maintenance }
    let invalid : State := { s0 with pst := { s0.pst with plant := {} } }
    replied (.unitAvailable 0 0) settling = some (.settling, 0) ∧
    replied (.unitAvailable 0 0) s0 = some (.wrongState, 0) ∧
    replied (.unitAvailable 0 0) maintained = some (.notReady, 0) ∧ (maintained.unit 0).feedback = true ∧
    replied (.setDuty 0 0 1) s0 = some (.wrongState, 0) ∧ (s0.unit 0).state = .running ∧
    replied (.setDuty 0 0 2) s0 = some (.badField, 2) ∧
    replied (.setDutyOrder 0 0 [5]) invalid = some (.noSuch, 0) ∧ invalid.pst.plant.live = none ∧
    replied (.setDutyOrder 0 0 [0, 4]) s0 = some (.badField, 3) ∧
    replied (.setDutyOrder 0 0 [0, 1, 0]) s0 = some (.badField, 4) ∧
    replied (.setDutyOrder 0 0 [1]) s0 = some (.badField, 3) := by decide +kernel

theorem witness_RunningFeedbackActsByState :
    let on (st : UnitState) := withUnit fun r => { r with state := st, feedback := false }
    let off (st : UnitState) := withUnit fun r => { r with state := st }
    0 < s0.cdm.units.length ∧ (s0.unit 0).feedback = true ∧ ((on .off).unit 0).feedback ≠ true ∧
    [(UnitState.starting, UnitState.running), (.off, .lockedOut), (.resting, .lockedOut), (.failed, .lockedOut),
      (.stopping, .stopping), (.maintenance, .maintenance)].all (fun (a, b) =>
        ((after (.unitRunningInputChange 0 true) (on a)).unit 0).state == b) = true ∧
    [(UnitState.stopping, UnitState.resting), (.running, .lockedOut), (.maintenance, .maintenance)].all (fun (a, b) =>
      ((after (.unitRunningInputChange 0 false) (off a)).unit 0).state == b) = true := by decide +kernel

theorem witness_UnitDeadlinesExpire :
    let starting (n : Nat) :=
      withUnit fun r => { r with state := .starting, feedback := false, failures := n, start := some 36000#32 }
    let stopping (b : Bool) := withUnit fun r => { r with state := .stopping, feedback := b, stop := some 36000#32 }
    (due s0.clock ((starting 0).unit 0).start = true ∧
      ((after (.startDeadlineExpiry 0) (starting 0)).unit 0).state = .failed ∧
      ((after (.startDeadlineExpiry 0) (starting 1)).unit 0).state = .lockedOut) ∧
    (due s0.clock ((stopping true).unit 0).stop = true ∧
      ((after (.stopDeadlineExpiry 0) (stopping false)).unit 0).state = .resting ∧
      (after (.stopDeadlineExpiry 0) (stopping true)).tru.tripped = true ∧
      (stopExpired 0 (stopping true).ev).launches = [{ code := 0x060, unit := some 0 }]) ∧
    (let s := withUnit fun r => { r with state := .failed, rest := some 36000#32 }
    due s.clock (s.unit 0).rest = true ∧ ((after (.restDeadlineExpiry 0) s).unit 0).state = .off) ∧
    (let s := withUnit fun r => { r with history := [32400#32, 32401#32] }
    (s.unit 0).history = 32400#32 :: [32401#32] ∧ passed s.clock (32400#32 + 3600#32) = true ∧
      ((after (.startHistoryAgeOut 0) s).unit 0).history = [32401#32]) := by decide +kernel

theorem witness_PendingDeadlinesReview :
    let p : PendingTimer := ⟨36000#32, some 0, false⟩
    let start := s0.updDuty .inject fun q =>
      { q with demand := 400000, startPending := some { p with candidate := some 1 } }
    let stop := s0.updDuty .inject fun q => { q with stopPending := some p }
    (start.short .inject = true ∧ start.eligible .inject = some 1 ∧ start.unitDef 1 = some unit ∧
      passed start.clock p.deadline = true ∧ start.tru.tripped = false ∧ 1 < start.cdm.units.length) ∧
    ((stop.duty .inject).running.getLast? = some 0 ∧ (stop.unit 0).state = .running ∧
      (stop.duty .inject).demand + unit.rated ≤ stop.runningCapacity .inject ∧ (stop.unit 0).minRun = none) ∧
    ((after (.startPendingExpiry .inject) start).unit 1).state = .starting ∧
    ((after (.stopPendingExpiry .inject) stop).unit 0).state = .stopping ∧
    (let s := withUnit fun r => { r with minRun := some 36000#32 }
    due s.clock (s.unit 0).minRun = true ∧ (s.unit 0).minRunTaken = false ∧ 0 ∈ (s.duty (s.unit 0).duty).running) ∧
    tripped.tru.tripped = true ∧ ((review .inject tripped.ev).s.unit 0).state.counts = true := by decide +kernel

/-! ### Trains -/

theorem witness_TrainStateByTable :
    let t := s0.train 0
    (t.inService = true ∧ t.offSpec = false ∧ t.full train = false ∧ t.switch = none) ∧
    (t.updTower .a fun w => { w with loading := 200000 }).full train = true ∧
    ({ t with offSpec := true } : Train).state (some train) = .offSpec ∧
    ({ t with switch := some ⟨.b, 0#32⟩ } : Train).state (some train) = .switching := by decide +kernel

theorem witness_WaterChargeLosesNothing :
    ({ loading := 4294967295 } : Tower).loading ≤ 4294967295 ∧
    (({ loading := 4294967294 } : Tower).charge 10000000 1).loading = 4294967295 := by decide +kernel

theorem witness_TrainsGoOnlineOfflineAndSwitch :
    let down := withTrain fun t => { t with inService := false }
    let fault := withTrain (·.updTower .b fun w => { w with state := .fault })
    s0.trainDef 0 = some train ∧ s0.inCheck train.dewChannel = false ∧ s0.inCheck train.inletChannel = false ∧
    (s0.train 0).hasBed train = true ∧
    (taken (.trainOnline 0 0) s0 = true ∧ taken (.trainOnline 0 0) down = true ∧ (down.train 0).inService = false) ∧
    (taken (.trainOffline 0 0) s0 = true ∧ taken (.trainOffline 0 0) down = true) ∧
    (taken (.forceSwitchover 0 0) s0 = true ∧ (s0.train 0).switch = none ∧
      (s0.train 0).adsorbing = some (otherTower .b) ∧ ((s0.train 0).tower .b).state = .standby) ∧
    (taken (.resetTower 0 0 1) fault = true ∧ towerOfCode 1 = some .b ∧ ((fault.train 0).tower .b).state = .fault) ∧
    replied (.resetTower 0 0 1) s0 = some (.wrongState, 0) := by decide +kernel

theorem witness_TrainsGoOnlineOfflineAndSwitch_refused :
    let checked (ch : Nat) := s0.updChan ch fun r => { r with mode := .check }
    let noBed := withTrain fun t =>
      (t.updTower .a fun w => { w with loading := 200000 }).updTower .b fun w => { w with state := .cooling }
    let noTower := withTrain (·.updTower .a fun w => { w with state := .cooling })
    let switching := withTrain fun t => { t with switch := some ⟨.b, 36030#32⟩ }
    replied (.trainOnline 0 0) settling = some (.settling, 0) ∧
    [checked 2, checked 3, noBed].all (fun s => replied (.trainOnline 0 0) s == some (.notReady, 0)) = true ∧
    replied (.forceSwitchover 0 0) switching = some (.busy, 0) ∧
    [noBed, noTower].all (fun s => replied (.forceSwitchover 0 0) s == some (.notReady, 0)) = true ∧
    (noTower.train 0).adsorbing = none ∧ replied (.resetTower 0 0 2) s0 = some (.badField, 2) := by decide +kernel

theorem witness_SwitchesCompleteOrFail :
    let x : Switch := ⟨.b, 36000#32⟩
    let s := withTrain fun t => { t with switch := some x }
    ((s.train 0).tower .b).feedback = false ∧ ((s.train 0).tower .b).feedback ≠ true ∧ x.incoming = .b ∧
    0 < s.dtc.trains.length ∧ passed s.clock x.deadline = true ∧
    (((after (.towerFeedbackChange 0 .b true) s).train 0).tower .a).state = .regenerating ∧
    (((after (.towerFeedbackChange 0 .b true) s).train 0).tower .b).state = .adsorbing ∧
    (((after (.switchDeadlineExpiry 0) s).train 0).tower .b).state = .fault ∧
    (s0.train 0).switch.any (·.incoming == .b) = false := by decide +kernel

theorem witness_TowerStepsAndOffSpecExpire :
    let step (st : TowerState) := withTrain (·.updTower .b fun w => { w with state := st, step := some 36000#32 })
    let spec := withTrain fun t => { t with offSpecDeadline := some 36000#32 }
    let alone := spec.updTrain 0 (·.updTower .b fun w => { w with state := .fault })
    due s0.clock (((step .cooling).train 0).tower .b).step = true ∧
    (((after (.towerStepExpiry 0 .b) (step .regenerating)).train 0).tower .b).state = .cooling ∧
    (((after (.towerStepExpiry 0 .b) (step .cooling)).train 0).tower .b).state = .standby ∧
    (spec.train 0).inService = true ∧ due spec.clock (spec.train 0).offSpecDeadline = true ∧
    (spec.train 0).switchTarget = some .b ∧ (alone.train 0).switchTarget = none ∧
    (after (.offSpecExpiry 0) alone).trainState 0 = .offSpec := by decide +kernel

/-! ### Accounts and nominations -/

theorem witness_AccountsOpenSuspendAndClose :
    let suspended := withAccount fun r => { r with state := .suspended }
    let empty := withAccount fun r => { r with inventory := 0 }
    (taken (.openAccount 0 31 65535 1 4000000000 99999999 99999999) s0 = true ∧ (s0.account 31).state = .closed ∧
      s0.codeFree 31 65535 = true ∧ classOfCode 1 = some .interruptible) ∧
    [Instr.suspendAccount 0 0, .suspendAccount 0 31, .resumeAccount 0 0, .resumeAccount 0 31, .closeAccount 0 0,
      .closeAccount 0 31].all (taken · s0) = true ∧
    [Instr.suspendAccount 0 0, .resumeAccount 0 0].all (taken · suspended) = true ∧
    (taken (.closeAccount 0 0) empty = true ∧ (empty.account 0).inventory = 0 ∧
      (∀ j : Fin 48, ((empty.account 0).slot j).c = 0) ∧
      ((after (.closeAccount 0 0) empty).account 0).state = .closed) ∧
    replied (.closeAccount 0 0) s0 = some (.wrongState, 7) ∧
    replied (.closeAccount 0 31) s0 = some (.wrongState, 6) := by
  decide +kernel

theorem witness_AccountsOpenSuspendAndClose_refused :
    let promised := withAccount fun r => { r with inventory := 0, book := r.book.modify 47 fun x => { x with c := 1 } }
    replied (.openAccount 0 0 9 0 0 0 0) s0 = some (.wrongState, 0) ∧
    [(Instr.openAccount 0 31 0 2 0 0 0, 2), (.openAccount 0 31 65536 0 0 0 0, 2), (.openAccount 0 31 7 0 0 0 0, 2),
      (.openAccount 0 31 9 2 4000000001 0 0, 3), (.openAccount 0 31 9 1 4000000001 0 0, 4),
      (.openAccount 0 31 9 1 0 100000000 0, 5), (.openAccount 0 31 9 1 0 0 100000000, 6)].all
      (fun (c, k) => replied c s0 == some (.badField, k)) = true ∧
    replied (.closeAccount 0 0) promised = some (.wrongState, 47) := by decide +kernel

theorem witness_BookIsReadiedAndInventoriesMove :
    let unloaded : State := { s0 with acb := { s0.acb with loaded := false } }
    (taken (.accountsReady 0) State.reset = true ∧ State.reset.mu.set = false) ∧
    (taken (.accountsReady 0) s0 = true ∧ s0.acb.loaded = true) ∧
    (taken (.accountsReady 0) unloaded = true ∧ unloaded.mu.set = true) ∧
    (taken (.loadInventory 0 1 2000000) unloaded = true ∧ (unloaded.account 1).state ≠ .closed) ∧
    (taken (.setRights 0 0 300000 0 0) s0 = true ∧ (s0.account 0).inventory ≤ 300000 ∧
      (s0.account 0).inventory + ((s0.account 0).slot s0.acb.running).c ≤ 300000) ∧
    (taken (.transfer 0 0 1 300000) s0 = true ∧ (s0.account 0).state = .opened ∧ (s0.account 1).state = .opened ∧
      max 0 (-((s0.account 0).slot s0.acb.running).c) ≤ (s0.account 0).inventory - 300000 ∧
      ((moveInventory 0 1 300000 s0).s.account 1).inventory = 600000) := by decide +kernel

theorem witness_BookIsReadiedAndInventoriesMove_refused :
    let unloaded : State := { s0 with acb := { s0.acb with loaded := false } }
    let flowing (c : Int) (full : Nat) : State :=
      s0.updAccount 0 fun r => { r with space := full, book := r.book.modify 4 fun x => { x with c := c } }
    [(Instr.loadInventory 0 0 4000000001, s0, 2), (.setRights 0 0 4000000001 100000000 0, s0, 2),
      (.setRights 0 0 2000000 100000000 100000000, s0, 3), (.setRights 0 0 0 0 100000000, s0, 4),
      (.transfer 0 0 32 0, s0, 2), (.transfer 0 0 0 0, s0, 2), (.transfer 0 0 1 0, s0, 3),
      (.transfer 0 0 1 4000000001, s0, 3)].all (fun (c, s, k) => replied c s == some (.badField, k)) = true ∧
    [(Instr.loadInventory 0 0 1, s0), (.loadInventory 0 31 1, unloaded), (.setRights 0 31 4000000001 0 0, s0),
      (.transfer 0 0 31 1, s0), (.transfer 0 31 0 1, s0)].all
      (fun (c, s) => replied c s == some (.wrongState, 0)) = true ∧
    [(Instr.loadInventory 0 0 2000001, unloaded), (.setRights 0 0 299999 0 0, s0),
      (.setRights 0 0 300000 0 0, flowing 1 2000000), (.transfer 0 1 0 1, flowing 0 300000),
      (.transfer 0 1 0 1, flowing 1 300001)].all (fun (c, s) => replied c s == some (.noSpace, 0)) = true ∧
    replied (.transfer 0 0 1 300001) s0 = some (.insufficient, 0) ∧
    replied (.transfer 0 0 1 300000) (flowing (-1) 2000000) = some (.insufficient, 0) := by decide +kernel

theorem witness_NominationsAndCapacitiesTaken :
    (taken (.nominate 0 0 47 (-99999999)) s0 = true ∧ s0.acb.running + s0.leadTime ≤ 6 ∧
      ((after (.nominate 0 0 47 (-99999999)) s0).account 0).slot 47 = ⟨-99999999, true, -72000, .rate⟩) ∧
    (taken (.nominate 0 0 6 0) s0 = true ∧ taken (.nominate 0 0 5 0) s0 = true ∧ 5 < s0.acb.running + s0.leadTime) ∧
    (taken (.declareCapacity 0 5 0 0) s0 = true ∧ s0.acb.running < 5 ∧ taken (.declareCapacity 0 4 0 0) s0 = true ∧
      (after (.declareCapacity 0 47 0 99999999) s0).capSlot 47 = ⟨0, 99999999, true⟩) ∧
    (taken (.nominate 0 0 47 0) State.reset = true ∧ State.reset.mu.set = false) ∧
    taken (.readChanged 0) s0 = true := by decide +kernel

theorem witness_NominationsAndCapacitiesTaken_refused :
    [(Instr.nominate 0 32 48 0, 1), (.nominate 0 31 48 0, 2), (.nominate 0 31 47 100000000, 3),
      (.nominate 0 31 47 (-100000000), 3), (.declareCapacity 0 48 100000000 0, 1),
      (.declareCapacity 0 4 100000000 100000000, 2), (.declareCapacity 0 47 0 100000000, 3)].all
      (fun (c, k) => replied c s0 == some (.badField, k)) = true ∧
    replied (.nominate 0 31 0 0) s0 = some (.wrongState, 0) ∧
    replied (.nominate 0 32 0 0) State.reset = some (.clockUnset, 0) ∧
    replied (.declareCapacity 0 48 0 0) State.reset = some (.clockUnset, 0) := by decide +kernel

theorem witness_ConfirmationStaysWithinNomination :
    ({ openAccount with state := .suspended } : Account).confirm (some site) 5 0 = (0, .suspended) ∧
    openAccount.confirm (some site) 0 0 = (0, .none) ∧ openAccount.confirm none 120000 0 = (120000, .none) ∧
    openAccount.confirm none 120001 0 = (120000, .rate) ∧ openAccount.confirm none 5 1999999 = (1, .space) ∧
    openAccount.confirm none (-5) 1 = (-1, .inventory) := by decide

theorem witness_ProportionalReductionSharesTotal :
    0 < sumNat [25000, 0, 10000] ∧ proportional 7699 [25000, 0, 10000] = [5499, 0, 2200] ∧
    proportional 35000 [25000, 0, 10000] = [25000, 0, 10000] ∧ 32 * 99999999 * 99999999 < 2 ^ 63 := by decide

theorem witness_StationPassHoldsNetToCapacity :
    [AccountClass.firm, .interruptible].length = [((5 : Int), Reason.none), (5, .none)].length ∧
    stationPass ⟨5, 0, false⟩ [.firm, .interruptible] [(5, .none), (5, .none)] = [(5, .none), (0, .station)] ∧
    stationPass ⟨4, 0, false⟩ [.firm, .interruptible] [(5, .none), (5, .none)] = [(4, .station), (0, .station)] := by
  decide

/-! ### Planner and settlement -/

theorem witness_DispatchEnablesHoldsAndSteps :
    let active : State := { s0 with fpl := { s0.fpl with active := true } }
    let settling : State := { s0 with pst := { s0.pst with settle := some 36005#32 } }
    let timed (s : State) : State := { s with fpl := { s.fpl with dispatch := some 36000#32 } }
    (taken (.dispatchEnable 0) active = true ∧ taken (.dispatchHold 0) active = true) ∧
    (taken (.dispatchEnable 0) settling = true ∧ settling.settling = true) ∧
    (taken (.dispatchEnable 0) tripped = true ∧ tripped.settling = false) ∧
    (taken (.dispatchEnable 0) s0 = true ∧ s0.pst.site.live ≠ none ∧ s0.pst.caverns.live ≠ none ∧
      s0.pst.plant.live ≠ none ∧ (after (.dispatchEnable 0) s0).fpl.active = true) ∧
    taken (.dispatchHold 0) s0 = true ∧ due s0.clock (timed s0).fpl.dispatch = true ∧
    (after .dispatchIntervalExpiry (timed active)).fpl.lastStep = some (36000#32, .interval) ∧
    due s0.clock s0.fpl.dispatch = false := by decide +kernel

theorem witness_PlannerStepFollowsFigures :
    (s0.acb.loaded = true ∧ s0.mu.set = true) ∧ (State.reset.acb.loaded = false) ∧
    (let s := s0.updAccount 0 fun r => { r with book := r.book.modify 4 fun x => { x with c := -90000 } }
    let p := (activeStep .interval s.ev).s
    p.fpl.figures.map Figures.required = some (-90000) ∧ p.fpl.setpoint = -90000 ∧ (p.cav 0).setpoint = -90000 ∧
      (p.cav 0).state = .withdrawing) := by decide +kernel

theorem witness_WalkPlacesWithinPermitsAndPool :
    (s0.walk false 500000 (some 7)).orders = [(0, .rate (-480000))] ∧ (s0.walk false 500000 (some 7)).pool = some 7 ∧
    (let low := withCav fun r => { r with pressure := 7000 }
    (low.walk false 500000 (some 7)).orders = [(0, .rate (-7))] ∧ (low.walk false 500000 (some 7)).remaining = 499993 ∧
      (low.walk false 500000 (some 7)).pool = some 0) := by decide +kernel

theorem witness_CloseCaseAndAllocations :
    let one (c : Int) : List Account := [shipper .firm c 0]
    (settle 500 1000 0 500 0 0 (one 1000) 0).case = .tolerance ∧
    (settle 500 1000 0 499 0 0 (one 1000) 0).case = .shortInject ∧
    (settle 500 1000 0 0 499 0 (one (-1000)) 0).case = .shortWithdraw ∧
    (settle 500 1000 0 1501 0 0 (one 1000) 0).case = .oba ∧
    (settle 500 1000 1000 1001 0 0 (one 1000) 0).case = .oba := by decide +kernel

theorem witness_EveryCloseBalances :
    (settle 0 0 0 10 0 3 [shipper .firm 10 0] 0).fuel = [3] ∧
    (settle 0 0 0 0 10 3 [shipper .firm (-10) 11] 0).fuel = [1] ∧
    (settle 0 0 0 0 10 3 [shipper .firm (-10) 11] 0).obaFuel = 2 := by decide +kernel

theorem witness_SettlementEventsApply :
    let s := after (.periodBoundary false)
      { s0 with mu := { s0.mu with boundaries := [⟨39600#32, false⟩] }, acb := { s0.acb with accounts := [] } }
    (taken (.obaAdjust 0 0 1700000) s0 = true ∧
      (s0.account 0).inventory + 1700000 + max 0 ((s0.account 0).slot s0.acb.running).c ≤ (s0.account 0).space ∧
      replied (.obaAdjust 0 0 1700001) s0 = some (.noSpace, 0)) ∧
    (taken (.obaAdjust 0 0 (-300000)) s0 = true ∧
      max 0 (-((s0.account 0).slot s0.acb.running).c) ≤ (s0.account 0).inventory + -300000) ∧
    (s0.acb.loaded = true ∧ s0.su.openStart = some 36000#32 ∧ s0.su.current = none ∧ s0.su.due = []) ∧
    s.su.current.isSome = true ∧ (after .closeComplete s).su.current = none ∧
    (after .closeComplete s).su.ring.map PeriodRecord.number = [1] ∧ (after .closeComplete s).acb.running = 5 := by
  decide +kernel

theorem witness_SettlementEventsApply_refused :
    replied (.obaAdjust 0 0 0) s0 = some (.badField, 2) ∧
    replied (.obaAdjust 0 0 (-4000000001)) s0 = some (.badField, 2) ∧
    replied (.obaAdjust 0 31 1) s0 = some (.wrongState, 0) ∧
    replied (.obaAdjust 0 0 (-300001)) s0 = some (.insufficient, 0) ∧
    replied (.obaAdjust 0 0 1700001) s0 = some (.noSpace, 0) := by decide +kernel

/-! ### Watches, notices and trips -/

/-- A watch that fires when anything is said to have happened to channel 4. -/
def watchFields : WatchFields :=
  { kind := 0, index := 4, event := 0, filter := 255, condition := 3, threshold := 9999999999, hysteresis := 0
    channel := 2, action := 0, hostCode := 0xFFF, mode := 0 }

/-- SET_WATCH of watch 23 with these fields. -/
def setWatch : Instr := .setWatch 0 23 0 4 0 255 3 9999999999 0 2 0 0xFFF 0

/-- The same part with watch 3 fired, its flag set, reporting to channel N1. -/
def fired : State :=
  let d : WatchDef := ⟨.channel 4, .isAbove, 0, 0, some 0, .notify, 0x800, true⟩
  s0.updWatch 3 fun _ => { defn := some d, state := .fired, fired := true }

theorem witness_WatchesSetClearedAndAwaited :
    (taken setWatch s0 = true ∧ (watchFields.verdicts 23).all Prod.snd = true ∧
      s0.sourceGone watchFields.source = false ∧ s0.sourceInCheck watchFields.source = false) ∧
    (taken (.setWatch 0 23 1 7 0 255 3 0 0 2 0 0x800 0) s0 = true ∧ s0.sourceGone (.cavernPressure 7) = true) ∧
    (taken (.clearWatch 0 23) s0 = true ∧ taken (.readWatches 0) s0 = true) ∧
    (taken (.awaitFlags 0 8 3600) fired = true ∧ fired.flags &&& 8 ≠ 0) ∧
    (taken (.awaitFlags 0 16777215 1) s0 = true ∧ s0.flags &&& 16777215 = 0) ∧
    (let s := after (.awaitFlags 0 16777215 1) s0
    s.slu.queue.map QEntry.state = [.waitingFlags 16777215 36001#32] ∧ passed s.clock 36001#32 = false ∧
      (after (.awaitFlagsTimeout 0) { s with mu := { s.mu with clock := 36001#32 } }).slu.order.length = 1) ∧
    replied (.awaitFlags 0 0 0) s0 = some (.badField, 1) ∧
    [0, 3601].all (fun d => replied (.awaitFlags 0 1 d) s0 == some (.badField, 2)) = true := by
  decide +kernel

theorem witness_WatchConditionTable :
    let armed := s0.updWatch 3 fun _ => { defn := some (watchFields.defn), state := .armed }
    (fired.watch 3).state ≠ .armed ∧ (fired.watch 3).defn.isSome = true ∧
    (armed.watch 3).state = .armed ∧ (armed.watch 3).defn = some watchFields.defn ∧
    watchFields.defn.evaluate none 9999999999 = (none, false) ∧ watchFields.defn.evaluate none 10000000000 = (none, true) ∧
    (· == WatchSource.channel 4) watchFields.defn.source = true := by decide +kernel

theorem witness_NoticesJoinedAndAcknowledged :
    let pending := after (.testNotice 0 0) s0
    let sent := after .noticeSent pending
    (taken (.ackNotice 9 0 [3]) (fired.updNotice 0 fun c => { c with state := .outstanding }) = true ∧
      (∀ w ∈ [3], w < 24) ∧ [3].Nodup) ∧
    [Instr.holdNotices 0, .releaseNotices 0, .discardNotice 0 2, .testNotice 0 2].all (taken · s0) = true ∧
    (pending.notice 0).state = .pending ∧ (sent.notice 0).state = .outstanding ∧
    taken (.discardNotice 0 0) (s0.updNotice 0 fun c => { c with state := .pending }) = true ∧
    (after (.ackNotice 9 0 [3]) (fired.updNotice 0 fun c => { c with state := .outstanding })).watch 3 =
      { fired.watch 3 with state := .armed } := by decide +kernel

theorem witness_NoticesJoinedAndAcknowledged_refused :
    replied (.ackNotice 0 2 [23, 24]) s0 = some (.badField, 3) ∧
    replied (.ackNotice 0 2 [3, 4, 3]) s0 = some (.badField, 4) ∧
    replied (.ackNotice 0 2 [3]) s0 = some (.wrongState, 0) ∧
    replied (.discardNotice 0 2) (s0.updNotice 2 fun c => { c with state := .outstanding }) =
      some (.wrongState, 0) := by decide +kernel

theorem witness_NoticeListJoins :
    let full : NoticeList := { entries := (List.range 8).map fun i => ⟨.watch i, 0x800, 0#32, 255⟩ }
    (full.join (.watch 7) 0x800 5#32) = full ∧ full.entries.length = 8 ∧ (full.join .test 0 5#32).overflow = true ∧
    (({} : NoticeList).join .test 0 5#32).entries = [⟨.test, 0, 5#32, 1⟩] := by decide +kernel

theorem witness_TripRecordPlacement :
    let r (a : Bool) : TripRecord :=
      { (tripped.tru.current.getD ⟨0, none, 0#32, none, a, [], s0.snapshot⟩) with acknowledged := a }
    (s0.tru.current = none ∧ (s0.tru.place (r false)).cascade = 0) ∧
    (({ tripped.tru with cascade := 255 } : Tru).place (r false)).cascade = 255 ∧
    (tripped.tru.place (r false)).prior = tripped.tru.current ∧
    (({ tripped.tru with current := some (r true) } : Tru).place (r false)).prior = none := by decide +kernel

theorem witness_ClearTripByConditions :
    let above := { tripped with tru := { tripped.tru with headerAbove := true } }
    let esd := { tripped with tru := { tripped.tru with esd := true } }
    let lost := tripped.updChan 5 fun r => { r with quality := .lost }
    let out := tripped.updCav 1 fun r => { r with envelope := .below }
    let stopping := tripped.updUnit 4 fun r => { r with state := .stopping }
    [s0, tripped, above, esd, lost, out, stopping].all (taken (.clearTrip 0)) = true ∧
    replied (.clearTrip 0) s0 = some (.noSuch, 0) ∧ replied (.clearTrip 0) esd = some (.wrongState, 1) ∧
    replied (.clearTrip 0) lost = some (.wrongState, 2) ∧ replied (.clearTrip 0) above = some (.wrongState, 3) ∧
    replied (.clearTrip 0) out = some (.wrongState, 1) ∧ replied (.clearTrip 0) stopping = some (.wrongState, 4) ∧
    (after (.clearTrip 0) tripped).tru.tripped = false ∧ tripped.headerChannel = some 5 ∧
    (after (.clearTrip 0) (after (.clearTrip 0) tripped)).tru.cascade = 0 := by decide +kernel

theorem witness_StationTripStopsTheStation :
    let s := after (.esdInputChange true) (withCav fun r => { r with state := .withdrawing, setpoint := -1000 })
    s0.tru.esd = false ∧ s.tru.esd = true ∧ s.tru.tripped = true ∧ (s.cav 0).state = .closing ∧
    (s.cav 0).target = some .tripped ∧ (s.unit 0).state = .stopping ∧
    s.tru.current.map (fun r => (r.code, r.snapshot.caverns.map fun c => c.map Prod.fst)) =
      some (0x010, [some .withdrawing, some .shut] ++ List.replicate 6 none) ∧
    (s.notice 0).list.entries.map NoticeEntry.source = [.trip 0x010] ∧ s0.cdm.units.length = 6 := by decide +kernel

/-! ### Profiles, starts and the link -/

/-- The bytes of the SITE group in force. -/
def siteBytes : List Byte := (s0.groupBytes .site).getD []

/-- The first segment of a SITE write staged. -/
def staged : State := s0.setStaging (some { group := .site, next := 1, bytes := siteBytes.take 224 })

theorem witness_ProfileWritesStageApplyAndCommit :
    let last : Instr := .writeProfile 0 0 1 1 (siteBytes.drop 224)
    siteBytes.length = 265 ∧
    (taken (.writeProfile 0 Group.site.code 0 0 (siteBytes.take 224)) s0 = true ∧ (siteBytes.take 224).length ≤ 265) ∧
    (taken (.writeProfile 0 Group.site.code 1 0 [0]) staged = true ∧ staged.pst.staging.map Staging.next = some 1) ∧
    (taken (.writeProfile 0 Group.site.code 15 0 [0]) s0 = true ∧ s0.pst.staging = none) ∧
    (taken last staged = true ∧
      judgeWrite (staged.setStaging none) .site (siteBytes.take 224 ++ siteBytes.drop 224) = none) ∧
    (after last staged).pst.site.live = some site ∧ (after last staged).pst.writing = some .site ∧
    (after (.commitComplete true) (after last staged)).pst.site.commit = some .committed ∧
    (after (.commitComplete false) (after last staged)).pst.site.commit = some .failed ∧
    due s0.clock (some 36000#32) = true := by decide +kernel

theorem witness_StartsBeginAndComplete :
    let off : State := { s0 with phase := .off }
    let held : State := { s0 with phase := .held true, resetInput := true }
    off.resetInput = false ∧ held.phase = .held true ∧ (after .mainSupplyUp off).phase = .starting true ∧
    (after .mainSupplyUp off).pst.startKind = .retained ∧ (after .resetInputReleased held).phase = .starting true ∧
    (after .startComplete (after .mainSupplyUp off)).phase = .running ∧ s0.phase = .running ∧
    (after .backupSupplyLost off).pst.mark = false := by decide +kernel

theorem witness_RequestBodyReadsBack :
    [Instr.nominate 255 31 47 (-99999999), setWatch, .readPeriod 1 4294967295 none, .readPeriod 1 0 (some 31),
      .setMeritOrder 0 1 [7, 0], .writeProfile 0 2 15 1 [0xFF#8], .obaAdjust 3 31 (-4000000000),
      .cavernServiceOut 0 7 255].all (fun c =>
        c.wellFormed && c.kind.any fun k => decodeRequest k c.tag c.body == some c) = true := by decide +kernel

theorem witness_RequestBytesReachTheQueue :
    let c : Instr := .nominate 7 1 6 (-5)
    let bytes := frameBytes 0x30 c.tag c.body
    c.wellFormed = true ∧ c.kind = some 0x30 ∧ s0.slu.receiver = .hunting ∧ s0.slu.queue.length < 4 ∧
    bytes.length = 12 ∧
    (match core.run (bytes.length + 1) { s0 with pending := bytes.map Instr.byteReceived ++ [.frameReceived] } with
      | .next t => t.slu.queue
      | .fault _ | .refused _ => []) = [entry c] := by decide +kernel

theorem witness_LineEventsGatherGrantAndFree :
    let gathering (n : Nat) : State :=
      { s0 with mu := { s0.mu with ms := 1011 }, slu := { receiver := .inFrame [0#8] n } }
    let whole : State := { s0 with slu := { receiver := .inFrame (List.replicate 5 0#8) 0 } }
    let answered := after (.readDuty 0) s0
    let sending := after .replyGrant answered
    let reset := after .replyGrant (after (.resetController 0) s0)
    (s0.slu.receiver = .hunting ∧ frameWhole [0#8] = false) ∧
    ((gathering 1001).mu.ms ≤ 1001 + 10 ∧ 1000 + 10 < (gathering 1000).mu.ms) ∧
    (frameWhole (List.replicate 5 0#8) = true ∧ frameParts (List.replicate 5 0#8) = none ∧
      (after .frameReceived whole).slu.receiver = .hunting) ∧
    (answered.slu.sending = none ∧ answered.slu.order.length = 1 ∧ answered.offered 0 = false) ∧
    (s0.updNotice 2 fun c => { c with state := .pending }).noticeChosen = some 2 ∧
    (sending.slu.sending.isSome = true ∧ sending.slu.resetReply = none ∧ sending.slu.newRates = [] ∧
      (after .telegramComplete sending).slu.queue = []) ∧
    (reset.slu.resetPending = true ∧ reset.slu.resetReply = some 0 ∧
      (after .telegramComplete reset).phase = .starting false) ∧ taken (.resetController 0) s0 = true := by
  decide +kernel

theorem witness_EveryStepKeepsLaws :
    SizeLaw s0 ∧ TripLaw s0 ∧ TripLaw tripped ∧ tripped.tru.tripped = true ∧
    (let s : State := { s0 with pending := [.dispatchEnable 0] }
    (match step s with
      | .next t => some (t.fpl.active, t.slu.queue.length)
      | .fault _ | .refused _ => none) = some (true, 1)) := by
  refine ⟨?_, ?_, ?_, ?_, ?_⟩ <;> first | decide +kernel | (unfold SizeLaw; decide +kernel) |
    (unfold TripLaw; decide +kernel)

theorem witness_FamiliesLeaveOtherBlocksAlone :
    (Instr.cavernShut 0 0).flowOnly = true ∧ (Instr.meterPulse 1).gasOnly = true ∧
    (Instr.transfer 0 0 1 5).bookOnly = true ∧
    setWatch.watchOnly = true ∧ Instr.replyGrant.lineOnly = true := by decide

/-! ### The further clauses of the statements: their hypotheses are met, at the ends of their ranges -/

theorem witness_LoopCheckRefusals :
    let check := withChan fun r => { r with mode := .check }
    let last := { s0 with
      cvc := { s0.cvc with caverns := List.replicate 7 { present := true, state := .shut } ++ [{ state := .idle }] }
      pst := { s0.pst with caverns := { live := some (List.replicate 8 { cavern with channel := some 4 }) } } }
    (taken (.loopCheckBegin 0 4 25000) check = true ∧ check.chanDef 4 = some (channelDef .generic) ∧
      (check.chan 4).mode = .check ∧ replied (.loopCheckBegin 0 4 25000) check = some (.wrongState, 0)) ∧
    (taken (.loopCheckBegin 0 4 0) last = true ∧ (last.cav 7).state = .idle ∧ (last.cav 6).state = .shut ∧
      last.channelInUse 4 = some ⟨.cavern, 7⟩ ∧ replied (.loopCheckBegin 0 4 0) last = some (.notAtRest, 7)) ∧
    (taken (.loopCheckBegin 0 2 0) s0 = true ∧ cavernsOn 2 s0 = [] ∧ s0.trainState 0 ≠ .offline ∧
      s0.channelInUse 2 = some ⟨.train, 0⟩ ∧ replied (.loopCheckBegin 0 2 0) s0 = some (.notAtRest, 0)) ∧
    s0.channelInUse 1 = none := by decide +kernel

theorem witness_NewValueReachesConsumers :
    let high := newValue 5 14001 s0.ev
    let above := newValue 0 18201 s0.ev
    let below := newValue 0 5799 s0.ev
    let wet := newValue 2 (-799) s0.ev
    let off := withTrain fun t => { t with offSpec := true }
    (s0.cavDef 0 = some cavern ∧ cavern.channel = some 0 ∧ (s0.cav 0).state ≠ .outOfService) ∧
    above.launches = [{ code := 0x020, scope := some 0 }] ∧ below.launches = [{ code := 0x030, scope := some 0 }] ∧
    (newValue 0 18200 s0.ev).launches = [] ∧ (newValue 0 5800 s0.ev).launches = [] ∧
    (newValue 0 7999 s0.ev).restep = true ∧ (newValue 0 12001 s0.ev).restep = false ∧
    (wet.s.train 0).offSpecDeadline = some 36300#32 ∧ ((newValue 2 (-800) s0.ev).s.train 0).offSpecDeadline = none ∧
    ((newValue 2 (-1000) off.ev).s.train 0).offSpec = false ∧ ((newValue 2 (-999) off.ev).s.train 0).offSpec = true ∧
    (high.s.tru.headerAbove = true ∧ high.launches = [{ code := 0x040 }] ∧ high.s.fpl.header = 14001) ∧
    (newValue 5 14000 s0.ev).s.tru.headerAbove = false ∧ s0.headerChannel = some 5 := by decide +kernel

theorem witness_QualityChangeReachesConsumers :
    let lost (ch : Nat) := s0.updChan ch fun r => { r with quality := .lost }
    ((qualityChange 0 (lost 0).ev).s.cav 0).injPermit = 0 ∧ (qualityChange 0 (lost 0).ev).restep = true ∧
    ((qualityChange 2 (lost 2).ev).s.train 0).offSpec = true ∧ s0.trainDef 0 = some train ∧ train.dewChannel = 2 ∧
    (qualityChange 5 (lost 5).ev).s.fpl.headerQuality = .lost ∧ 0 < s0.dtc.trains.length ∧
    0 < s0.cvc.caverns.length := by decide +kernel

theorem witness_MeterPulseForms :
    let timed (t : Nat) : State :=
      { s0.updRun 1 (fun r => { r with last := some 0 }) with mu :=
        { (s0.updRun 1 fun r => { r with last := some 0 }).mu with ms := t } }
    let v := (Site.fields { site with runs := site.runs.map fun d => { d with weight := 20 } } false)
    (s0.runDef 1).any (fun d => d.dir == some .withdraw && d.train == some 0) = true ∧
    (s0.runDef 0).any (fun d => d.dir == some .inject && d.train == none) = true ∧
    ((after (.meterPulse 1) (timed 1000)).run 1).rate = 40500 ∧
    ((after (.meterPulse 1) (timed 0)).run 1).rate = 40500000 ∧ rateOf 1000000 1 = 99999999 ∧
    ((after (.meterPulse 1) s0).train 0).towerA.residue = 3950000 ∧
    (setRate 1 0 s0.ev = s0.ev ∧ (s0.run 1).rate = 0) ∧
    (((applyWrite .site (site.fields false) (timed 5).ev).s.run 1).last = some 0 ∧
      ((applyWrite .site v (timed 5).ev).s.run 1).last = none) ∧
    s0.site = some site ∧ site.runs[1]? = some ⟨some .withdraw, 10, some 0, 60⟩ := by decide +kernel

theorem witness_ClockSetMovesAndTrimRaises :
    let unset : State := { s0 with mu := { s0.mu with set := false }, fpl := { s0.fpl with dispatch := some 36010#32 } }
    let late (n : Nat) : State := { s0 with mu := { s0.mu with clock := BitVec.ofNat 32 n } }
    let set (n : Nat) := after (.setClock 0 n) unset
    (taken (.setClock 0 21599) unset = true ∧ unset.mu.set = false) ∧
    (set 21599).fpl.dispatch = some 21609#32 ∧ (set 21599).acb.running = 5 ∧ (set 21600).acb.running = 0 ∧
    (set 4294967295).su.openStart = some 4294965600#32 ∧
    (after (.setClock 0 39600) (late 39570)).mu.boundaries = [⟨39600#32, false⟩] ∧
    (after (.setClock 0 39599) (late 39570)).mu.boundaries = [] ∧
    (after (.setClock 0 0) (late 4294967270)).mu.boundaries = [⟨0#32, true⟩] ∧
    (after (.setClock 0 36000) (late 36030)).mu.boundaries = [] := by decide +kernel

theorem witness_CavernsWriteFits :
    let v := (List.range 8).flatMap fun c => CavernDef.fields
      (if c = 1 then { cavern with channel := some 0 } else if c = 2 then { cavern with channel := none }
        else if c = 7 then cavern else {})
    let x := (applyWrite .caverns v s0.ev).s
    let l := cavernsOf v
    ((l.getD 0 {}).present = false ∧ (x.cav 0).state = .outOfService) ∧
    ((l.getD 2 {}).channel = none ∧ (x.cav 2).quality = .lost ∧ (x.cav 2).present = true) ∧
    ((s0.cav 7).present = false ∧ (x.cav 7).state = .outOfService ∧ (x.cav 7).pressure = 12000) ∧
    ((s0.cav 1).state = .shut ∧ (x.cav 1).state = .shut) ∧
    x.cvc.injMerit = [1, 2, 7] ∧ x.cvc.wdMerit = [1, 2, 7] := by decide +kernel

theorem witness_PlantWriteFits :
    let v := Plant.fields
      { plant with units := [{}, unit, unit, { unit with duty := .boost }, {}, {}], trains := [{}, train, {}, {}] }
    let s := s0.updUnit 3 fun r => { r with feedback := true }
    let switching := s.updTrain 0 fun t =>
      { t with switch := some ⟨.b, 5#32⟩, towerB := { t.towerB with inletOpen := true } }
    let kept := applyWrite .plant plant.fields s0.ev
    let x := applyWrite .plant v switching.ev
    (x.s.unit 0).state = .maintenance ∧ x.s.unit 1 = s0.unit 1 ∧ (x.s.unit 2).state = .off ∧
    (s.unit 3).present = false ∧ (x.s.unit 3).state = .lockedOut ∧
    x.raised.contains ⟨.unitLockedOut, some 3, .cause .uncommanded⟩ = true ∧
    (x.s.duty .inject).order = [1, 2] ∧ (x.s.duty .boost).order = [3] ∧
    (x.s.train 0).towerB.inletOpen = false ∧ (x.s.train 1).towerA.step = some 50400#32 ∧
    kept.s.train 0 = s0.train 0 ∧ (switching.train 0).switch.isSome = true := by decide +kernel

theorem witness_FeedbackFindsTimers :
    let t (c : Option Nat) := s0.updDuty .inject fun q => { q with stopPending := some ⟨36600#32, c, false⟩ }
    let lost (c : Option Nat) := after (.unitRunningInputChange 0 false) (t c)
    (lost (some 0)).cdm.inject.stopPending = none ∧ (s0.unit 0).state = .running ∧
    (lost (some 0)).unit 0 = { s0.unit 0 with feedback := false, state := .lockedOut, command := .stop } ∧
    (lost (some 0)).cdm.inject.running = [] ∧ s0.unitDef 0 = some unit := by decide +kernel

/-- Two units run on no demand: the stop of the second times the surplus that is left afresh against the first (R53). -/
theorem witness_StopTimesTheRestAfresh :
    let two := (s0.updUnit 1 fun r => { r with state := .running, command := .run, feedback := true }).updDuty .inject
      fun q => { q with running := [0, 1], stopPending := some ⟨36000#32, some 1, false⟩ }
    let needed := two.updDuty .inject fun q => { q with demand := 1 }
    ((two.duty .inject).running.getLast? = some 1 ∧ two.unitDef 1 = some unit ∧
      (two.duty .inject).demand + unit.rated ≤ two.runningCapacity .inject) ∧
    ((reviewStop .inject two.ev).s.unit 1).state = .stopping ∧
    (reviewStop .inject two.ev).s.cdm.inject.stopPending = some ⟨36600#32, some 0, false⟩ ∧
    ((reviewStop .inject needed.ev).s.unit 1).state = .stopping ∧
    (reviewStop .inject needed.ev).s.cdm.inject.stopPending = none := by decide +kernel

theorem witness_HandOffForms :
    let dry := withTrain (·.updTower .a fun w => { w with state := .cooling })
    let lost := s0.updChan 3 fun r => { r with quality := .lost }
    let near := withTrain (·.updTower .a fun w => { w with loading := 179999 })
    handOff 1 500 s0.ev = s0.ev ∧ s0.trainDef 1 = none ∧
    ((dry.train 0).adsorbing = none ∧ (handOff 0 500 dry.ev).raised = [⟨.wetGas, some 0, .none⟩]) ∧
    lost.waterFactor train = 124 ∧ s0.waterFactor train = 124 ∧ (∀ p ∈ s0.waterTable, 0 ≤ p.2) ∧ s0.waterTable ≠ [] ∧
    ((near.train 0).adsorbing = some .a ∧
      ((handOff 0 10000000 near.ev).s.train 0).switch = some ⟨.b, 36030#32⟩) := by decide +kernel

theorem witness_TrainComesIntoService :
    let down (f : Train → Train) := withTrain fun t => f { t with inService := false }
    let full := down (·.updTower .a fun w => { w with loading := 200000 })
    let shown := full.updTrain 0 (·.updTower .b fun w => { w with feedback := true })
    let dew (s : State) := s.updChan 2 fun r => { r with quality := .lost }
    let beds := down (·.updTower .a fun w => { w with state := .standby, loading := 0 })
    let on (s : State) := (intoService 0 train s.ev).s
    ((on full).train 0).switch = some ⟨.b, 36030#32⟩ ∧ ((on full).train 0).towerB.inletOpen = true ∧
    ((on shown).train 0).towerB.state = .adsorbing ∧ ((on shown).train 0).towerA.state = .regenerating ∧
    ((on beds).train 0).towerA.state = .adsorbing ∧ (intoService 0 train (dew (down id)).ev).restep = false ∧
    ((on (dew (down id))).train 0).offSpec = true ∧ (intoService 0 train (down id).ev).restep = true ∧
    (beginSwitch 0 train .b s0.ev).s.train 0 =
      { s0.train 0 with
        switch := some ⟨.b, 36030#32⟩, towerB := { (s0.train 0).towerB with inletOpen := true } } := by decide +kernel

theorem witness_CheckSwitchAtThePoint :
    let at' (n : Nat) := withTrain (·.updTower .a fun w => { w with loading := n })
    (at' 180000).dtc.trains.length = 4 ∧ ((at' 180000).train 0).switchTarget = some .b ∧
    (checkSwitch 0 train (at' 180000).ev).s.train 0 ≠ (at' 180000).train 0 ∧
    checkSwitch 0 train (at' 179999).ev = (at' 179999).ev ∧ train.water * train.fraction / 1000 = 180000 := by
  decide +kernel

theorem witness_SiteReachesBook :
    let written (f : Site → Site) : State := { s0 with pst := { s0.pst with site := { live := some (f site) } } }
    let unloaded (f : Site → Site) : State := { written f with acb := { s0.acb with loaded := false } }
    let invalid : State := { s0 with pst := { s0.pst with site := {} } }
    let less := (siteToBook (some site) false (written fun p => { p with nomInj := 5 }).ev).s
    let hour := (siteToBook (some site) true (unloaded fun p => { p with startHour := 9 }).ev).s
    siteToBook (some site) false s0.ev = s0.ev ∧
    (less.capSlot 4).inj = 800000 ∧ (less.capSlot 5).inj = 5 ∧ less.acb.loaded = true ∧
    hour.acb.running = 1 ∧ (hour.account 0).book = List.replicate 48 {} ∧
    (siteToBook (some site) true invalid.ev).s.acb.caps = List.replicate 48 {} := by decide +kernel

/-- A write of the start hour alone under an UNLOADED book re-confirms from the running slot (R99), so that the slots of
a SUSPENDED account show it. -/
theorem test_start_hour_alone_reconfirms :
    let book : Acb := { s0.acb with loaded := false, accounts := [{ openAccount with state := .suspended }] }
    let s : State := { s0 with acb := book, pst := { s0.pst with site := { live := some { site with startHour := 9 } } } }
    let slots (load : Bool) := ((siteToBook (some site) load s.ev).s.account 0).book.map Slot.reason
    slots false = .none :: List.replicate 47 .suspended ∧ slots true = List.replicate 48 .none := by decide +kernel

theorem witness_TablesInterpolate :
    site.wdRatchet.Pairwise (fun a b => a.1 < b.1) ∧ site.wdRatchet.head? = some (0, 300) ∧
    interpolate site.wdRatchet (-1) = 300 ∧ interpolate site.wdRatchet 0 = 300 ∧
    interpolate site.wdRatchet 199 = 698 ∧ interpolate site.wdRatchet 200 = 700 ∧
    interpolate site.wdRatchet 1000 = 1000 ∧ site.wdRatchet.getLast? = some (1000, 1000) ∧
    ratcheted (some site.injRatchet) 1000 0 5 = 250 ∧ ratcheted none 1000 0 5 = 1000 := by decide

/-- A capacity of the station cut below a nomination: the re-confirmation changes slot 7 and marks the account. -/
theorem witness_ReconfirmCarriesLowestSlot :
    let s := s0.updAccount 0 fun r =>
      { r with book := r.book.mapIdx fun k x => if k < 7 then x else { x with n := 5000, nominated := true } }
    let y := reconfirm 5 s.ev
    (s.acb.running ≤ 5 ∧ s.acb.accounts.length = 32 ∧ s.acb.accounts.all (fun a => a.book.length == 48) = true) ∧
    y.raised = [⟨.curtailment, some 0, .slot 7⟩] ∧ ((y.s.account 0).slot 7).c = 5000 ∧
    ((y.s.account 0).slot 6).c = 0 ∧ (y.s.account 0).mark = true := by decide +kernel

theorem witness_DispatchRefusals :
    let invalid (p : Pst) : State := { s0 with pst := p }
    let enable (s : State) := replied (.dispatchEnable 0) s
    enable { s0 with mu := { s0.mu with set := false } } = some (.clockUnset, 0) ∧
    enable { s0 with acb := { s0.acb with loaded := false } } = some (.unloaded, 0) ∧
    enable (invalid { s0.pst with site := {}, plant := {} }) = some (.wrongState, 0) ∧
    enable (invalid { s0.pst with caverns := {}, plant := {} }) = some (.wrongState, 1) ∧
    enable (invalid { s0.pst with plant := {} }) = some (.wrongState, 2) ∧
    taken (.dispatchEnable 0) State.reset = true := by decide +kernel

theorem witness_StepDistributes :
    let target (s : State) (n : Int) :=
      s.updAccount 0 fun r => { r with book := r.book.modify 4 fun x => { x with c := n } }
    let inj := withCav fun r => { r with state := .injecting, setpoint := 5, last := .inject }
    let low := withCav fun r => { r with pressure := 7000 }
    let step (s : State) (n : Int) := (activeStep .interval (target s n).ev).s
    ((step inj (-90000)).cav 0).state = .dwell ∧ ((step inj (-90000)).cav 0).dwell = some 36600#32 ∧
    (step inj 90000).fpl.setpoint = 90000 ∧ ((step inj 90000).cav 0).setpoint = 90000 ∧
    (step low (-90000)).fpl.boostDemand = 90000 ∧ (step low (-90000)).fpl.placed = 0 ∧
    (step s0 0).fpl.setpoint = 0 ∧ ((step inj 0).cav 0).state = .idle ∧
    ((heldStep .hold inj.ev).s.cav 0).state = .idle := by decide +kernel

/-- A part of no accounts with a close of the period that began at 10:00 in flight and the next one due. -/
def twoClosing : State :=
  let due (n : Nat) (c : Clk) : Due :=
    { number := n, start := c, snapshot := some { runs := [(.inject, 100)], fuel := 0 } }
  let closing : Close := { due := due 1 36000#32, slot := 4 }
  { s0 with
    acb := { s0.acb with accounts := [] }
    su := { openStart := some 43200#32, lastNumber := 2, current := some closing, due := [due 2 39600#32] } }

theorem witness_ClosesCompleteInTurn :
    let x := after .closeComplete twoClosing
    let y := after .closeComplete x
    let skipping : State := { twoClosing with
      mu := { s0.mu with clock := 43300#32 }
      su := { twoClosing.su with due := [], skipped := 3, openStart := some 43200#32 } }
    let z := after .closeComplete skipping
    let more := suBoundary 46800#32 false twoClosing.ev
    let empty : State := { s0 with acb := { s0.acb with loaded := false, accounts := [] } }
    let unloaded := suBoundary 39600#32 true empty.ev
    (x.su.current.map (fun c => (c.due.number, c.slot)) = some (2, 5) ∧ x.su.due = [] ∧ x.acb.running = 5) ∧
    (y.su.current = none ∧ y.su.ring.map PeriodRecord.number = [1, 2] ∧ y.su.balance = 200) ∧
    (z.su.lastNumber = 5 ∧ z.su.skipped = 0 ∧ z.acb.running = 6 ∧ z.su.current = none) ∧
    (more.s.su.due.map Due.number = [2, 3] ∧ more.s.su.current = twoClosing.su.current ∧ more.restep = true) ∧
    (unloaded.s.acb.running = 0 ∧ unloaded.s.su.openStart = some 39600#32 ∧ unloaded.s.su.current = none) := by
  decide +kernel

/-- A read of a period that waits for its close goes on waiting while a further close runs, and is taken when none is in
flight; a second read of the same kind has a place of its own (R124, R125, R179). -/
theorem test_waiting_read_outlasts_the_next_close :
    let x := after (.readPeriod 0 1 none) (after (.readPeriod 0 1 none) twoClosing)
    let y := after .closeComplete x
    let z := after .closeComplete y
    x.slu.queue.map QEntry.state = [.waitingClose, .inTurn] ∧ y.slu.queue = x.slu.queue ∧ y.su.current.isSome = true ∧
    y.slu.order = [] ∧ z.su.current = none ∧ z.slu.order.map Reply.status = [.ok, .ok] ∧
    z.slu.queue.map QEntry.state = [.answered, .answered] := by decide +kernel

/-- The worked sequence of 10.5: a queue through a close. -/
def throughClose : State :=
  let closing : Close := { due := ⟨1, 36000#32, some ⟨[], 0⟩⟩, slot := 4 }
  let s : State := { s0 with
    acb := { s0.acb with accounts := [openAccount] }
    su := { openStart := some 39600#32, lastNumber := 1, current := some closing } }
  [Instr.awaitFlags 0x20 8 600, .nominate 0x21 0 8 1000, .readAccount 0x22 0, .readChanged 0x23, .readPlan 0x24].foldl
    (fun t c => after c t) s

theorem witness_QueueThroughAClose :
    let closed := after .closeComplete throughClose
    let pending : State := { throughClose with slu := { throughClose.slu with resetPending := true } }
    throughClose.slu.queue.map (fun e => (e.request.tag, e.state)) =
      [(0x20, .waitingFlags 8 36600#32), (0x21, .waitingClose), (0x22, .inTurn), (0x23, .inTurn)] ∧
    throughClose.heldEntries.map QEntry.arrival = [1, 2, 3] ∧
    throughClose.slu.order.map (fun r => (r.kind, r.status)) = [(0xBA, .queueFull)] ∧
    closed.slu.queue.map QEntry.state = [.waitingFlags 8 36600#32, .answered, .answered, .answered] ∧
    closed.slu.order.map (fun r => (r.tag, r.status)) = [(0x24, .queueFull), (0x21, .ok), (0x22, .ok), (0x23, .ok)] ∧
    ((closed.account 0).slot 8).n = 1000 ∧ closed.su.ring.map PeriodRecord.number = [1] ∧
    (after .closeComplete pending).slu = pending.slu ∧
    (after .closeComplete { throughClose with slu := {} }).slu.order = [] := by decide +kernel

theorem witness_RequestsWaitForAClose :
    let c : Instr := .nominate 0x21 0 8 1000
    let s := { throughClose with slu := {} }
    let e := entry c
    let read : Instr := .readPeriod 0 2 none
    ((s.arrived c).findEntry c = some e ∧ s.su.current.isSome = true ∧ c.bookOnly = true ∧
      lengthAllowed 0x30 c.body.length = true ∧ (after c s).slu.queue.map QEntry.state = [.waitingClose]) ∧
    ((twoClosing.arrived read).findEntry read = some (entry read) ∧ 2 ∈ twoClosing.su.due.map Due.number ∧
      (after read twoClosing).slu.queue.map QEntry.state = [.waitingClose]) ∧
    (let behind := after c s
    behind.findEntry (.readChanged 1) = none ∧ e.block = (blockOf (.readChanged 1)).getD .slu ∧
      (after (.readChanged 1) behind).slu.queue.map QEntry.state = [.waitingClose, .inTurn]) := by decide +kernel

/-- Requests to two blocks that wait for one close are taken in their order of arrival (R124, R179). -/
theorem test_waiting_requests_of_two_blocks_keep_their_order :
    let s := [Instr.readOba 1, .readChanged 2, .readOba 3].foldl (fun t c => after c t) twoClosing
    let t := after .closeComplete (after .closeComplete s)
    t.slu.order.map Reply.tag = [1, 2, 3] := by decide +kernel

/-- An hour with no confirmations and nothing metered has case OBA in its record (R134). -/
theorem test_idle_hour_has_case_oba :
    let idle : Close := { due := ⟨1, 36000#32, some ⟨[], 0⟩⟩, slot := 4 }
    let s : State := { twoClosing with su := { openStart := some 39600#32, current := some idle } }
    (after .closeComplete s).su.ring.map PeriodRecord.case = [.oba] ∧
    (settle s.tolerance s.obaLimit 0 0 0 0 s.acb.accounts 4).d = 0 := by decide +kernel

/-- Two missed boundaries: the first of the start is METERED, one that passes during it UNMETERED (R136). -/
theorem test_boundary_passing_during_the_start_is_unmetered :
    let s := (missedBoundaries ({ s0 with mu := { s0.mu with clock := 39600#32 } } : State).ev).s
    let t := (missedBoundaries ({ s with mu := { s.mu with clock := 43200#32 } } : State).ev).s
    t.su.due.map (fun d => (d.number, d.snapshot.isSome)) = [(1, true), (2, false)] ∧
    t.su.missedTaken = 2 := by decide +kernel

/-- Under an UNLOADED book the first 48 missed boundaries of the whole start are taken singly and the rest as one skip,
which marks the open accounts (R138, R139): with `k` taken at the beginning of the start, `n` more at its completion. -/
theorem test_missed_boundaries_count_over_the_whole_start :
    let off : State := { s0 with
      phase := .off, su := { openStart := some 36000#32, missedTaken := 30 }
      acb := { s0.acb with loaded := false, accounts := [{ state := .opened }] } }
    let hours (n : Nat) (s : State) : State := { s with
      mu := { s.mu with clock := BitVec.ofNat 32 (36000 + 3600 * n) } }
    let completed (k n : Nat) := after .startComplete (hours n { off with
      phase := .starting true, su := { off.su with missedTaken := k } })
    let marks (k n : Nat) := (completed k n).acb.accounts.map Account.mark
    (after .mainSupplyUp (hours 1 off)).su.missedTaken = 1 ∧
    (marks 46 2 = [false] ∧ marks 47 1 = [false] ∧ marks 48 0 = [false]) ∧
    (marks 48 1 = [true] ∧ marks 47 2 = [true] ∧ marks 0 3 = [false]) ∧
    (completed 47 2).su = { openStart := some 43200#32, missedTaken := 48 } ∧
    (completed 47 2).acb.running = 6 := by decide +kernel

/-- A watch on SENSOR_LOST with filter 4, taken with channel 4 in CHECK and not. -/
def sensorWatch : Instr := .setWatch 0 23 6 0 2 4 5 0 0 2 0 0x800 0

theorem witness_WatchOfChannelInCheck :
    let check := withChan fun r => { r with mode := .check }
    taken sensorWatch check = true ∧ replied sensorWatch s0 = some (.ok, 0) ∧
    replied sensorWatch check = some (.wrongState, 0) ∧
    (taken setWatch check = true ∧ watchFields.source = .channel 4 ∧ (check.chan 4).mode = .check ∧
      replied setWatch check = some (.wrongState, 0)) ∧ (s0.chan 4).mode = .live := by decide +kernel

theorem witness_WatchFires :
    let heard : WatchDef := ⟨.event .sensorLost (some 4), .occurs, 0, 0, some 1, .notify, 0x800, true⟩
    let armed := s0.updWatch 3 fun _ => { defn := some heard, state := .armed }
    let waiting (s : State) : State := { s with slu := { s.slu with
      queue := [{ entry (.awaitFlags 0 8 5) with state := .waitingFlags 8 36005#32 }], arrivals := 1 } }
    let x := fireWatch 3 heard (waiting armed).ev
    (waiting armed).slu.queue.map QEntry.arrival = [0] ∧
    (x.s.watch 3).state = .fired ∧ (x.s.watch 3).fired = false ∧ x.s.slu.order.map Reply.kind = [0xC4] ∧
    (x.s.notice 1).state = .pending ∧ x.launches = [] ∧
    (fireWatch 3 { heard with action := .tripStation } armed.ev).launches = [{ code := 0x070, watch := some (3, 0x800) }] ∧
    (fireWatch 3 ⟨.cavernPressure 1, .isAbove, 0, 0, none, .tripCavern, 7, true⟩ armed.ev).launches =
      [{ code := 0x080, scope := some 1, watch := some (3, 7) }] ∧
    (offerEvent .sensorLost (some 4) armed.ev 3).s.flags = 8 ∧ offerEvent .sensorLost (some 5) armed.ev 3 = armed.ev ∧
    ((raise .sensorLost (some 4) armed.ev).s.watch 3).state = .fired ∧
    s0.answerAwaits 3 = s0 := by decide +kernel

theorem witness_NoticesJoinByState :
    let at' (st : NoticeState) : NoticeChannel := { state := st }
    ((at' .idle).join .test 0 5#32).state = .pending ∧ ((at' .idle).join .test 0 5#32).list.entries.length = 1 ∧
    ((at' .pending).join .test 0 5#32).list.entries.length = 1 ∧
    ((at' .outstanding).join .test 0 5#32).late.entries.length = 1 ∧
    ((at' .outstanding).join .test 0 5#32).list.entries = [] := by decide

theorem witness_ProfileSegmentsRefused :
    let segment (g k j : Nat) (b : List Byte) (s : State) := after (.writeProfile 0 g k j b) s
    let long := siteBytes.drop 224 ++ [0]
    let settling : State := { staged with pst := { staged.pst with profile := some 36001#32 } }
    let busy := staged.setCommit .site (some .committing)
    let bad := segment 0 1 1 (List.replicate 41 0xFF)
    [(1, 1), (0, 2), (0, 15)].all (fun (g, k) =>
      decide ((segment g k 0 [0] staged).pst.staging = none) &&
        decide (replied (.writeProfile 0 g k 0 [0]) staged = some (.wrongState, 0))) = true ∧
    (replied (.writeProfile 0 0 1 0 long) staged = some (.badLength, 0) ∧ siteBytes.take 224 ++ long ≠ []) ∧
    (replied (.writeProfile 0 0 1 1 [0]) staged = some (.badLength, 0) ∧ (segment 0 1 1 [0] staged).pst.staging = none) ∧
    replied (.writeProfile 0 0 1 1 (siteBytes.drop 224)) settling = some (.settling, 0) ∧
    replied (.writeProfile 0 0 1 1 (siteBytes.drop 224)) busy = some (.busy, 0) ∧
    ((replied (.writeProfile 0 0 1 1 (List.replicate 41 0xFF)) staged).map Prod.fst = some .badField ∧
      (bad staged).pst.site = staged.pst.site) := by decide +kernel

theorem witness_SiteWriteFindsHeader :
    let other := (applyWrite .site (Site.fields { site with header := some 0 } true) s0.ev).s
    let none' := (applyWrite .site (Site.fields { site with header := none } false) s0.ev).s
    (siteOf (Site.fields { site with header := some 0 } true)).header = some 0 ∧ other.mu.pass = .pending ∧
    other.fpl.header = 12000 ∧ other.fpl.dispatch = some 36030#32 ∧ none'.fpl.headerQuality = .lost ∧
    none'.mu.pass = .none ∧ other.pst.settle = some 36005#32 ∧ other.pst.writing = some .site ∧
    other.pst.profile = some 36001#32 := by decide +kernel

/-- The same part with every group in its store. -/
def stored : State :=
  { s0 with
    phase := .off
    pst :=
      { s0.pst with
        site := { s0.pst.site with image := some ⟨site, true⟩ }
        plant := { s0.pst.plant with image := some ⟨plant, true⟩ }
        caverns := { s0.pst.caverns with image := (s0.pst.caverns.live).map fun l => ⟨l, true⟩ } } }

theorem witness_StartKindsKeepAndClear :
    let warm := after .mainSupplyUp stored
    let cold := after .mainSupplyUp (after .backupSupplyLost stored)
    let image (p : Site) (ok : Bool) : State :=
      { stored with pst := { stored.pst with site := { stored.pst.site with image := some ⟨p, ok⟩ } } }
    let roles := after .mainSupplyUp (image { site with channels := List.replicate 16 (channelDef .generic) } true)
    (warm.pst.startKind = .retained ∧ warm.pst.site.live = some site ∧ (warm.cav 0).state = .shut ∧
      (warm.unit 0).state = .resting ∧ warm.cdm.inject.order = [0, 1] ∧ (warm.train 0).inService = false ∧
      (warm.account 0).inventory = 300000 ∧ warm.mu.clock = 36000#32) ∧
    (cold.pst.startKind = .cold ∧ (cold.cav 0).state = .shut ∧ (cold.unit 0).state = .off ∧
      (cold.unit 4).duty = .boost ∧ (cold.train 0).towerA.state = .regenerating ∧ cold.acb.loaded = false ∧
      cold.mu.set = false ∧ cold.su.openStart = none) ∧
    (roles.pst.caverns.live = none ∧ roles.pst.plant.live = none ∧ (roles.cav 0).state = .outOfService ∧
      (roles.unit 0).state = .maintenance) ∧
    (after .mainSupplyUp (image site false)).pst.site.live = none := by decide +kernel

theorem witness_StartCompletes :
    let warm := after .mainSupplyUp stored
    let y := after .startComplete warm
    let esd : State := { warm with tru := { warm.tru with esd := true } }
    let quiet := warm.cdm.units.map fun u => { u with feedback := false }
    let bare : State := { warm with cdm := { warm.cdm with units := quiet } }
    let due : State := { warm with su := { warm.su with due := [⟨2, 39600#32, none⟩] } }
    (warm.unit 0).feedback = true ∧ (y.unit 0).state = .stopping ∧ (y.unit 0).stop = some 36180#32 ∧
    ((after .startComplete bare).unit 0).rest = some 36600#32 ∧ (y.train 0).towerA.inletOpen = true ∧
    (after .startComplete esd).tru.tripped = true ∧
    ((after .startComplete due).su.current.map fun c => c.due.number) = some 2 ∧
    (after .startComplete due).su.due = [] ∧
    y.fpl.active = false ∧ y.phase = .running := by decide +kernel

/-- An ARMED watch on CURTAILMENT fires during a start that curtails an account, and its channel is IDLE and empty when
the start has completed (R161, R184). -/
theorem test_no_notice_of_the_start_is_sent :
    let heard : WatchDef := ⟨.event .curtailment none, .occurs, 0, 0, some 0, .notify, 0x800, true⟩
    let account := { openAccount with book := List.replicate 48 { n := 900, c := 900, nominated := true } }
    let lower : State := { stored.updWatch 0 fun _ => { defn := some heard, state := .armed } with
      acb := { stored.acb with accounts := [account] }
      pst := { stored.pst with site := { image := some ⟨{ site with nomInj := 5 }, true⟩ } } }
    let warm := after .mainSupplyUp lower
    (warm.watch 0).state = .fired ∧ ((after .startComplete warm).notice 0) = {} := by decide +kernel

theorem witness_LineTelegramsEnd :
    let at' (l : List Byte) : State := { s0 with slu := { receiver := .inFrame l 0 } }
    let sending (t : Telegram) : State := { s0 with slu := { s0.slu with sending := some t } }
    let r : Reply := { origin := .refusal, kind := 0x9E, tag := 0, status := .queueFull, detail := {}, body := [] }
    let waiting : State := { s0 with slu :=
      { s0.slu with
        sending := some (.reply { r with origin := .entry 0 }), newRates := [(0, 2), (1, 0)]
        receiver := .inFrame [5] 0 } }
    (after (.byteReceived 240) (at' [])).slu.receiver = .inFrame [240] 0 ∧
    (after (.byteReceived 241) (at' [])).slu.receiver = .hunting ∧ frameWhole [] = false ∧
    (after .telegramComplete (sending (.reply r))).slu.sending = none ∧
    (after .telegramComplete (sending (.notice 2 {}))).slu.sending = none ∧
    ((after .telegramComplete waiting).slu.rate = 2 ∧ (after .telegramComplete waiting).slu.receiver = .hunting ∧
      waiting.slu.resetReply = none ∧ (after .telegramComplete waiting).slu.newRates = [(1, 0)]) := by decide +kernel

/-- A reply carries each fired flag as a byte of its own, from W0 on (R147, R185). -/
theorem test_fired_flags_are_a_byte_each :
    let body := (after (.readWatches 0) fired).slu.order.map Reply.body
    body.map (fun l => (l.length, l.map Fld.width |>.foldl (· + ·) 0)) = [(48, 48)] ∧
    body.map (fun l => (l.take 24).map Fld.value) = [[0, 0, 0, 1] ++ List.replicate 20 0] ∧
    (fired.awaitBody true).length = 25 := by decide +kernel

/-- The same part with a whole frame received and not yet judged. -/
def framed (kind : Nat) (body : List Byte) : State :=
  { s0 with slu := { receiver := .inFrame ((frameBytes kind 9 body).drop 1) 0 } }

theorem witness_FramesJudged :
    let judged (s : State) : Slu := (after .frameReceived s).slu
    let refused (s : State) := (judged s).order.map fun r => (r.kind, r.status, r.detail.value)
    let full (s : State) : State := { s with slu := { s.slu with queue := fullQueue } }
    let good := framed 0x01 [3]
    let r : Reply := { origin := .refusal, kind := 0xFF, tag := 0, status := .unknownKind, detail := {}, body := [] }
    let occupied : State := { framed 0x7F [] with slu := { (framed 0x7F []).slu with refusal := some r } }
    kindLengths 0x7F = none ∧ refused (framed 0x7F []) = [(0xFF, .unknownKind, 0x7F)] ∧
    (lengthAllowed 0x01 0 = false ∧ refused (framed 0x01 []) = [(0x81, .badLength, 0)]) ∧
    refused (full good) = [(0x81, .queueFull, 0)] ∧ judged occupied = { occupied.slu with receiver := .hunting } ∧
    (judged good).queue = [entry (.readChannel 9 3)] ∧ (judged good).arrivals = 1 ∧
    (judged good).receiver = .hunting ∧
    (let pending : State := { good with slu := { good.slu with resetPending := true } }
    judged pending = { pending.slu with receiver := .hunting }) := by decide +kernel

theorem witness_NoticesChosenInOrder :
    let pending (l : List Nat) (s : State) : State :=
      l.foldl (fun t n => t.updNotice n fun c => { c with state := .pending }) s
    let answered := after (.readDuty 0) s0
    (pending [0, 1, 2] answered).noticeChosen = some 0 ∧ (pending [1, 2] answered).noticeChosen = none ∧
    (after .replyGrant (pending [1, 2] answered)).slu.sending.isSome = true ∧
    (pending [1, 2] s0).noticeChosen = some 1 ∧ (pending [2] s0).noticeChosen = some 2 ∧
    (pending [0] (after .replyGrant answered)).noticeChosen = none ∧
    ((pending [0] s0).updNotice 0 fun c => { c with held := true }).noticeChosen = none := by decide +kernel

/-- SET_WATCH of watch `i` with these fields. -/
def setFields (i : Nat) (w : WatchFields) : Instr :=
  .setWatch 0 i w.kind w.index w.event w.filter w.condition w.threshold w.hysteresis w.channel w.action w.hostCode
    w.mode

theorem witness_SetWatchFieldsRefused :
    let w := watchFields
    let event : WatchFields := { w with kind := 6, condition := 5 }
    let refused (i k : Nat) (x : WatchFields) : Bool :=
      taken (setFields i x) s0 && decide (replied (setFields i x) s0 = some (.badField, k))
    [refused 24 1 w, refused 0 2 { w with kind := 7 }, refused 0 3 { w with index := 16 },
      refused 0 3 { w with kind := 1, index := 8 }, refused 0 3 { w with kind := 2, index := 4 },
      refused 0 3 { w with kind := 4, index := 32 }, refused 0 3 { w with kind := 5, index := 7 }].all id = true ∧
    [refused 0 4 { event with event := 13 }, refused 0 5 { event with event := 0, filter := 0 },
      refused 0 5 { event with event := 2, filter := 16 }, refused 0 6 { event with condition := 4 },
      refused 0 6 { w with condition := 5 }, refused 0 6 { w with condition := 6 },
      refused 0 7 { w with threshold := 10000000000 }, refused 0 7 { w with threshold := -10000000000 },
      refused 0 8 { w with condition := 2, hysteresis := 100000000 }].all id = true ∧
    [refused 0 9 { w with channel := 4 }, refused 0 10 { w with action := 3 }, refused 0 10 { w with action := 1 },
      refused 0 11 { w with hostCode := 0x7FF }, refused 0 11 { w with hostCode := 0x1000 },
      refused 0 12 { w with mode := 2 }, refused 0 12 { w with action := 2, mode := 1 },
      refused 24 1 { w with kind := 7, mode := 2 }].all id = true ∧
    [w, { w with hysteresis := 100000000 }, { event with event := 2, filter := 15 }, { w with kind := 3, index := 9 },
      { event with threshold := 10000000000 }].all (fun x => (x.verdicts 23).all Prod.snd) = true := by
  decide +kernel

theorem witness_EventsEnd :
    let station : Launch := { code := 0x010 }
    let watch (i : Nat) : Launch := { code := 0x070, watch := some (i, 0x800) }
    let open1 := withCav fun r => { r with state := .withdrawing, setpoint := -1000 }
    let cavern := launchTrip open1.ev { code := 0x080, scope := some 0 }
    let absent := launchTrip open1.ev { code := 0x080, scope := some 7 }
    let failed := (secondFailure 1 tripped.ev).s
    let two : Ev := { s := open1, restep := true, launches := [watch 5, watch 2, station] }
    let owed : Ev := { s := open1, restep := true }
    (cavern.s.tru.tripped = false ∧ (cavern.s.cav 0).state = .closing ∧ cavern.s.cav 1 = open1.cav 1 ∧
      (cavern.s.unit 0).state = .running ∧ cavern.restep = true ∧
      (cavern.s.notice 0).list.entries.map NoticeEntry.source = [.trip 0x080] ∧
      cavern.s.tru.current.map TripRecord.scope = some (some 0)) ∧
    (open1.cavDef 7 = none ∧ absent.s.cvc = open1.cvc ∧ absent.restep = false) ∧
    (failed.tru.current.map TripRecord.secondFailures = some [(1, 36000#32)] ∧
      (failed.notice 0).list.entries.map NoticeEntry.source = [.trip 0x050]) ∧
    sortLaunches two.launches = [station, watch 2, watch 5] ∧
    (two.finish.tru.current.map TripRecord.watch = some (some (5, 0x800)) ∧ two.finish.tru.cascade = 2 ∧
      two.finish.tru.prior.map TripRecord.watch = some (some (2, 0x800)) ∧
      (two.finish.notice 0).list.entries.map NoticeEntry.source = [.trip 0x010, .trip 0x070]) ∧
    owed.finish = (fplStep .restep owed).s ∧ ({ s := open1 } : Ev).finish = open1 := by decide +kernel

theorem witness_ShortfallByTier :
    let firm (n : Int) := shipper .firm n 1000
    let inter (n : Int) := shipper .interruptible n 1000
    let inject (eIn : Nat) := settle 0 0 0 eIn 0 0 [firm 60, inter 30, inter 10, firm 40, firm (-20)] 0
    let withdraw (eOut : Nat) := settle 0 0 0 0 eOut 0 [firm (-60), inter (-30), inter (-10), firm (-40), firm 20] 0
    let short (r : Settled) := (r.case, r.a, r.obaAlloc)
    short (inject 100) = (.shortInject, [60, 15, 5, 40, -20], 0) ∧
    short (inject 30) = (.shortInject, [30, 0, 0, 20, -20], 0) ∧
    short (settle 0 0 0 0 50 0 [firm 60, inter 30, inter 10, firm 40, firm (-20)] 0) =
      (.shortInject, [0, 0, 0, 0, -20], -30) ∧
    short (withdraw 100) = (.shortWithdraw, [-60, -15, -5, -40, 20], 0) ∧
    short (withdraw 30) = (.shortWithdraw, [-30, 0, 0, -20, 20], 0) ∧
    short (settle 0 0 0 50 0 0 [firm (-60), inter (-30), inter (-10), firm (-40), firm 20] 0) =
      (.shortWithdraw, [0, 0, 0, 0, 20], 30) ∧
    (settle 0 0 0 100 0 8 [firm 60, firm 40, firm 0] 0).fuel = [5, 3, 0] ∧
    (settle 0 0 0 0 100 8 [firm (-60), firm (-40), firm 0] 0).fuel = [5, 3, 0] ∧
    (settle 0 0 0 60 40 8 [firm 60, firm (-40)] 0).fuel = [8, 0] := by decide +kernel

theorem witness_PendingDeadlinesSetAndRemoved :
    let p : PendingTimer := ⟨36000#32, some 0, false⟩
    let demand (n : Nat) (t : Option PendingTimer) (s : State) : State :=
      s.updDuty .inject fun q => { q with demand := n, startPending := t }
    let pend (t : Option PendingTimer) : State := s0.updDuty .inject fun q => { q with stopPending := t }
    let start (s : State) := ((reviewStart .inject s.ev).s.duty .inject).startPending
    let stop (s : State) := ((reviewStop .inject s.ev).s.duty .inject).stopPending
    let spent := demand 400000 none (s0.updUnit 1 fun r => { r with state := .lockedOut })
    let deferred := reviewStart .inject (demand 400000 (some p) spent).ev
    start (demand 250000 (some p) s0) = none ∧
    start (demand 400000 none s0) = some { deadline := 36120#32, candidate := some 1, taken := false } ∧
    start (demand 400000 (some { p with deadline := 36001#32 }) s0) = some { p with deadline := 36001#32 } ∧
    (spent.eligible .inject = none ∧
      start spent = some { deadline := 36000#32, candidate := none, taken := true }) ∧
    deferred.raised = [⟨.startDeferred, some 0, .none⟩] ∧
    start (demand 400000 (some p) spent) = some { p with taken := true } ∧
    stop (demand 1 none (pend (some p))) = none ∧
    stop s0 = some { deadline := 36600#32, candidate := some 0, taken := false } ∧
    stop (pend (some { p with candidate := some 1 })) = stop s0 ∧
    stop (pend (some { p with deadline := 36001#32 })) = some { p with deadline := 36001#32 } ∧
    stop ((pend (some p)).updUnit 0 fun r => { r with minRun := some 36001#32 }) = some { p with taken := true } := by
  decide +kernel

theorem witness_MeritListsOfStarts :
    let warm (s : State) := (after .mainSupplyUp s).cvc
    let cold := (after .mainSupplyUp (after .backupSupplyLost stored)).cvc
    let other : State := { stored with cvc := { stored.cvc with
      injMerit := [1], wdMerit := [1], caverns := stored.cvc.caverns.set 0 {} } }
    (warm stored).injMerit = [0, 1] ∧ (warm stored).wdMerit = [1, 0] ∧
    cold.injMerit = [0, 1] ∧ cold.wdMerit = [0, 1] ∧
    (warm other).injMerit = [1, 0] ∧ (warm other).wdMerit = [1, 0] := by decide +kernel

theorem witness_MissedBoundaries :
    let at' (hours : Nat) (s : State) : State := { s with
      mu := { s.mu with clock := BitVec.ofNat 32 (36000 + 3600 * hours) } }
    let loaded : State := { s0 with acb := { s0.acb with accounts := [] } }
    let missed (hours : Nat) (s : State) := (missedBoundaries (at' hours s).ev).s
    let emptied : State := { loaded with acb := { loaded.acb with loaded := false } }
    let told (s : State) := (s.su.lastNumber, s.su.due.length, s.su.skipped, s.su.openStart)
    missedBoundaries loaded.ev = loaded.ev ∧
    (told (missed 2 loaded) = (2, 2, 0, some 43200#32) ∧
      (missed 2 loaded).su.due.map Due.start = [36000#32, 39600#32] ∧
      (missed 2 loaded).su.due.map (fun d => d.snapshot.isSome) = [true, false]) ∧
    told (missed 50 loaded) = (48, 48, 2, some 216000#32) ∧
    (told (missed 1 emptied) = (0, 0, 0, some 39600#32) ∧ (missed 1 emptied).acb.running = 5 ∧
      (missed 50 emptied).su.openStart = some 216000#32 ∧ (missed 50 emptied).acb.running = 6) ∧
    missedBoundaries ({ at' 2 loaded with mu := { (at' 2 loaded).mu with set := false } } : State).ev =
      ({ at' 2 loaded with mu := { (at' 2 loaded).mu with set := false } } : State).ev := by decide +kernel

theorem witness_SkipEmptiesTheBook :
    let held := { openAccount with fuel := 9, book := List.replicate 4 {} ++ [{ n := 5, c := 5, nominated := true }] }
    let s : State := { s0 with mu := { s0.mu with clock := 18000#32 }, acb := { s0.acb with accounts := [held, {}] } }
    let x := skipBook s.ev
    x.raised = [⟨.curtailment, some 0, .slot 4⟩] ∧ x.s.acb.running = 5 ∧
    x.s.acb.accounts.map (fun a => (a.mark, a.fuel, (a.slot 4).c)) = [(true, 0, 0), (false, 0, 0)] := by decide +kernel

/-- The fields of a group as it stands, with the one at an ordinal changed. -/
def changed (g : Group) (k : Nat) (v : Int) (s : State) : List Int :=
  (parseFields g.specs ((s.groupBytes g).getD [])).set (k - 1) v

theorem witness_WrittenFieldsRefused :
    let named (g : Group) (k : Nat) (v : Int) : Bool := decide (badField s0 g (changed g k v s0) = some k)
    let fine (g : Group) (k : Nat) (v : Int) : Bool := decide (badField s0 g (changed g k v s0) = none)
    let check := s0.updChan 0 fun r => { r with mode := .check }
    let close : Close := { due := ⟨1, 36000#32, none⟩, slot := 4 }
    let closing : State := { s0 with su := { s0.su with current := some close } }
    let still := (s0.updUnit 0 fun r => { r with state := .off })
    [named .site 15 0, named .site 29 0, named .caverns 2 2, named .plant 67 3].all id = true ∧
    [fine .site 29 255, fine .caverns 30 99].all id = true ∧
    checkedField check .caverns (changed .caverns 2 0 check) = some 2 ∧
    (notAtRest { s0 with fpl := { s0.fpl with active := true } } .site = some ⟨.condition, 4⟩ ∧
      notAtRest closing .site = some ⟨.condition, 5⟩ ∧ notAtRest s0 .site = none) ∧
    (notAtRest s0 .caverns = some ⟨.cavern, 0⟩ ∧ notAtRest s0 .plant = some ⟨.unit, 0⟩ ∧
      notAtRest still .plant = some ⟨.train, 0⟩) := by decide +kernel

/-- A PLANT write that changes the water capacity of a tower is a new value of its loading figure (R79, R142). -/
theorem test_plant_write_gives_new_loading :
    let heard : WatchDef := ⟨.trainLoading 0, .isAbove, 100, 0, some 0, .notify, 0x800, true⟩
    let s := s0.updWatch 3 fun _ => { defn := some heard, state := .armed, latch := some .low }
    let write (n : Int) := (applyWrite .plant (changed .plant 63 n s) s.ev).s
    ((s.train 0).permille (s.trainDef 0), ((write 100000).train 0).permille ((write 100000).trainDef 0)) = (75, 150) ∧
    ((write 100000).watch 3).state = .fired ∧ (write 200000).watch 3 = s.watch 3 := by decide +kernel

/-- The last-segment mark is bit 0 of its byte (R164, R186). -/
theorem test_unused_bits_of_the_mark_are_ignored :
    let rest := siteBytes.drop 224
    let staging (mark : Nat) := (after (.writeProfile 0 0 1 mark rest) staged).pst.staging
    (staging 2).map Staging.next = some 2 ∧ staging 3 = none ∧
    replied (.writeProfile 0 0 1 3 rest) staged = some (.ok, 0) := by decide +kernel

/-- The header limit with header none, and the weight and timeout of an UNUSED run, are neither judged nor stored
(R186; log entry 14). -/
theorem test_site_fields_without_meaning :
    let v := ((changed .site 29 255 s0).set 29 25001).set (105 - 1) 7
    badField s0 .site v = none ∧ (siteOf v).headerLimit = 0 ∧ ((siteOf v).runs[2]?.map RunDef.weight) = some 0 := by
  decide +kernel

end Sys2Proof.Tests
end

section
/-! PROOFS. Requests that only tell, and refusals that every block shares. -/

namespace Sys2Proof.Machine

/-! ### Requests that only tell -/

/-- A request whose one verdict, on its index, passes tells what its block reads from the state. -/
theorem tells_of_judged {c : Instr} {s : State} {e : QEntry} {body : State → List Fld} {p : Prop} [Decidable p]
    (k : Nat) (x : exec c s = .next (serve c (fun t => judged t [(k, decide p)] (answerOnly t (body t))) s))
    (h : takes c s e = true) (hp : p) : tells c s e body :=
  tells_of x h (judged_all (by simp [hp]))

/-- Settles O4: each read is judged by its index alone, and then answered from the records. -/
theorem plantReadsOnlyTell : Obligations.PlantReadsOnlyTell := by
  intro s e t i
  exact ⟨tells_of_judged 1 rfl, tells_of_judged 1 rfl, tells_of_judged 1 rfl, tells_of_judged 1 rfl,
    tells_of_judged 1 rfl, fun h => tells_of rfl h rfl, tells_of_judged 1 rfl, fun h => tells_of rfl h rfl⟩

/-! ### Refusals by the index -/

/-- A list of verdicts whose first fails is refused at its ordinal. -/
theorem judged_first_bad {p : Prop} [Decidable p] (s : State) (k : Nat) (l : List (Nat × Bool)) (go : Ev × Answer)
    (h : ¬p) : judged s ((k, decide p) :: l) go = (s.ev, .badField k) := by
  rw [decide_eq_false h, judged_cons_false]

/-- A request whose first verdict fails is refused with BAD_FIELD at field 1. -/
theorem refuses_badIndex {c : Instr} {s : State} {e : QEntry} {p : Prop} [Decidable p]
    {l : State → List (Nat × Bool)} {go : State → Ev × Answer} (h : ¬p)
    (x : exec c s = .next (serve c (fun t => judged t ((1, decide p) :: l t) (go t)) s))
    (k : takes c s e = true) : refuses c s e .badField ⟨.field, 1⟩ :=
  refuses_of x k (judged_first_bad _ 1 _ _ h)

theorem groupOfCode_eq_none {g : Nat} (h : 3 ≤ g) : groupOfCode g = none := by
  match g with
  | n + 3 => rfl

/-- A request on an absent cavern is refused with NO_SUCH before any other refusal (2.3). -/
theorem refuses_noCavern {i : Instr} {s : State} {e : QEntry} {c : Nat} {l : List (Nat × Bool)}
    {go : State → CavernDef → Ev × Answer} (hc : c < 8) (h : s.cavDef c = none)
    (x : exec i s = .next (serve i (fun t => onCavern t c l (go t)) s)) (hl : l.all Prod.snd = true)
    (k : takes i s e = true) : refuses i s e .noSuch {} := by
  refine refuses_of x k ?_
  rw [onCavern, arrived_cavDef, h]
  exact judged_all (by simp [hc, hl])

/-- A request on an absent unit is refused with NO_SUCH before any other refusal (3.3). -/
theorem refuses_noUnit {i : Instr} {s : State} {e : QEntry} {u : Nat} {l : List (Nat × Bool)}
    {go : State → Ev × Answer} (hu : u < 6) (h : s.unitDef u = none)
    (x : exec i s = .next (serve i (fun t => onUnit t u l (go t)) s)) (hl : l.all Prod.snd = true)
    (k : takes i s e = true) : refuses i s e .noSuch {} := by
  refine refuses_of x k ?_
  rw [onUnit, arrived_unitDef, h]
  exact judged_all (by simp [hu, hl])

/-- A request on an absent train is refused with NO_SUCH before any other refusal (4.6). -/
theorem refuses_noTrain {i : Instr} {s : State} {e : QEntry} {n : Nat} {l : List (Nat × Bool)}
    {go : State → TrainDef → Ev × Answer} (hn : n < 4) (h : s.trainDef n = none)
    (x : exec i s = .next (serve i (fun t => onTrain t n l (go t)) s)) (hl : l.all Prod.snd = true)
    (k : takes i s e = true) : refuses i s e .noSuch {} := by
  refine refuses_of x k ?_
  rw [onTrain, arrived_trainDef, h]
  exact judged_all (by simp [hn, hl])

/-- Settles O7: each request judges its index first, and then whether the cavern, unit or train is present. -/
theorem badOrAbsentIndexRefused : Obligations.BadOrAbsentIndexRefused := by
  intro s e t i x y z w n l b bad gone
  refine ⟨fun h => ?channel, fun h => ?run, fun h => ?cavern, fun h => ?direction, fun h => ?unit, fun h => ?train,
    fun h => ?account, fun h => ?watch, fun h => ?three, fun h d => ?noCavern, fun h d => ?noUnit, fun h d => ?noTrain⟩
  case channel => exact ⟨refuses_badIndex h.not_gt rfl, refuses_badIndex h.not_gt rfl, refuses_badIndex h.not_gt rfl⟩
  case run => exact ⟨refuses_badIndex h.not_gt rfl, refuses_badIndex h.not_gt rfl⟩
  case cavern =>
    exact ⟨refuses_badIndex h.not_gt rfl, refuses_badIndex h.not_gt rfl, refuses_badIndex h.not_gt rfl,
      refuses_badIndex h.not_gt rfl, refuses_badIndex h.not_gt rfl⟩
  case direction =>
    exact ⟨refuses_badIndex h.not_gt rfl, refuses_badIndex h.not_gt rfl, refuses_badIndex h.not_gt rfl⟩
  case unit =>
    exact ⟨refuses_badIndex h.not_gt rfl, refuses_badIndex h.not_gt rfl, refuses_badIndex h.not_gt rfl,
      refuses_badIndex h.not_gt rfl, refuses_badIndex h.not_gt rfl⟩
  case train =>
    exact ⟨refuses_badIndex h.not_gt rfl, refuses_badIndex h.not_gt rfl, refuses_badIndex h.not_gt rfl,
      refuses_badIndex h.not_gt rfl, refuses_badIndex h.not_gt rfl⟩
  case account =>
    exact ⟨refuses_badIndex h.not_gt rfl, refuses_badIndex h.not_gt rfl, refuses_badIndex h.not_gt rfl,
      refuses_badIndex h.not_gt rfl, refuses_badIndex h.not_gt rfl, refuses_badIndex h.not_gt rfl,
      refuses_badIndex h.not_gt rfl, refuses_badIndex h.not_gt rfl, refuses_badIndex h.not_gt rfl,
      refuses_badIndex h.not_gt rfl⟩
  case watch => exact ⟨refuses_badIndex h.not_gt rfl, refuses_badIndex h.not_gt rfl, refuses_badIndex h.not_gt rfl⟩
  case three =>
    have noGroup := groupOfCode_eq_none h
    exact ⟨refuses_badIndex h.not_gt rfl, refuses_badIndex h.not_gt rfl, refuses_badIndex h.not_gt rfl,
      refuses_badIndex (p := (some i).getD 0 < 3) h.not_gt rfl,
      fun k => refuses_of rfl k (by rw [takeWriteProfile, noGroup]; rfl),
      fun k => refuses_of rfl k (by rw [takeReadProfile, noGroup]; rfl)⟩
  case noCavern =>
    exact ⟨refuses_noCavern h d rfl rfl, refuses_noCavern h d rfl rfl, refuses_noCavern h d rfl rfl,
      refuses_noCavern h d rfl rfl⟩
  case noUnit =>
    exact ⟨refuses_noUnit h d rfl rfl, refuses_noUnit h d rfl rfl, refuses_noUnit h d rfl rfl,
      fun hx => refuses_noUnit h d rfl (by simp [hx])⟩
  case noTrain =>
    exact ⟨refuses_noTrain h d rfl rfl, refuses_noTrain h d rfl rfl, refuses_noTrain h d rfl rfl,
      fun hx => refuses_noTrain h d rfl (by simp [hx])⟩

end Sys2Proof.Machine
end

section
/-! PROOFS. The state after reset, the conversion of an analog value, and period boundaries. -/

namespace Sys2Proof.Machine

/-! ### The state after reset -/

/-- What holds of a value holds of every member of a table that begins with that value everywhere. -/
theorem forall_mem_replicate {α : Type} {p : α → Prop} {n : Nat} {a : α} (h : p a) : ∀ x ∈ List.replicate n a, p x :=
  fun _ hx => List.eq_of_mem_replicate hx ▸ h

theorem Cavern.default_lawful : ({} : Cavern).lawful := ⟨nofun, nofun, nofun, by simp [CavernState.isOpen]⟩

theorem CompUnit.default_lawful : ({} : CompUnit).lawful := ⟨nofun, nofun⟩

theorem Tower.default_lawful : ({} : Tower).lawful := nofun

theorem NoticeChannel.default_lawful : ({} : NoticeChannel).lawful :=
  ⟨NoticeList.empty_lawful, NoticeList.empty_lawful, fun _ => rfl, fun _ => rfl⟩

theorem reset_sizeLaw : SizeLaw State.reset := by simp [SizeLaw, State.reset]

theorem reset_cavernLaw : CavernLaw State.reset := forall_mem_replicate Cavern.default_lawful

theorem reset_unitLaw : UnitLaw State.reset := forall_mem_replicate CompUnit.default_lawful

theorem reset_towerLaw : TowerLaw State.reset :=
  forall_mem_replicate ⟨Tower.default_lawful, Tower.default_lawful⟩

theorem reset_noticeLaw : NoticeLaw State.reset := forall_mem_replicate NoticeChannel.default_lawful

theorem reset_tripLaw : TripLaw State.reset := nofun

theorem reset_queueLaw : QueueLaw State.reset := by simp [QueueLaw, State.reset]

/-- Settles O59: every table is filled with one record, so each law and each value is that of the record. -/
theorem resetStateHoldsLaws : Obligations.ResetStateHoldsLaws := by
  refine ⟨reset_sizeLaw, reset_cavernLaw, reset_unitLaw, reset_towerLaw, reset_noticeLaw, reset_tripLaw,
    reset_queueLaw, rfl, rfl, rfl, rfl, rfl, rfl, rfl, rfl, rfl, rfl, rfl, forall_mem_replicate ?channel,
    forall_mem_replicate ?run, forall_mem_replicate ?account, forall_mem_replicate ?watch⟩
  case channel => exact ⟨rfl, rfl, rfl⟩
  case run => exact ⟨rfl, rfl, rfl⟩
  case account => exact ⟨rfl, rfl⟩
  case watch => rfl

/-! ### Conversion (R2) -/

/-- The rounded quotient by 16,000 is a nearest whole number, and of two nearest the one further from zero. -/
theorem roundDiv_nearest (n : Int) :
    2 * (16000 * roundDiv n 16000 - n).natAbs ≤ 16000 ∧
      (2 * (16000 * roundDiv n 16000 - n).natAbs = 16000 → n.natAbs < (16000 * roundDiv n 16000).natAbs) := by
  rcases lt_trichotomy n 0 with neg | rfl | pos
  · rw [roundDiv, Int.sign_eq_neg_one_of_neg neg]
    omega
  · decide
  · rw [roundDiv, Int.sign_eq_one_of_pos pos]
    omega

/-- Settles O8: the four zones are the branches of the conversion, and the linear one rounds the quotient. -/
theorem conversionRoundsHalfAwayFromZero : Obligations.ConversionRoundsHalfAwayFromZero := by
  intro d i
  refine ⟨fun out => ?_, fun low low' => ?_, fun high high' => ?_, fun low high => ?_⟩
  · exact if_pos out
  · have inside : ¬(i < 3600 ∨ 21000 < i) := by omega
    rw [ChanDef.convert, if_neg inside, if_pos low']
  · have inside : ¬(i < 3600 ∨ 21000 < i) := by omega
    rw [ChanDef.convert, if_neg inside, if_neg (by omega), if_pos high]
  · have inside : ¬(i < 3600 ∨ 21000 < i) := by omega
    refine ⟨roundDiv ((i - 4000 : Int) * (d.span - d.zero)) 16000, ?_, roundDiv_nearest _⟩
    rw [ChanDef.convert, if_neg inside, if_neg (by omega), if_neg (by omega), Nat.cast_sub low]
    rfl

/-! ### Period boundaries (R20, R47) -/

/-- Settles O17. -/
theorem boundaryGoesToSettlementAndRotation : Obligations.BoundaryGoesToSettlementAndRotation := by
  intro s b rest run raised p
  have taken (f : Bool) : exec (.periodBoundary f) s = .next
      (if !b.day then takeBoundary b p else if f then takeBoundary b p.rotateDuties
        else (takeBoundary b p).rotateDuties) := by
    simp only [exec, execPeriodBoundary, onLink, State.periodBoundary, run, raised, beq_self_eq_true, if_true, p]
  refine ⟨fun day f => ?_, fun day => ?_, fun day => ?_, fun x l order => ?_, fun x l order => ?_⟩
  · simp [taken, takeBoundary, day]
  · simp [taken, takeBoundary, day]
  · simp [taken, takeBoundary, day]
  · simp [p, State.rotateDuties, State.updDuty, order, rotate]
  · simp [p, State.rotateDuties, State.updDuty, order, rotate]

end Sys2Proof.Machine
end

section
/-! PROOFS. The station clock: its seconds, its boundaries, its setting and trimming (R18 to R20, R58). -/

namespace Sys2Proof.Machine

/-! ### Boundaries (R20) -/

/-- Seconds from a clock value to the first boundary after it, which the wrap at 0 is too. -/
def untilBoundary (c : Clk) : Nat :=
  if 4294965600 ≤ c.toNat then 4294967296 - c.toNat else 3600 - c.toNat % 3600

theorem untilBoundary_pos (c : Clk) : 0 < untilBoundary c := by
  have := c.isLt
  unfold untilBoundary
  split <;> omega

theorem untilBoundary_le (c : Clk) : untilBoundary c ≤ 3600 := by
  unfold untilBoundary
  split <;> omega

theorem nextBoundary_eq (c : Clk) : nextBoundary c = c + BitVec.ofNat 32 (untilBoundary c) := by
  apply BitVec.eq_of_toNat_eq
  have bound := c.isLt
  simp only [nextBoundary, untilBoundary, BitVec.toNat_ofNat, BitVec.toNat_add, Nat.add_mod_mod]
  split
  · have last : c.toNat / 3600 = 1193046 := by omega
    have wrap : c.toNat + (4294967296 - c.toNat) = 4294967296 := by omega
    rw [last, wrap]
  · have ahead : c.toNat + (3600 - c.toNat % 3600) = (c.toNat / 3600 + 1) * 3600 := by omega
    rw [ahead, Nat.mod_eq_of_lt (b := 4294969200) (by omega)]

theorem toNat_nextBoundary_sub (c : Clk) : (nextBoundary c - c).toNat = untilBoundary c := by
  have small : untilBoundary c < 2 ^ 32 := (untilBoundary_le c).trans_lt (by decide)
  rw [nextBoundary_eq, add_sub_cancel_left, BitVec.toNat_ofNat, Nat.mod_eq_of_lt small]

/-- A second comes to a boundary where the clock value after it is a multiple of 3,600. -/
theorem untilBoundary_le_one (c : Clk) : untilBoundary c ≤ 1 ↔ (c + 1#32).toNat % 3600 = 0 := by
  have bound := c.isLt
  rw [BitVec.toNat_add, untilBoundary]
  rcases Nat.lt_or_ge (c.toNat + 1) (2 ^ 32) with below | wraps
  · rw [show (1#32).toNat = 1 from rfl, Nat.mod_eq_of_lt below]
    split <;> omega
  · have last : c.toNat = 4294967295 := by omega
    simp [last]

/-- The boundary that a second comes to is the clock value after it. -/
theorem nextBoundary_of_untilBoundary {c : Clk} (h : untilBoundary c ≤ 1) : nextBoundary c = c + 1#32 := by
  rw [nextBoundary_eq, Nat.le_antisymm h (untilBoundary_pos c)]

/-- The boundaries raised when the clock has gone from `before` to where it is. -/
def State.boundariesFrom (s : State) (before : Clk) : List Boundary :=
  if s.mu.set = true ∧ untilBoundary before ≤ (s.clock - before).toNat then
    s.mu.boundaries ++ [⟨nextBoundary before, isDay s.startHour (nextBoundary before)⟩]
  else s.mu.boundaries

theorem State.raiseBoundary_eq (s : State) (before : Clk) :
    s.raiseBoundary before = { s with mu := { s.mu with boundaries := s.boundariesFrom before } } := by
  simp only [State.raiseBoundary, State.boundariesFrom, toNat_nextBoundary_sub, Bool.and_eq_true, decide_eq_true_eq,
    ge_iff_le]
  split <;> rfl

/-! ### A second (R18, R20, R58) -/

theorem second_of_not_running {s : State} (h : s.phase ≠ .running) :
    s.second = { s with mu := { s.mu with clock := s.mu.clock + 1#32, ms := (s.mu.ms / 1000 + 1) * 1000 } } :=
  if_neg h

theorem second_of_running {s : State} (h : s.phase = .running) :
    s.second = { s with
      mu := { s.mu with
        clock := s.mu.clock + 1#32, ms := (s.mu.ms / 1000 + 1) * 1000
        boundaries := if s.mu.set = true ∧ (s.mu.clock + 1#32).toNat % 3600 = 0 then
            s.mu.boundaries ++ [⟨s.mu.clock + 1#32, isDay s.startHour (s.mu.clock + 1#32)⟩]
          else s.mu.boundaries }
      cdm := { s.cdm with units := s.cdm.units.map CompUnit.second } } := by
  have one : (s.mu.clock + 1#32 - s.mu.clock).toNat = 1 := by rw [add_sub_cancel_left]; rfl
  refine (if_pos h).trans ?_
  rw [State.raiseBoundary_eq]
  simp only [State.boundariesFrom, State.clock, one, ← untilBoundary_le_one]
  by_cases due : untilBoundary s.mu.clock ≤ 1
  · rw [nextBoundary_of_untilBoundary due]; rfl
  · simp only [due, and_false, if_false]; rfl

theorem step_idle {s : State} (h : s.pending = []) : step s = .next s.idle := by
  simp only [step, h]

/-- Settles O15. -/
theorem clockCountsEverySecond : Obligations.ClockCountsEverySecond := by
  intro s
  refine ⟨fun empty within => ?_, fun empty last => ?_, ?second, fun run fresh => ?_, fun stopped => ?_,
    fun degraded => ?_, rfl⟩
  case second =>
    refine ⟨s.second, rfl, ?_⟩
    by_cases run : s.phase = .running
    · rw [second_of_running run]
      refine ⟨rfl, rfl, fun k => absurd run k, fun _ => rfl, fun _ set' hour => ?_, fun unset => ?_⟩
      · exact if_pos ⟨set', hour⟩
      · refine if_neg fun both => ?_
        rcases unset with unset | hour
        · exact Bool.false_ne_true (unset.symm.trans both.1)
        · exact hour both.2
    · rw [second_of_not_running run]
      exact ⟨rfl, rfl, fun _ => ⟨rfl, rfl⟩, fun k => absurd k run, fun k => absurd k run, fun _ => rfl⟩
  · exact (step_idle empty).trans (congrArg _ (if_neg within))
  · exact (step_idle empty).trans (congrArg _ (if_pos last))
  · simp [happens, exec, execCrystalStop, fresh, run]
  · by_cases degraded : s.mu.source = .internal
    · simp [exec, execCrystalStop, ← degraded]
    · simp [exec, execCrystalStop, degraded, stopped]
  · simp [exec, execCrystalStop, degraded]

/-! ### Setting and trimming (R19) -/

/-- A table in which every record is changed by one function reads the changed record everywhere, where that function
leaves the record of an index beyond the table as it is. -/
theorem getD_map_of_fixed {α : Type} {f : α → α} {d : α} (l : List α) (i : Nat) (h : f d = d) :
    (l.map f).getD i d = f (l.getD i d) := by
  rw [List.getD_eq_getElem?_getD, List.getElem?_map, List.getD_eq_getElem?_getD]
  cases l[i]? <;> simp [h]

/-- What the first setting of the clock leaves of an entry of the request queue: its deadline moves (R19). -/
theorem moveDeadlines_entryState (s : State) (by_ : Clk) :
    (s.moveDeadlines by_).slu.queue.map QEntry.state = s.slu.queue.map (fun y => match y.state with
      | .waitingFlags m d => .waitingFlags m (d + by_)
      | .inTurn => .inTurn
      | .waitingClose => .waitingClose
      | .answered => .answered) := by
  simp only [State.moveDeadlines, List.map_map]
  refine List.map_congr_left fun y _ => ?_
  simp only [Function.comp]
  cases h : y.state <;> simp [h]

/-- A trim raises a boundary where it goes forward as far as the end of the period. -/
theorem trimClock_eq (s : State) (c : Clk) : s.trimClock c (c - s.mu.clock).toInt =
    { s with mu := { s.mu with
      clock := c
      boundaries :=
        if s.mu.set = true ∧ 0 < (c - s.mu.clock).toInt ∧ (untilBoundary s.mu.clock : Int) ≤ (c - s.mu.clock).toInt then
          s.mu.boundaries ++ [⟨nextBoundary s.mu.clock, isDay s.startHour (nextBoundary s.mu.clock)⟩]
        else s.mu.boundaries } } := by
  unfold State.trimClock
  by_cases forward : 0 < (c - s.mu.clock).toInt
  · have size : (c - s.mu.clock).toInt = (c - s.mu.clock).toNat := by
      rw [BitVec.toInt_eq_toNat_cond] at forward ⊢
      split <;> omega
    rw [if_pos forward, State.raiseBoundary_eq, size]
    simp only [State.boundariesFrom, State.clock, Nat.cast_le, size ▸ forward, true_and]
    rfl
  · simp only [gt_iff_lt, forward, if_false, false_and, and_false]

theorem takeSetClock_unset {s : State} (h : s.mu.set = false) (v : Nat) :
    takeSetClock v s =
      ((s.firstClock (BitVec.ofNat 32 v)).ev, .ok (s.firstClock (BitVec.ofNat 32 v)).clockFields) :=
  if_pos (by simp [h])

theorem takeSetClock_set {s : State} (h : s.mu.set = true) (v : Nat) :
    takeSetClock v s =
      let c : Clk := BitVec.ofNat 32 v
      let trim := (c - s.mu.clock).toInt
      judged s [(1, decide (trim.natAbs ≤ s.maxTrim))] <|
        refuseIf s (decide (trim < -((s.mu.clock.toNat % 3600 : Nat) : Int))) (.refuse .wrongState)
          ((s.trimClock c trim).ev, .ok (s.trimClock c trim).clockFields) :=
  if_neg (by simp [h])

/-- Settles O16: the first setting moves every table of records by one function, and a trim changes the clock alone. -/
theorem clockIsSetOrTrimmed : Obligations.ClockIsSetOrTrimmed := by
  intro s e t v taken c trim x moved movedTimer left stop
  have stopEq : stop = nextBoundary s.mu.clock := (nextBoundary_eq s.mu.clock).symm
  refine ⟨fun unset => ⟨?_, rfl, rfl, rfl, rfl, rfl, fun ch => getD_map_of_fixed _ ch rfl,
      fun r => getD_map_of_fixed _ r rfl, fun k => getD_map_of_fixed _ k rfl, fun u => getD_map_of_fixed _ u rfl,
      fun q => by cases q <;> rfl, fun n => getD_map_of_fixed _ n rfl, rfl, rfl, moveDeadlines_entryState s _,
      rfl, rfl, rfl⟩, fun set' small notBack => ⟨?_, ?_⟩, fun set' large => ?_, fun set' small back => ?_⟩
  · exact completes_of rfl taken (takeSetClock_unset (by simpa using unset) v)
  · refine completes_of rfl taken ((takeSetClock_set (by simpa using set') v).trans ?_)
    simp only [arrived_mu, arrived_maxTrim]
    rw [decide_eq_true small, judged_cons_true, decide_eq_false (Int.not_lt.2 notBack)]
    rfl
  · rw [stopEq]
    refine (trimClock_eq s c).trans ?_
    simp only [set', true_and]
    rfl
  · refine refuses_of rfl taken ((takeSetClock_set (by simpa using set') v).trans ?_)
    simp only [arrived_mu, arrived_maxTrim]
    rw [decide_eq_false (Nat.not_le.2 large), judged_cons_false]
    rfl
  · refine refuses_of rfl taken ((takeSetClock_set (by simpa using set') v).trans ?_)
    simp only [arrived_mu, arrived_maxTrim]
    rw [decide_eq_true small, judged_cons_true, decide_eq_true back]
    rfl

end Sys2Proof.Machine
end

section
/-! PROOFS. What an event adds to what it hands on, and which records a report to the consumers of a channel reaches. -/

namespace Sys2Proof.Machine

/-! ### What an event has handed on so far is kept -/

/-- What has been handed on in `u` is handed on in `v` too: launches, the re-step, internal events. -/
structure Ev.Extends (u v : Ev) : Prop where
  launches : ∀ l ∈ u.launches, l ∈ v.launches := by exact fun _ h => h
  restep : u.restep = true → v.restep = true := by exact id
  raised : ∀ o ∈ u.raised, o ∈ v.raised := by exact fun _ h => h

theorem Ev.Extends.refl (u : Ev) : u.Extends u := {}

theorem Ev.Extends.trans {u v w : Ev} (h : u.Extends v) (k : v.Extends w) : u.Extends w where
  launches := fun l m => k.launches l (h.launches l m)
  restep := k.restep ∘ h.restep
  raised := fun o m => k.raised o (h.raised o m)

theorem hand_extends (ev : Ev) (b : Bool) : ev.Extends (ev.hand b) where
  restep := fun h => by simp [Ev.hand, h]

theorem launch_extends (ev : Ev) (l : Launch) : ev.Extends (ev.launch l) where
  launches := fun _ h => List.mem_append_left _ h

theorem foldl_extends {α : Type} {f : Ev → α → Ev} (h : ∀ (ev : Ev) (x : α), ev.Extends (f ev x))
    (l : List α) (ev : Ev) :
    ev.Extends (l.foldl f ev) := by
  induction l generalizing ev with
  | nil => exact .refl _
  | cons x l ih => exact (h ev x).trans (ih _)

/-- What a watch that fires hands to the Trip Unit (R145). -/
def WatchDef.trip (w : Nat) (d : WatchDef) : List Launch :=
  match d.action, d.source with
  | .tripStation, _ => [{ code := 0x070, watch := some (w, d.hostCode) }]
  | .tripCavern, .cavernPressure c => [{ code := 0x080, scope := some c, watch := some (w, d.hostCode) }]
  | _, _ => []

/-- The state a watch that fires leaves: its flag, the AWAIT_FLAGS answered, its channel joined, and FIRED when it is
ONE_SHOT (R145). -/
def firedState (w : Nat) (d : WatchDef) (s : State) : State :=
  let flagged := (s.updWatch w fun r => { r with fired := true }).answerAwaits w
  let told := match d.channel with
    | some n => flagged.joinNotice n (.watch w) d.hostCode
    | none => flagged
  if d.oneShot then told.updWatch w fun r => { r with state := .fired, latch := none } else told

theorem fireWatch_eq (w : Nat) (d : WatchDef) (ev : Ev) :
    fireWatch w d ev = { ev with s := firedState w d ev.s, launches := ev.launches ++ d.trip w } := by
  unfold fireWatch firedState WatchDef.trip
  cases d.action with
  | notify => rw [List.append_nil]; cases d.oneShot <;> rfl
  | tripStation => cases d.oneShot <;> rfl
  | tripCavern =>
    cases d.source with
    | cavernPressure c => cases d.oneShot <;> rfl
    | _ => rw [List.append_nil]; cases d.oneShot <;> rfl

theorem fireWatch_extends (w : Nat) (d : WatchDef) (ev : Ev) : ev.Extends (fireWatch w d ev) := by
  rw [fireWatch_eq]
  exact { launches := fun _ h => List.mem_append_left _ h }

theorem evaluateWatch_extends (on : WatchSource → Bool) (v : Int) (ev : Ev) (w : Nat) :
    ev.Extends (evaluateWatch on v ev w) := by
  unfold evaluateWatch
  dsimp only
  split
  · split
    · split
      · exact Ev.Extends.trans {} (fireWatch_extends _ _ _)
      · exact {}
    · exact .refl _
  · exact .refl _

theorem newWatchValue_extends (on : WatchSource → Bool) (v : Int) (ev : Ev) : ev.Extends (newWatchValue on v ev) :=
  foldl_extends (evaluateWatch_extends on v) _ ev

theorem offerEvent_extends (name : EventName) (index : Option Nat) (ev : Ev) (w : Nat) :
    ev.Extends (offerEvent name index ev w) := by
  unfold offerEvent
  dsimp only
  split
  · split
    · exact fireWatch_extends _ _ _
    · exact .refl _
  · exact .refl _

/-- An event that is raised is among those raised, with all that was handed on before. -/
theorem raise_extends (name : EventName) (index : Option Nat) (ev : Ev) (data : EventData) :
    ev.Extends (raise name index ev data) ∧ ⟨name, index, data⟩ ∈ (raise name index ev data).raised := by
  have fold := foldl_extends (offerEvent_extends name index) (List.range 24)
    { ev with raised := ev.raised ++ [⟨name, index, data⟩] }
  exact ⟨Ev.Extends.trans { raised := fun _ h => List.mem_append_left _ h } fold, fold.raised _ (by simp)⟩

/-! ### A report that goes to one record after another -/

/-- A report that goes through different indices, each time leaving index `i` as `R` says where it is not its turn,
reaches `i` once if it is among them: `e` is the event when its turn comes. -/
theorem foldl_reaches {f : Ev → Nat → Ev} {R : Nat → Ev → Ev → Prop} (refl : ∀ i u, R i u u)
    (trans : ∀ {i u v w}, R i u v → R i v w → R i u w) (other : ∀ i j u, j ≠ i → R i u (f u j)) (i : Nat)
    (l : List Nat) (nodup : l.Nodup) (ev : Ev) :
    (i ∉ l → R i ev (l.foldl f ev)) ∧ (i ∈ l → ∃ e, R i ev e ∧ R i (f e i) (l.foldl f ev)) := by
  induction l generalizing ev with
  | nil => exact ⟨fun _ => refl i ev, nofun⟩
  | cons j l ih =>
    obtain ⟨fresh, nodup'⟩ := List.nodup_cons.1 nodup
    obtain ⟨skip, reach⟩ := ih nodup' (f ev j)
    constructor
    · intro h
      obtain ⟨ne, h'⟩ := not_or.1 (mt List.mem_cons.2 h)
      exact trans (other i j ev (Ne.symm ne)) (skip h')
    · intro h
      by_cases eq : j = i
      · subst eq
        exact ⟨ev, refl j ev, skip fresh⟩
      · obtain ⟨e, before, after⟩ := reach ((List.mem_cons.1 h).resolve_left (Ne.symm eq))
        exact ⟨e, trans (other i j ev eq) before, after⟩

end Sys2Proof.Machine
end

section
/-! PROOFS. The reports of a channel to its consumers: what a new value and a quality change leave in the caverns, the
trains, the header's record and the Trip Unit (1.1, R23, R31, R33, R71, R73, R108, R154). -/

namespace Sys2Proof.Machine

/-! ### One cavern -/

theorem CavernState.isClosed_of_isOpen {st : CavernState} (h : st.isOpen = true) : st.isClosed = false := by
  revert h
  cases st <;> decide

/-- Supervision of a present cavern's record changes its travel deadline alone (R23). -/
theorem Cavern.supervise_eq (s : State) (d : CavernDef) (r : Cavern) :
    r.supervise (some d) s = { r with travel := (Cavern.followed s d r).travel } := by
  have supervised (p : Position) (h : r.state.expected = some p) : r.supervise (some d) s =
      { r with travel := if r.position = p then none else r.travel.or (some (s.after d.travel)) } := by
    unfold Cavern.supervise
    rw [h]
    by_cases reached : r.position = p
    · simp [reached]
    · cases k : r.travel with
      | none => simp [reached]
      | some x => simp only [reached, if_false, Option.isNone_some, Option.some_or, Bool.false_eq_true]; rw [← k]
  cases o : r.state.isOpen with
  | true =>
    rw [supervised .opened (by simp [CavernState.expected, o])]
    by_cases reached : r.position = .opened <;>
      simp [Cavern.followed, o, CavernState.isClosed_of_isOpen o, reached]
  | false =>
    cases c : r.state.isClosed with
    | true =>
      rw [supervised .closed (by simp [CavernState.expected, o, c])]
      by_cases reached : r.position = .closed <;> simp [Cavern.followed, o, c, reached]
    | false => simp [Cavern.supervise, Cavern.followed, CavernState.expected, o, c]

/-- Supervision and recomputation of a present cavern's record are what `Cavern.followed` says (R23, R33). -/
theorem Cavern.supervise_recompute (s : State) (d : CavernDef) (r : Cavern) :
    (r.supervise (some d) s).recompute (some d) = Cavern.followed s d r := by
  have cut (i w : Nat) (sp : Int) : cutSetpoint i w sp =
      if 0 < sp then min sp i else if sp < 0 then max sp (-(w : Int)) else 0 := by
    unfold cutSetpoint
    split
    · rfl
    · split <;> omega
  rw [Cavern.supervise_eq]
  simp only [Cavern.recompute, cut]
  rfl

theorem changeCavern_cav {c : Nat} {f : Cavern → Cavern} {ev : Ev} {d : CavernDef} (hd : ev.s.cavDef c = some d)
    (hc : c < ev.s.cvc.caverns.length) :
    (changeCavern c f ev).s.cav c = Cavern.followed ev.s d (f (ev.s.cav c)) := by
  refine (State.cav_updCav ev.s c c _).trans ?_
  rw [if_pos ⟨rfl, hc⟩, hd, Cavern.supervise_recompute]

/-- A change of a cavern's record hands the planner a change of a permit or of the low-pressure mark (R108). -/
theorem changeCavern_restep {c : Nat} {f : Cavern → Cavern} {ev : Ev} {d : CavernDef} (hd : ev.s.cavDef c = some d)
    (h : ((changeCavern c f ev).s.cav c).injPermit ≠ (ev.s.cav c).injPermit ∨
      ((changeCavern c f ev).s.cav c).wdPermit ≠ (ev.s.cav c).wdPermit ∨
      ¬(((changeCavern c f ev).s.cav c).pressure < d.boost ↔ (ev.s.cav c).pressure < d.boost)) :
    (changeCavern c f ev).restep = true := by
  have hd' : (changeCavern c f ev).s.cavDef c = some d := hd
  have mark : ev.s.lowPressure c ≠ (changeCavern c f ev).s.lowPressure c ↔
      ¬(((changeCavern c f ev).s.cav c).pressure < d.boost ↔ (ev.s.cav c).pressure < d.boost) := by
    simp only [State.lowPressure, hd, hd', Option.any_some, ne_eq, decide_eq_decide]
    exact not_congr Iff.comm
  have owed : (changeCavern c f ev).restep = (ev.restep ||
    ((ev.s.cav c).state != ((changeCavern c f ev).s.cav c).state ||
      (ev.s.cav c).injPermit != ((changeCavern c f ev).s.cav c).injPermit ||
      (ev.s.cav c).wdPermit != ((changeCavern c f ev).s.cav c).wdPermit ||
      ev.s.lowPressure c != (changeCavern c f ev).s.lowPressure c)) := rfl
  rw [← mark] at h
  simp only [owed, Bool.or_eq_true, bne_iff_ne]
  rcases h with inj | wd | low
  · exact .inr (.inl (.inl (.inr inj.symm)))
  · exact .inr (.inl (.inr wd.symm))
  · exact .inr (.inr low)

/-! ### The caverns of a channel -/

/-- What a report to other caverns does, seen from cavern `c`: its record is the same, nothing but caverns changes, and
what was handed on before is kept. -/
structure CavernsTold (c : Nat) (u v : Ev) : Prop extends u.Extends v where
  state : v.s = { u.s with cvc := v.s.cvc } := by rfl
  cav : v.s.cav c = u.s.cav c := by rfl
  size : v.s.cvc.caverns.length = u.s.cvc.caverns.length := by rfl

theorem CavernsTold.refl (c : Nat) (u : Ev) : CavernsTold c u u := { toExtends := .refl u }

theorem CavernsTold.trans {c : Nat} {u v w : Ev} (h : CavernsTold c u v) (k : CavernsTold c v w) :
    CavernsTold c u w where
  toExtends := h.toExtends.trans k.toExtends
  state := by rw [k.state, h.state]
  cav := k.cav.trans h.cav
  size := k.size.trans h.size

theorem changeCavern_told {i c : Nat} (h : i ≠ c) (f : Cavern → Cavern) (ev : Ev) :
    CavernsTold c ev (changeCavern i f ev) where
  toExtends := Ev.Extends.trans {} (hand_extends _ _)
  cav := (State.cav_updCav ev.s i c _).trans (if_neg fun k => h k.1)
  size := State.updCav_length _ _ _

theorem reportEnvelope_extends (c : Nat) (a b : Envelope) (ev : Ev) : ev.Extends (reportEnvelope c a b ev) := by
  unfold reportEnvelope
  split
  · exact .refl _
  · split
    · exact launch_extends _ _
    · exact launch_extends _ _
    · exact .refl _

theorem reportEnvelope_told (c i : Nat) (a b : Envelope) (ev : Ev) : CavernsTold c ev (reportEnvelope i a b ev) where
  toExtends := reportEnvelope_extends i a b ev
  state := by rw [reportEnvelope_s]
  cav := by rw [reportEnvelope_s]
  size := by rw [reportEnvelope_s]

theorem cavernNewValue_told {i c : Nat} (h : i ≠ c) (v : Int) (ev : Ev) :
    CavernsTold c ev (cavernNewValue i v ev) := by
  unfold cavernNewValue
  split
  · exact (changeCavern_told h _ ev).trans (reportEnvelope_told c i _ _ _)
  · exact .refl c ev

theorem cavernQuality_told {i c : Nat} (h : i ≠ c) (q : Quality) (v : Int) (ev : Ev) :
    CavernsTold c ev (cavernQuality i q v ev) := by
  unfold cavernQuality
  split
  · exact changeCavern_told h _ ev
  · exact .refl c ev

theorem mem_cavernsOn {ch c : Nat} {s : State} :
    c ∈ cavernsOn ch s ↔ c < 8 ∧ ∃ d, s.cavDef c = some d ∧ d.channel = some ch := by
  simp [cavernsOn, Option.any_eq_true]

theorem nodup_cavernsOn (ch : Nat) (s : State) : (cavernsOn ch s).Nodup := List.nodup_range.filter _

/-- A report to the caverns of a channel, seen from one of them: `e` is the event when its turn comes. -/
theorem foldl_cavernsOn {f : Nat → Ev → Ev} (other : ∀ i c u, i ≠ c → CavernsTold c u (f i u)) {ch c : Nat} {ev : Ev}
    (h : c ∈ cavernsOn ch ev.s) :
    ∃ e, CavernsTold c ev e ∧ CavernsTold c (f c e) ((cavernsOn ch ev.s).foldl (fun e c => f c e) ev) :=
  (foldl_reaches (f := fun e c => f c e) (R := CavernsTold) CavernsTold.refl CavernsTold.trans
    (fun i j u h => other j i u h) c (cavernsOn ch ev.s) (nodup_cavernsOn ch ev.s) ev).2 h

/-! ### One train -/

/-- A state that differs from another in watches, notices and the link alone. -/
theorem State.eq_of_frame {s t : State} (h : Frame False False False s t) (k : Within s t) :
    t = { s with wnu := t.wnu, slu := t.slu } := by
  obtain ⟨cvc, cdm, fpl, tru, mu, dtc, acb, su, pst, phase, input⟩ := h
  have pending := k.pending
  cases s
  cases t
  simp_all

/-- What watches told of something do: nothing but watches, notices and the link's record changes. -/
structure WatchesTold (u v : Ev) : Prop extends u.Extends v where
  state : v.s = { u.s with wnu := v.s.wnu, slu := v.s.slu } := by rfl

theorem WatchesTold.trans {u v w : Ev} (h : WatchesTold u v) (k : WatchesTold v w) : WatchesTold u w where
  toExtends := h.toExtends.trans k.toExtends
  state := by rw [k.state, h.state]

theorem ite_told {p : Prop} [Decidable p] {u v w : Ev} (h : WatchesTold u v) (k : WatchesTold u w) :
    WatchesTold u (if p then v else w) := by
  split
  · exact h
  · exact k

theorem newWatchValue_told (on : WatchSource → Bool) (v : Int) (ev : Ev) : WatchesTold ev (newWatchValue on v ev) where
  toExtends := newWatchValue_extends on v ev
  state := State.eq_of_frame (newWatchValue_frame on v ev) (newWatchValue_within on v ev)

theorem raise_told (name : EventName) (index : Option Nat) (ev : Ev) (data : EventData) :
    WatchesTold ev (raise name index ev data) where
  toExtends := (raise_extends name index ev data).1
  state := State.eq_of_frame (raise_frame name index ev) (raise_within name index ev)

/-- A change of a train's record changes that record and tells watches. -/
theorem changeTrain_told (t : Nat) (f : Train → Train) (ev : Ev) :
    WatchesTold (ev.map fun s => s.updTrain t f) (changeTrain t f ev) := by
  have changed (b : Bool) : WatchesTold (ev.map fun s => s.updTrain t f) ((ev.map fun s => s.updTrain t f).hand b) :=
    { toExtends := hand_extends _ b }
  have figure (p : Prop) [Decidable p] (b : Bool) (on : WatchSource → Bool) (v : Int) :
      WatchesTold (ev.map fun s => s.updTrain t f) (if p then Ev.hand (ev.map fun s => s.updTrain t f) b
        else newWatchValue on v (Ev.hand (ev.map fun s => s.updTrain t f) b)) :=
    ite_told (changed b) ((changed b).trans (newWatchValue_told on v _))
  unfold changeTrain
  dsimp only
  split
  · exact ite_told ((figure _ _ _ _).trans (raise_told _ _ _ _)) (figure _ _ _ _)
  · exact figure _ _ _ _

/-- A change of a train's record that leaves its towers and its service as they are gives no figure and raises
nothing. -/
theorem changeTrain_quiet {t : Nat} {f : Train → Train} {ev : Ev}
    (a : (f (ev.s.train t)).towerA = (ev.s.train t).towerA)
    (b : (f (ev.s.train t)).towerB = (ev.s.train t).towerB)
    (i : (f (ev.s.train t)).inService = (ev.s.train t).inService) :
    ∃ h, changeTrain t f ev = (ev.map fun s => s.updTrain t f).hand h := by
  obtain ⟨r, hr, towerA, towerB, service⟩ : ∃ r, (ev.s.updTrain t f).train t = r ∧
      r.towerA = (ev.s.train t).towerA ∧ r.towerB = (ev.s.train t).towerB ∧
      r.inService = (ev.s.train t).inService := by
    refine ⟨_, rfl, ?_⟩
    rw [State.train_updTrain]
    split
    · exact ⟨a, b, i⟩
    · exact ⟨rfl, rfl, rfl⟩
  have adsorbing : r.adsorbing = (ev.s.train t).adsorbing := by simp [Train.adsorbing, towerA, towerB]
  have tower (w : TowerId) : r.tower w = (ev.s.train t).tower w := by cases w <;> simp [Train.tower, towerA, towerB]
  have figure (d : Option TrainDef) : (ev.s.train t).permille d = r.permille d := by
    unfold Train.permille
    simp [adsorbing, tower]
  have full (d : TrainDef) : r.full d = (ev.s.train t).full d := by
    simp [Train.full, adsorbing, tower]
  unfold changeTrain
  dsimp only [Ev.map]
  rw [hr, if_pos (figure _)]
  split
  · rw [full, service, Bool.and_not_self]
    exact ⟨_, rfl⟩
  · exact ⟨_, rfl⟩

theorem changeTrain_train {t : Nat} (f : Train → Train) {ev : Ev} (h : t < ev.s.dtc.trains.length) :
    (changeTrain t f ev).s.train t = f (ev.s.train t) := by
  rw [(changeTrain_told t f ev).state]
  exact (State.train_updTrain ev.s t t f).trans (if_pos ⟨rfl, h⟩)

/-! ### The trains of a channel -/

/-- What a report to other trains does, seen from train `t`: its record is the same, nothing but trains, watches,
notices and the link changes, and what was handed on before is kept. -/
structure TrainsTold (t : Nat) (u v : Ev) : Prop extends u.Extends v where
  state : v.s = { u.s with dtc := v.s.dtc, wnu := v.s.wnu, slu := v.s.slu } := by rfl
  train : v.s.train t = u.s.train t := by rfl
  size : v.s.dtc.trains.length = u.s.dtc.trains.length := by rfl

theorem TrainsTold.refl (t : Nat) (u : Ev) : TrainsTold t u u := { toExtends := .refl u }

theorem TrainsTold.trans {t : Nat} {u v w : Ev} (h : TrainsTold t u v) (k : TrainsTold t v w) : TrainsTold t u w where
  toExtends := h.toExtends.trans k.toExtends
  state := by rw [k.state, h.state]
  train := k.train.trans h.train
  size := k.size.trans h.size

theorem WatchesTold.trains {u v : Ev} (h : WatchesTold u v) (t : Nat) : TrainsTold t u v where
  toExtends := h.toExtends
  state := by rw [h.state]
  train := by rw [h.state]; rfl
  size := by rw [h.state]

theorem changeTrain_other {i t : Nat} (h : i ≠ t) (f : Train → Train) (ev : Ev) :
    TrainsTold t ev (changeTrain i f ev) := by
  have one : TrainsTold t ev (ev.map fun s => s.updTrain i f) :=
    { train := (State.train_updTrain ev.s i t f).trans (if_neg fun k => h k.1), size := State.updTrain_length _ _ _ }
  exact one.trans ((changeTrain_told i f ev).trains t)

theorem trainDewValue_told {i t : Nat} (h : i ≠ t) (ch : Nat) (v : Int) (ev : Ev) :
    TrainsTold t ev (trainDewValue ch v ev i) := by
  unfold trainDewValue
  split
  · split
    · exact changeTrain_other h _ ev
    · exact .refl t ev
  · exact .refl t ev

theorem trainDewLost_told {i t : Nat} (h : i ≠ t) (ch : Nat) (ev : Ev) : TrainsTold t ev (trainDewLost ch ev i) := by
  unfold trainDewLost
  split
  · dsimp only
    split
    · exact (changeTrain_other h _ ev).trans ((raise_told _ _ _ _).trains t)
    · exact .refl t ev
  · exact .refl t ev

/-- A report to the four trains, seen from one of them: `e` is the event when its turn comes. -/
theorem foldl_trains {f : Ev → Nat → Ev} (other : ∀ i t u, i ≠ t → TrainsTold t u (f u i)) {t : Nat} (h : t < 4)
    (ev : Ev) : ∃ e, TrainsTold t ev e ∧ TrainsTold t (f e t) ((List.range 4).foldl f ev) :=
  (foldl_reaches TrainsTold.refl TrainsTold.trans (fun i j u h => other j i u h) t (List.range 4) List.nodup_range
    ev).2 (List.mem_range.2 h)

/-- A new dew-point value leaves the towers and the service of a train as they are. -/
theorem Train.dewValue_keeps (s : State) (d : TrainDef) (v : Int) (r : Train) :
    (r.dewValue s d v).towerA = r.towerA ∧ (r.dewValue s d v).towerB = r.towerB ∧
      (r.dewValue s d v).inService = r.inService := by
  unfold Train.dewValue
  split
  · exact ⟨rfl, rfl, rfl⟩
  · split
    · split <;> exact ⟨rfl, rfl, rfl⟩
    · split
      · split <;> exact ⟨rfl, rfl, rfl⟩
      · exact ⟨rfl, rfl, rfl⟩

/-- A new dew-point value tells no watch of a train. -/
theorem trainDewValue_state (ch : Nat) (v : Int) (ev : Ev) (t : Nat) :
    (trainDewValue ch v ev t).s = { ev.s with dtc := (trainDewValue ch v ev t).s.dtc } := by
  unfold trainDewValue
  split
  · rename_i d _
    split
    · obtain ⟨a, b, i⟩ := Train.dewValue_keeps ev.s d v (ev.s.train t)
      obtain ⟨h, quiet⟩ := changeTrain_quiet (f := (·.dewValue ev.s d v)) a b i
      rw [quiet]
      rfl
    · rfl
  · rfl

theorem Train.dewValue_out {r : Train} (h : r.inService = false) (s : State) (d : TrainDef) (v : Int) :
    r.dewValue s d v = r := by
  simp [Train.dewValue, h]

/-- A train in service that is off spec leaves that mark at the limit less the hysteresis (R73). -/
theorem Train.dewValue_offSpec {r : Train} (h : r.inService = true) (k : r.offSpec = true) (s : State) (d : TrainDef)
    (v : Int) : r.dewValue s d v = { r with offSpec := decide (d.dewLimit - d.hysteresis < v) } := by
  obtain ⟨present, service, mark, deadline, switch, a, b⟩ := r
  cases h
  cases k
  by_cases low : v ≤ d.dewLimit - d.hysteresis
  · simp [Train.dewValue, low, not_lt.2 low]
  · simp [Train.dewValue, low, not_le.1 low]

/-- A train in service within spec whose dew point is above the limit has an off-spec deadline (R71). -/
theorem Train.dewValue_high {r : Train} (h : r.inService = true) (k : r.offSpec = false) (s : State) {d : TrainDef}
    {v : Int} (high : d.dewLimit < v) :
    r.dewValue s d v = { r with offSpecDeadline := r.offSpecDeadline.or (some (s.after d.dwell)) } := by
  obtain ⟨present, service, mark, deadline, switch, a, b⟩ := r
  cases h
  cases k
  cases deadline <;> simp [Train.dewValue, high]

theorem Train.dewValue_low {r : Train} (h : r.inService = true) (k : r.offSpec = false) (s : State) {d : TrainDef}
    {v : Int} (low : v ≤ d.dewLimit) : r.dewValue s d v = { r with offSpecDeadline := none } := by
  simp [Train.dewValue, h, k, not_lt.2 low]

end Sys2Proof.Machine
end

section
/-! PROOFS. What a new value and a quality change of a channel leave at each of its consumers. -/

namespace Sys2Proof.Machine

/-! ### The consumers in their order (log entry 13) -/

/-- What holds of each operation of a fold holds of the fold. -/
theorem foldl_rel {α : Type} {f : Ev → α → Ev} {R : Ev → Ev → Prop} (refl : ∀ u, R u u)
    (trans : ∀ {u v w}, R u v → R v w → R u w) (each : ∀ u x, R u (f u x)) (l : List α) (ev : Ev) :
    R ev (l.foldl f ev) := by
  induction l generalizing ev with
  | nil => exact refl ev
  | cons x l ih => exact trans (each ev x) (ih _)

/-- Nothing but caverns has changed. -/
structure CavernsOnly (u v : Ev) : Prop extends u.Extends v where
  state : v.s = { u.s with cvc := v.s.cvc } := by rfl

theorem CavernsOnly.refl (u : Ev) : CavernsOnly u u := { toExtends := .refl u }

theorem CavernsOnly.trans {u v w : Ev} (h : CavernsOnly u v) (k : CavernsOnly v w) : CavernsOnly u w where
  toExtends := h.toExtends.trans k.toExtends
  state := by rw [k.state, h.state]

theorem changeCavern_only (c : Nat) (f : Cavern → Cavern) (ev : Ev) : CavernsOnly ev (changeCavern c f ev) where
  toExtends := Ev.Extends.trans {} (hand_extends _ _)

theorem cavernNewValue_only (v : Int) (ev : Ev) (c : Nat) : CavernsOnly ev (cavernNewValue c v ev) := by
  unfold cavernNewValue
  split
  · exact (changeCavern_only c _ ev).trans
      { toExtends := reportEnvelope_extends _ _ _ _, state := by rw [reportEnvelope_s] }
  · exact .refl ev

theorem cavernQuality_only (q : Quality) (v : Int) (ev : Ev) (c : Nat) : CavernsOnly ev (cavernQuality c q v ev) := by
  unfold cavernQuality
  split
  · exact changeCavern_only c _ ev
  · exact .refl ev

/-- A new value has been reported to the caverns of the channel. -/
def newValueCaverns (ch : Nat) (v : Int) (ev : Ev) : Ev :=
  (cavernsOn ch ev.s).foldl (fun e c => cavernNewValue c v e) ev

/-- A new value has been reported to the caverns and the trains. -/
def newValueTrains (ch : Nat) (v : Int) (ev : Ev) : Ev :=
  (List.range 4).foldl (trainDewValue ch v) (newValueCaverns ch v ev)

/-- A new value has been reported to the caverns, the trains and the planner. -/
def newValueHeader (ch : Nat) (v : Int) (ev : Ev) : Ev :=
  setHeader ch v ((newValueTrains ch v ev).s.chan ch).quality (newValueTrains ch v ev)

/-- A new value has been reported to every consumer but the watches. -/
def newValueTrips (ch : Nat) (v : Int) (ev : Ev) : Ev :=
  if (newValueHeader ch v ev).s.headerChannel = some ch then headerCheck v (newValueHeader ch v ev)
  else newValueHeader ch v ev

theorem newValue_eq (ch : Nat) (v : Int) (ev : Ev) :
    newValue ch v ev = newWatchValue (ev.s.follows ch) v (newValueTrips ch v ev) := rfl

theorem newValueCaverns_only (ch : Nat) (v : Int) (ev : Ev) : CavernsOnly ev (newValueCaverns ch v ev) :=
  foldl_rel CavernsOnly.refl CavernsOnly.trans (cavernNewValue_only v) _ ev

theorem trainDewValue_extends (ch : Nat) (v : Int) (ev : Ev) (t : Nat) : ev.Extends (trainDewValue ch v ev t) := by
  unfold trainDewValue
  split
  · split
    · exact Ev.Extends.trans {} (changeTrain_told _ _ _).toExtends
    · exact .refl ev
  · exact .refl ev

/-- A new dew-point value changes trains alone. -/
theorem newValueTrains_only (ch : Nat) (v : Int) (ev : Ev) :
    (newValueCaverns ch v ev).Extends (newValueTrains ch v ev) ∧
      (newValueTrains ch v ev).s = { (newValueCaverns ch v ev).s with dtc := (newValueTrains ch v ev).s.dtc } :=
  foldl_rel (R := fun u w => u.Extends w ∧ w.s = { u.s with dtc := w.s.dtc }) (fun u => ⟨.refl u, rfl⟩)
    (fun h k => ⟨h.1.trans k.1, by rw [k.2, h.2]⟩)
    (fun u t => ⟨trainDewValue_extends ch v u t, trainDewValue_state ch v u t⟩) (List.range 4) _

theorem setHeader_only (ch : Nat) (v : Int) (q : Quality) (ev : Ev) :
    ev.Extends (setHeader ch v q ev) ∧ (setHeader ch v q ev).s = { ev.s with fpl := (setHeader ch v q ev).s.fpl } := by
  unfold setHeader
  split
  · exact ⟨{}, rfl⟩
  · exact ⟨.refl ev, rfl⟩

theorem headerCheck_only (v : Int) (ev : Ev) :
    ev.Extends (headerCheck v ev) ∧ (headerCheck v ev).s = { ev.s with tru := (headerCheck v ev).s.tru } := by
  unfold headerCheck
  split
  · exact ⟨.refl ev, rfl⟩
  · dsimp only
    split
    · exact ⟨Ev.Extends.trans {} (launch_extends _ _), rfl⟩
    · exact ⟨{}, rfl⟩

theorem newValueTrips_only (ch : Nat) (v : Int) (ev : Ev) :
    (newValueHeader ch v ev).Extends (newValueTrips ch v ev) ∧
      (newValueTrips ch v ev).s = { (newValueHeader ch v ev).s with tru := (newValueTrips ch v ev).s.tru } := by
  unfold newValueTrips
  split
  · exact headerCheck_only _ _
  · exact ⟨.refl _, rfl⟩

/-- What a new value leaves as it was, and where each block it changes is changed. -/
theorem newValue_state (ch : Nat) (v : Int) (ev : Ev) : (newValue ch v ev).s =
    { ev.s with
      cvc := (newValueCaverns ch v ev).s.cvc, dtc := (newValueTrains ch v ev).s.dtc
      fpl := (newValueHeader ch v ev).s.fpl, tru := (newValueTrips ch v ev).s.tru
      wnu := (newValue ch v ev).s.wnu, slu := (newValue ch v ev).s.slu } := by
  rw [newValue_eq, (newWatchValue_told _ _ _).state, (newValueTrips_only ch v ev).2, newValueHeader,
    (setHeader_only _ _ _ _).2, (newValueTrains_only ch v ev).2, (newValueCaverns_only ch v ev).state]

/-- What the earlier consumers hand on is handed on at the end. -/
theorem newValueTrips_extends (ch : Nat) (v : Int) (ev : Ev) : (newValueTrips ch v ev).Extends (newValue ch v ev) :=
  newWatchValue_extends _ _ _

theorem newValueCaverns_extends (ch : Nat) (v : Int) (ev : Ev) :
    (newValueCaverns ch v ev).Extends (newValue ch v ev) :=
  (((newValueTrains_only ch v ev).1.trans (setHeader_only _ _ _ _).1).trans (newValueTrips_only ch v ev).1).trans
    (newValueTrips_extends ch v ev)

/-! ### A new value at a cavern (R23, R31, R33, R108) -/

/-- Envelope status of a cavern after a new pressure value, which is judged in service alone (R31). -/
def CavernDef.statusAfter (d : CavernDef) (r : Cavern) (v : Int) : Envelope :=
  if r.state = .outOfService then r.envelope else d.envelopeOf v

theorem cavernNewValue_eq {c : Nat} {v : Int} {ev : Ev} {d : CavernDef} (hd : ev.s.cavDef c = some d) :
    cavernNewValue c v ev = reportEnvelope c (ev.s.cav c).envelope (d.statusAfter (ev.s.cav c) v)
      (changeCavern c (fun r => { r with pressure := v, envelope := d.statusAfter (ev.s.cav c) v }) ev) := by
  unfold cavernNewValue
  rw [hd]
  rfl

/-- A status that becomes ABOVE is handed to the Trip Unit (R31). -/
theorem reportEnvelope_above {before : Envelope} (h : before ≠ .above) (c : Nat) (ev : Ev) :
    { code := 0x020, scope := some c } ∈ (reportEnvelope c before .above ev).launches := by
  rw [reportEnvelope, if_neg h]
  exact List.mem_append_right _ (List.mem_singleton_self _)

/-- A status that becomes BELOW is handed to the Trip Unit (R31). -/
theorem reportEnvelope_below {before : Envelope} (h : before ≠ .below) (c : Nat) (ev : Ev) :
    { code := 0x030, scope := some c } ∈ (reportEnvelope c before .below ev).launches := by
  rw [reportEnvelope, if_neg h]
  exact List.mem_append_right _ (List.mem_singleton_self _)

/-- What a new value leaves at a present cavern of the channel. -/
theorem newValue_cavern {ch c : Nat} {v : Int} {ev : Ev} {d : CavernDef} (h8 : c < 8)
    (hc : c < ev.s.cvc.caverns.length) (hd : ev.s.cavDef c = some d) (hch : d.channel = some ch) :
    (newValue ch v ev).s.cav c =
        Cavern.followed ev.s d { ev.s.cav c with pressure := v, envelope := d.statusAfter (ev.s.cav c) v } ∧
      ((ev.s.cav c).envelope ≠ d.statusAfter (ev.s.cav c) v → d.statusAfter (ev.s.cav c) v = .above →
        { code := 0x020, scope := some c } ∈ (newValue ch v ev).launches) ∧
      ((ev.s.cav c).envelope ≠ d.statusAfter (ev.s.cav c) v → d.statusAfter (ev.s.cav c) v = .below →
        { code := 0x030, scope := some c } ∈ (newValue ch v ev).launches) ∧
      (((newValue ch v ev).s.cav c).injPermit ≠ (ev.s.cav c).injPermit ∨
          ((newValue ch v ev).s.cav c).wdPermit ≠ (ev.s.cav c).wdPermit ∨
          ¬(v < d.boost ↔ (ev.s.cav c).pressure < d.boost) → (newValue ch v ev).restep = true) := by
  obtain ⟨e, before, after⟩ := foldl_cavernsOn (f := fun c e => cavernNewValue c v e)
    (fun i c u k => cavernNewValue_told k v u) (mem_cavernsOn.2 ⟨h8, d, hd, hch⟩)
  have hd' : e.s.cavDef c = some d := by rw [before.state]; exact hd
  have hc' : c < e.s.cvc.caverns.length := before.size ▸ hc
  have last : (newValue ch v ev).s.cav c = (newValueCaverns ch v ev).s.cav c := by
    rw [newValue_state]; rfl
  have kept := after.toExtends.trans (newValueCaverns_extends ch v ev)
  have followed (r : Cavern) : Cavern.followed e.s d r = Cavern.followed ev.s d r := by rw [before.state]; rfl
  rw [show (newValue ch v ev).s.cav c = _ from last.trans after.cav]
  simp only [cavernNewValue_eq hd', before.cav, reportEnvelope_s] at kept ⊢
  refine ⟨?_, fun changed above => ?_, fun changed below => ?_, fun changed => ?_⟩
  · rw [changeCavern_cav hd' hc', followed, before.cav]
  · rw [above] at changed kept
    exact kept.launches _ (reportEnvelope_above changed _ _)
  · rw [below] at changed kept
    exact kept.launches _ (reportEnvelope_below changed _ _)
  · refine kept.restep ((reportEnvelope_extends _ _ _ _).restep (changeCavern_restep hd' ?_))
    rw [before.cav]
    rw [changeCavern_cav hd' hc'] at changed ⊢
    exact changed

/-! ### A new value at a train (R71, R73) -/

theorem newValueTrains_state (ch : Nat) (v : Int) (ev : Ev) : (newValueTrains ch v ev).s =
    { ev.s with cvc := (newValueCaverns ch v ev).s.cvc, dtc := (newValueTrains ch v ev).s.dtc } := by
  rw [(newValueTrains_only ch v ev).2, (newValueCaverns_only ch v ev).state]

theorem trainDewValue_train {t : Nat} {ev : Ev} {d : TrainDef} (hd : ev.s.trainDef t = some d)
    (ht : t < ev.s.dtc.trains.length) (ch : Nat) (v : Int) : (trainDewValue ch v ev t).s.train t =
      if d.dewChannel = ch then (ev.s.train t).dewValue ev.s d v else ev.s.train t := by
  unfold trainDewValue
  rw [hd]
  dsimp only
  split
  · exact changeTrain_train _ ht
  · rfl

/-- What a new value leaves at a present train. -/
theorem newValue_train {ch t : Nat} {v : Int} {ev : Ev} {d : TrainDef} (h4 : t < 4) (ht : t < ev.s.dtc.trains.length)
    (hd : ev.s.trainDef t = some d) : (newValue ch v ev).s.train t =
      if d.dewChannel = ch then (ev.s.train t).dewValue ev.s d v else ev.s.train t := by
  obtain ⟨e, before, after⟩ := foldl_trains (f := trainDewValue ch v) (fun i t u k => trainDewValue_told k ch v u) h4
    (newValueCaverns ch v ev)
  have state : e.s = { ev.s with
      cvc := (newValueCaverns ch v ev).s.cvc, dtc := e.s.dtc, wnu := e.s.wnu, slu := e.s.slu } := by
    rw [before.state, (newValueCaverns_only ch v ev).state]
  have hd' : e.s.trainDef t = some d := by rw [state]; exact hd
  have same : e.s.train t = ev.s.train t := by
    rw [before.train, (newValueCaverns_only ch v ev).state]
    rfl
  have ht' : t < e.s.dtc.trains.length := by
    rw [before.size, (newValueCaverns_only ch v ev).state]
    exact ht
  have clock (r : Train) : r.dewValue e.s d v = r.dewValue ev.s d v := by rw [state]; rfl
  have last : (newValue ch v ev).s.train t = (newValueTrains ch v ev).s.train t := by
    rw [newValue_state]; rfl
  rw [last, ← clock, ← same, ← trainDewValue_train hd' ht']
  exact after.train

/-! ### A new value at the header (6.1, R154) -/

theorem newValueHeader_eq (ch : Nat) (v : Int) (ev : Ev) : newValueHeader ch v ev =
    if ev.s.headerChannel = some ch then (newValueTrains ch v ev).map fun s =>
      { s with fpl := { s.fpl with header := v, headerQuality := (ev.s.chan ch).quality } }
    else newValueTrains ch v ev := by
  unfold newValueHeader setHeader
  rw [newValueTrains_state]
  rfl

theorem newValueHeader_state (ch : Nat) (v : Int) (ev : Ev) : (newValueHeader ch v ev).s =
    { ev.s with
      cvc := (newValueCaverns ch v ev).s.cvc, dtc := (newValueTrains ch v ev).s.dtc
      fpl := (newValueHeader ch v ev).s.fpl } := by
  rw [newValueHeader, (setHeader_only _ _ _ _).2, newValueTrains_state]

/-- What a new value of the header channel leaves in the header's record and at the Trip Unit. -/
theorem newValue_header {ch : Nat} {v : Int} {ev : Ev} {p : Site} (hp : ev.s.site = some p) (hh : p.header = some ch) :
    (newValue ch v ev).s.fpl.header = v ∧ (newValue ch v ev).s.fpl.headerQuality = (ev.s.chan ch).quality ∧
      (newValue ch v ev).s.tru.headerAbove = decide (v > p.headerLimit) ∧
      (v > p.headerLimit → ev.s.tru.headerAbove = false → { code := 0x040 } ∈ (newValue ch v ev).launches) := by
  have header : ev.s.headerChannel = some ch := by rw [State.headerChannel, hp]; exact hh
  have record : (newValueHeader ch v ev).s.fpl =
      { (newValueTrains ch v ev).s.fpl with header := v, headerQuality := (ev.s.chan ch).quality } := by
    rw [newValueHeader_eq, if_pos header]
    rfl
  have checked : newValueTrips ch v ev = headerCheck v (newValueHeader ch v ev) := by
    refine if_pos ?_
    rw [newValueHeader_state]
    exact header
  have site : (newValueHeader ch v ev).s.site = some p := by rw [newValueHeader_state]; exact hp
  have status : (newValueHeader ch v ev).s.tru = ev.s.tru := by rw [newValueHeader_state]
  rw [newValue_state, record]
  refine ⟨rfl, rfl, ?_, fun above rises => (newValueTrips_extends ch v ev).launches _ ?_⟩
  · rw [checked, headerCheck, site]
    dsimp only
    split <;> rfl
  · have rise : (decide (v > p.headerLimit) && !ev.s.tru.headerAbove) = true := by simp [above, rises]
    rw [checked, headerCheck, site]
    dsimp only
    rw [status, if_pos rise]
    exact List.mem_append_right _ (List.mem_singleton_self _)

/-- A new value of another channel than the header's reaches neither the planner's record nor the Trip Unit. -/
theorem newValue_noHeader {ch : Nat} {v : Int} {ev : Ev} (h : ev.s.headerChannel ≠ some ch) :
    (newValue ch v ev).s.fpl = ev.s.fpl ∧ (newValue ch v ev).s.tru = ev.s.tru := by
  have same : newValueHeader ch v ev = newValueTrains ch v ev := by rw [newValueHeader_eq, if_neg h]
  have unchecked : newValueTrips ch v ev = newValueTrains ch v ev := by
    rw [newValueTrips, same]
    refine if_neg ?_
    rw [newValueTrains_state]
    exact h
  rw [newValue_state, same, unchecked, newValueTrains_state]
  exact ⟨rfl, rfl⟩

/-- The watches are evaluated after every other consumer, none of which has told a watch. -/
theorem newValueTrips_wnu (ch : Nat) (v : Int) (ev : Ev) : (newValueTrips ch v ev).s.wnu = ev.s.wnu := by
  rw [(newValueTrips_only ch v ev).2, newValueHeader_state]

/-! ### A quality change (R23, R33, R73) -/

/-- A quality change has been reported to the caverns of the channel. -/
def qualityCaverns (ch : Nat) (ev : Ev) : Ev :=
  (cavernsOn ch ev.s).foldl (fun e c => cavernQuality c (ev.s.chan ch).quality (ev.s.chan ch).value e) ev

/-- A quality change has been reported to the caverns and the trains. -/
def qualityTrains (ch : Nat) (ev : Ev) : Ev :=
  if (ev.s.chan ch).quality = .lost then (List.range 4).foldl (trainDewLost ch) (qualityCaverns ch ev)
  else qualityCaverns ch ev

theorem qualityChange_eq (ch : Nat) (ev : Ev) :
    qualityChange ch ev = setHeader ch (ev.s.chan ch).value (ev.s.chan ch).quality (qualityTrains ch ev) := rfl

theorem qualityCaverns_only (ch : Nat) (ev : Ev) : CavernsOnly ev (qualityCaverns ch ev) :=
  foldl_rel CavernsOnly.refl CavernsOnly.trans (cavernQuality_only _ _) _ ev

/-- Trains marked OFF_SPEC tell watches, and change nothing else but themselves. -/
theorem trainDewLost_only (ch : Nat) (ev : Ev) (t : Nat) : ev.Extends (trainDewLost ch ev t) ∧
    (trainDewLost ch ev t).s = { ev.s with
      dtc := (trainDewLost ch ev t).s.dtc, wnu := (trainDewLost ch ev t).s.wnu
      slu := (trainDewLost ch ev t).s.slu } :=
  have told := trainDewLost_told (Nat.succ_ne_self t).symm ch ev
  ⟨told.toExtends, told.state⟩

theorem qualityTrains_only (ch : Nat) (ev : Ev) : (qualityCaverns ch ev).Extends (qualityTrains ch ev) ∧
    (qualityTrains ch ev).s = { (qualityCaverns ch ev).s with
      dtc := (qualityTrains ch ev).s.dtc, wnu := (qualityTrains ch ev).s.wnu, slu := (qualityTrains ch ev).s.slu } := by
  unfold qualityTrains
  split
  · exact foldl_rel
      (R := fun u w => u.Extends w ∧ w.s = { u.s with dtc := w.s.dtc, wnu := w.s.wnu, slu := w.s.slu })
      (fun u => ⟨.refl u, rfl⟩) (fun h k => ⟨h.1.trans k.1, by rw [k.2, h.2]⟩) (trainDewLost_only ch) (List.range 4) _
  · exact ⟨.refl _, rfl⟩

/-- What a quality change leaves as it was, and where each block it changes is changed. -/
theorem qualityChange_state (ch : Nat) (ev : Ev) : (qualityChange ch ev).s =
    { ev.s with
      cvc := (qualityCaverns ch ev).s.cvc, dtc := (qualityTrains ch ev).s.dtc
      fpl := (qualityChange ch ev).s.fpl
      wnu := (qualityTrains ch ev).s.wnu, slu := (qualityTrains ch ev).s.slu } := by
  rw [qualityChange_eq, (setHeader_only _ _ _ _).2, (qualityTrains_only ch ev).2, (qualityCaverns_only ch ev).state]

theorem qualityTrains_extends (ch : Nat) (ev : Ev) : (qualityTrains ch ev).Extends (qualityChange ch ev) :=
  (setHeader_only _ _ _ _).1

/-- A quality change leaves the Measurement Unit as it is. -/
theorem qualityChange_mu (ch : Nat) (ev : Ev) : (qualityChange ch ev).s.mu = ev.s.mu := by
  rw [qualityChange_state]

/-- What a quality change leaves at a present cavern of the channel. -/
theorem qualityChange_cavern {ch c : Nat} {ev : Ev} {d : CavernDef} (h8 : c < 8)
    (hc : c < ev.s.cvc.caverns.length) (hd : ev.s.cavDef c = some d) (hch : d.channel = some ch) :
    (qualityChange ch ev).s.cav c = Cavern.followed ev.s d
        { ev.s.cav c with pressure := (ev.s.chan ch).value, quality := (ev.s.chan ch).quality } ∧
      (((qualityChange ch ev).s.cav c).injPermit ≠ (ev.s.cav c).injPermit ∨
          ((qualityChange ch ev).s.cav c).wdPermit ≠ (ev.s.cav c).wdPermit ∨
          ¬((ev.s.chan ch).value < d.boost ↔ (ev.s.cav c).pressure < d.boost) →
        (qualityChange ch ev).restep = true) := by
  obtain ⟨e, before, after⟩ := foldl_cavernsOn
    (f := fun c e => cavernQuality c (ev.s.chan ch).quality (ev.s.chan ch).value e)
    (fun i c u k => cavernQuality_told k _ _ u) (mem_cavernsOn.2 ⟨h8, d, hd, hch⟩)
  have hd' : e.s.cavDef c = some d := by rw [before.state]; exact hd
  have hc' : c < e.s.cvc.caverns.length := before.size ▸ hc
  have last : (qualityChange ch ev).s.cav c = (qualityCaverns ch ev).s.cav c := by
    rw [qualityChange_state]; rfl
  have kept := (after.toExtends.trans (qualityTrains_only ch ev).1).trans (qualityTrains_extends ch ev)
  have followed (r : Cavern) : Cavern.followed e.s d r = Cavern.followed ev.s d r := by rw [before.state]; rfl
  have changed : cavernQuality c (ev.s.chan ch).quality (ev.s.chan ch).value e = changeCavern c
      (fun r => { r with pressure := (ev.s.chan ch).value, quality := (ev.s.chan ch).quality }) e := by
    rw [cavernQuality, hd']
  rw [show (qualityChange ch ev).s.cav c = _ from last.trans after.cav]
  simp only [changed] at kept ⊢
  refine ⟨?_, fun differs => kept.restep (changeCavern_restep hd' ?_)⟩
  · rw [changeCavern_cav hd' hc', followed, before.cav]
  · rw [before.cav]
    rw [changeCavern_cav hd' hc'] at differs ⊢
    exact differs

/-- A train's mark of OFF_SPEC is set, and TRAIN_OFF_SPEC raised (R73). -/
theorem markOffSpec_train {t : Nat} {ev : Ev} (ht : t < ev.s.dtc.trains.length) :
    (markOffSpec t ev).s.train t = { ev.s.train t with offSpec := true, offSpecDeadline := none } ∧
      ⟨.trainOffSpec, some t, .none⟩ ∈ (markOffSpec t ev).raised := by
  refine ⟨?_, (raise_extends _ _ _ _).2⟩
  exact ((raise_told _ _ _ _).trains t).train.trans (changeTrain_train _ ht)

/-- What a quality change leaves at a present train: a change to LOST of its dew-point channel marks it OFF_SPEC. -/
theorem qualityChange_train {ch t : Nat} {ev : Ev} {d : TrainDef} (h4 : t < 4) (ht : t < ev.s.dtc.trains.length)
    (hd : ev.s.trainDef t = some d) :
    (d.dewChannel = ch → (ev.s.chan ch).quality = .lost → (ev.s.train t).inService = true →
        (ev.s.train t).offSpec = false →
      (qualityChange ch ev).s.train t = { ev.s.train t with offSpec := true, offSpecDeadline := none } ∧
        ⟨.trainOffSpec, some t, .none⟩ ∈ (qualityChange ch ev).raised) ∧
    (d.dewChannel ≠ ch ∨ (ev.s.chan ch).quality ≠ .lost ∨ (ev.s.train t).inService = false ∨
        (ev.s.train t).offSpec = true → (qualityChange ch ev).s.train t = ev.s.train t) := by
  have last : (qualityChange ch ev).s.train t = (qualityTrains ch ev).s.train t := by
    rw [qualityChange_state]; rfl
  have first : (qualityCaverns ch ev).s.train t = ev.s.train t := by
    rw [(qualityCaverns_only ch ev).state]; rfl
  by_cases lost : (ev.s.chan ch).quality = .lost
  · have trains : qualityTrains ch ev = (List.range 4).foldl (trainDewLost ch) (qualityCaverns ch ev) := if_pos lost
    obtain ⟨e, before, after⟩ := foldl_trains (f := trainDewLost ch) (fun i t u k => trainDewLost_told k ch u) h4
      (qualityCaverns ch ev)
    rw [← trains] at after
    have same : e.s.train t = ev.s.train t := before.train.trans first
    have hd' : e.s.trainDef t = some d := by
      rw [before.state, (qualityCaverns_only ch ev).state]; exact hd
    have ht' : t < e.s.dtc.trains.length := by
      rw [before.size, (qualityCaverns_only ch ev).state]; exact ht
    have kept := after.toExtends.trans (qualityTrains_extends ch ev)
    have turn : trainDewLost ch e t =
        if d.dewChannel = ch ∧ (ev.s.train t).inService = true ∧ (!(ev.s.train t).offSpec) = true then markOffSpec t e
        else e := by
      rw [trainDewLost, hd', same]
    rw [last, after.train]
    refine ⟨fun dew _ service spec => ?_, fun others => ?_⟩
    · rw [turn, if_pos ⟨dew, service, by simp [spec]⟩] at kept ⊢
      obtain ⟨marked, raised⟩ := markOffSpec_train ht'
      exact ⟨marked.trans (by rw [same]), kept.raised _ raised⟩
    · rw [turn, if_neg, same]
      rintro ⟨dew, service, spec⟩
      rcases others with h | h | h | h
      · exact h dew
      · exact h lost
      · rw [h] at service; cases service
      · rw [h] at spec; cases spec
  · have trains : qualityTrains ch ev = qualityCaverns ch ev := if_neg lost
    rw [last, trains, first]
    exact ⟨fun _ k => absurd k lost, fun _ => rfl⟩

/-- What a quality change leaves in the header's record and at the Trip Unit (6.1, R154). -/
theorem qualityChange_header (ch : Nat) (ev : Ev) :
    (ev.s.headerChannel = some ch → (qualityChange ch ev).s.fpl.header = (ev.s.chan ch).value ∧
      (qualityChange ch ev).s.fpl.headerQuality = (ev.s.chan ch).quality) ∧
    (ev.s.headerChannel ≠ some ch → (qualityChange ch ev).s.fpl = ev.s.fpl) ∧
    (qualityChange ch ev).s.tru = ev.s.tru := by
  have state : (qualityTrains ch ev).s = { ev.s with
      cvc := (qualityCaverns ch ev).s.cvc, dtc := (qualityTrains ch ev).s.dtc
      wnu := (qualityTrains ch ev).s.wnu, slu := (qualityTrains ch ev).s.slu } := by
    rw [(qualityTrains_only ch ev).2, (qualityCaverns_only ch ev).state]
  have channel : (qualityTrains ch ev).s.headerChannel = ev.s.headerChannel := by rw [state]; rfl
  refine ⟨fun h => ?_, fun h => ?_, by rw [qualityChange_state]⟩
  · rw [qualityChange_eq, setHeader, if_pos (channel.trans h)]
    exact ⟨rfl, rfl⟩
  · rw [qualityChange_eq, setHeader, if_neg (channel ▸ h), state]

end Sys2Proof.Machine
end

section
/-! PROOFS. Readings, holds and the recalibration pass (R1 to R9). -/

namespace Sys2Proof.Machine

/-! ### Readings (R1 to R7) -/

theorem State.updChan_updChan (s : State) (c : Nat) (f g : Channel → Channel) :
    (s.updChan c f).updChan c g = s.updChan c (g ∘ f) := by
  simp only [State.updChan, List.modify_modify_eq]

theorem State.chan_updChan_self {s : State} {c : Nat} (h : c < s.mu.channels.length) (f : Channel → Channel) :
    (s.updChan c f).chan c = f (s.chan c) :=
  (s.chan_updChan c c f).trans (if_pos ⟨rfl, h⟩)

/-- An event that a running part takes when it is enabled. -/
theorem occurs_eq {enabled : State → Bool} {f : Ev → Ev} {s : State} (run : s.phase = .running)
    (h : enabled s = true) : occurs enabled f s = (f s.ev).finish := by
  simp [occurs, run, h]

/-- An event that is not enabled changes nothing (log entry 2). -/
theorem occurs_disabled {enabled : State → Bool} {f : Ev → Ev} {s : State} (h : enabled s = false) :
    occurs enabled f s = s := by
  simp [occurs, h]

theorem exec_channelReading {s : State} {ch : Nat} {d : ChanDef} (i : Nat) (run : s.phase = .running)
    (pass : s.mu.pass ≠ .running) (hd : s.chanDef ch = some d) :
    exec (.channelReading ch i) s = .next (reading ch i d s.ev).finish := by
  refine congrArg _ ((occurs_eq run (by simpa using pass)).trans ?_)
  rw [State.ev_s, hd]

/-- A reading of a LIVE channel takes its raw current and is then judged by its conversion (R1). -/
theorem reading_live {s : State} {ch : Nat} (h : (s.chan ch).mode = .live) (i : Nat) (d : ChanDef) :
    reading ch i d s.ev = match d.convert i with
      | some v => inRangeReading ch v (s.updChan ch fun x => { x with raw := some i }).ev
      | none => outOfRangeReading ch d (s.updChan ch fun x => { x with raw := some i }).ev := by
  have live : ¬(s.chan ch).mode = .check := by rw [h]; decide
  exact if_neg live

theorem outOfRangeReading_good {s : State} {ch : Nat} (h : (s.chan ch).quality = .good) (d : ChanDef) :
    outOfRangeReading ch d s.ev = qualityChange ch (s.updChan ch fun x =>
      { x with good := 0, quality := .held, hold := some (s.after d.hold) }).ev := if_pos h

theorem outOfRangeReading_notGood {s : State} {ch : Nat} (h : (s.chan ch).quality ≠ .good) (d : ChanDef) :
    outOfRangeReading ch d s.ev = (s.updChan ch fun x => { x with good := 0 }).ev := if_neg h

theorem inRangeReading_good {s : State} {ch : Nat} (h : (s.chan ch).quality = .good) (v : Int) :
    inRangeReading ch v s.ev = newValue ch v (s.updChan ch fun x => { x with value := v, good := 3 }).ev := if_pos h

theorem inRangeReading_counts {s : State} {ch : Nat} (h : (s.chan ch).quality ≠ .good) (k : (s.chan ch).good < 2)
    (v : Int) : inRangeReading ch v s.ev = (s.updChan ch fun x => { x with good := x.good + 1 }).ev :=
  (if_neg h).trans (if_pos k)

theorem inRangeReading_restores {s : State} {ch : Nat} (h : (s.chan ch).quality ≠ .good) (k : 2 ≤ (s.chan ch).good)
    (v : Int) : inRangeReading ch v s.ev = newValue ch v (qualityChange ch (s.updChan ch fun x =>
      { x with value := v, quality := .good, hold := none, good := 3, passHeld := false }).ev) :=
  (if_neg h).trans (if_neg (Nat.not_lt.2 k))

/-- The raw current of a reading. -/
def State.withRaw (s : State) (ch i : Nat) : State := s.updChan ch fun x => { x with raw := some i }

theorem withRaw_quality {s : State} {ch : Nat} (h : ch < s.mu.channels.length) (i : Nat) :
    ((s.withRaw ch i).chan ch).quality = (s.chan ch).quality := by
  rw [State.withRaw, State.chan_updChan_self h]

theorem withRaw_good {s : State} {ch : Nat} (h : ch < s.mu.channels.length) (i : Nat) :
    ((s.withRaw ch i).chan ch).good = (s.chan ch).good := by
  rw [State.withRaw, State.chan_updChan_self h]

theorem withRaw_updChan (s : State) (ch i : Nat) (f : Channel → Channel) :
    (s.withRaw ch i).updChan ch f = s.updChan ch fun x => f { x with raw := some i } :=
  State.updChan_updChan s ch _ f

theorem exec_outOfRange {s : State} {ch i : Nat} {d : ChanDef} (run : s.phase = .running)
    (pass : s.mu.pass ≠ .running) (hd : s.chanDef ch = some d) (live : (s.chan ch).mode = .live)
    (out : d.convert i = none) :
    exec (.channelReading ch i) s = .next (outOfRangeReading ch d (s.withRaw ch i).ev).finish := by
  rw [exec_channelReading i run pass hd, reading_live live, out]
  rfl

theorem exec_inRange {s : State} {ch i : Nat} {d : ChanDef} {v : Int} (run : s.phase = .running)
    (pass : s.mu.pass ≠ .running) (hd : s.chanDef ch = some d) (live : (s.chan ch).mode = .live)
    (value : d.convert i = some v) :
    exec (.channelReading ch i) s = .next (inRangeReading ch v (s.withRaw ch i).ev).finish := by
  rw [exec_channelReading i run pass hd, reading_live live, value]
  rfl

/-- Settles O9. -/
theorem outOfRangeReadingHolds : Obligations.OutOfRangeReadingHolds := by
  intro s ch i d run pass hd live out inside
  have quality := withRaw_quality inside i
  refine ⟨fun good => (exec_outOfRange run pass hd live out).trans ?_,
    fun notGood => (exec_outOfRange run pass hd live out).trans ?_⟩
  · rw [outOfRangeReading_good (quality.trans good), withRaw_updChan]
    rfl
  · rw [outOfRangeReading_notGood (quality ▸ notGood), withRaw_updChan]
    rfl

/-- A reading of a channel in CHECK takes the test current and gives the check result (R7). -/
theorem reading_check {s : State} {ch test : Nat} (h : (s.chan ch).mode = .check) (k : (s.chan ch).test = some test)
    (i : Nat) (d : ChanDef) : reading ch i d s.ev = (s.updChan ch fun x =>
      { x with
        raw := some test
        check := some (match d.convert test with
          | some v => .value v
          | none => .outOfRange) }).ev := by
  have checked : s.updChan ch (·.checkReading d) = s.updChan ch fun x =>
      { x with
        raw := some test
        check := some (match d.convert test with
          | some v => .value v
          | none => .outOfRange) } := by
    apply State.updChan_congr
    rw [Channel.checkReading, k]
    rfl
  exact (if_pos h).trans (congrArg State.ev checked)

/-- The sources of the watches that a new value of a channel is evaluated at. -/
theorem follows_eq (s : State) (ch : Nat) : s.follows ch = fun src => match src with
    | .channel i => i == ch
    | .cavernPressure c => (s.cavDef c).any fun d => d.channel == some ch
    | .trainLoading _ | .obaBalance | .accountInventory _ | .meterRate _ | .event _ _ => false := by
  funext src
  cases src <;> rfl

/-- Settles O10: the reading by mode, quality and count, and then each consumer of a new value in its turn. -/
theorem readingsRestoreAndCheck : Obligations.ReadingsRestoreAndCheck := by
  refine ⟨fun s ch i test d v run => ⟨fun pass hd inside => ⟨fun live value good => ?good,
    fun live value notGood few => ?counts, fun live value notGood third => ?restores, fun check hTest => ?check⟩,
    fun idle => ?idle⟩, fun ev ch v => ⟨?caverns, ?trains, ?header, ?noHeader, ?watches⟩⟩
  case good =>
    refine (exec_inRange run pass hd live value).trans ?_
    rw [inRangeReading_good ((withRaw_quality inside i).trans good), withRaw_updChan]
  case counts =>
    refine (exec_inRange run pass hd live value).trans ?_
    rw [inRangeReading_counts (withRaw_quality inside i ▸ notGood) (withRaw_good inside i ▸ few), withRaw_updChan]
    rfl
  case restores =>
    refine (exec_inRange run pass hd live value).trans ?_
    rw [inRangeReading_restores (withRaw_quality inside i ▸ notGood) (withRaw_good inside i ▸ third), withRaw_updChan]
  case check =>
    rw [exec_channelReading i run pass hd, reading_check check hTest]
    rfl
  case idle =>
    by_cases pass : s.mu.pass = .running
    · exact congrArg _ (occurs_disabled (by simp [pass]))
    · have invalid : s.chanDef ch = none := idle.resolve_right pass
      refine congrArg _ ((occurs_eq run (by simpa using pass)).trans ?_)
      rw [State.ev_s, invalid]
      rfl
  case caverns =>
    intro c d h8 inside hd hch
    exact newValue_cavern h8 inside hd hch
  case trains =>
    intro t d h4 inside hd
    have record := newValue_train (ch := ch) (v := v) h4 inside hd
    refine ⟨fun other => ?_, fun dew service => ⟨fun off => ?_, fun spec high => ?_, fun spec low => ?_⟩⟩
    · rcases other with notDew | out
      · exact record.trans (if_neg notDew)
      · exact record.trans (by rw [Train.dewValue_out out, ite_self])
    · exact record.trans ((if_pos dew).trans (Train.dewValue_offSpec service off _ _ _))
    · exact record.trans ((if_pos dew).trans (Train.dewValue_high service spec _ high))
    · exact record.trans ((if_pos dew).trans (Train.dewValue_low service spec _ low))
  case header => exact fun p hp hh => newValue_header hp hh
  case noHeader => exact newValue_noHeader
  case watches =>
    refine ⟨newValueTrips ch v ev, newValueTrips_wnu ch v ev, ?_⟩
    rw [newValue_eq, follows_eq]
    rfl

/-! ### Holds and the recalibration pass (R4, R9) -/

/-- The end of an event leaves the Measurement Unit as it is. -/
theorem finish_mu (ev : Ev) : ev.finish.mu = ev.s.mu := (finish_frame (G := False) (B := False) ev).mu id

theorem finish_chan (ev : Ev) (i : Nat) : ev.finish.chan i = ev.s.chan i :=
  congrArg (fun m : Mu => m.channels.getD i {}) (finish_mu ev)

theorem qualityChange_chan (ch : Nat) (ev : Ev) (i : Nat) : (qualityChange ch ev).s.chan i = ev.s.chan i :=
  congrArg (fun m : Mu => m.channels.getD i {}) (qualityChange_mu ch ev)

theorem raise_chan (name : EventName) (index : Option Nat) (ev : Ev) (data : EventData) (i : Nat) :
    (raise name index ev data).s.chan i = ev.s.chan i := by
  have same : (raise name index ev data).s.mu = ev.s.mu := by rw [(raise_told name index ev data).state]
  exact congrArg (fun m : Mu => m.channels.getD i {}) same

/-- A channel beyond the table reads as one that has just been reset. -/
theorem State.chan_outside {s : State} {i : Nat} (h : ¬i < s.mu.channels.length) : s.chan i = {} :=
  List.getD_eq_default _ _ (Nat.not_lt.1 h)

/-- A channel whose quality is not LOST is in the table. -/
theorem State.inside_of_quality {s : State} {i : Nat} (h : (s.chan i).quality ≠ .lost) :
    i < s.mu.channels.length := by
  by_contra out
  exact h (by rw [State.chan_outside out])

/-- A channel that the recalibration pass holds is in the table. -/
theorem State.inside_of_passHeld {s : State} {i : Nat} (h : (s.chan i).passHeld = true) :
    i < s.mu.channels.length := by
  by_contra out
  rw [State.chan_outside out] at h
  cases h

/-- A pass over the channels reaches each of them once, and changes no other with it. -/
theorem foldl_chan {f : Ev → Nat → Ev} {g : Channel → Channel}
    (self : ∀ u i, (f u i).s.chan i = g (u.s.chan i)) (other : ∀ u i j, j ≠ i → (f u j).s.chan i = u.s.chan i) {i : Nat}
    (h : i < 16) (ev : Ev) : ((List.range 16).foldl f ev).s.chan i = g (ev.s.chan i) := by
  obtain ⟨e, before, after⟩ := (foldl_reaches (R := fun i u w => w.s.chan i = u.s.chan i) (fun _ _ => rfl)
    (fun h k => k.trans h) (fun i j u k => other u i j k) i (List.range 16) List.nodup_range ev).2 (List.mem_range.2 h)
  rw [after, self, before]

/-- A channel's record after the recalibration pass has begun at it. -/
def Channel.passBegun (x : Channel) : Channel :=
  if x.mode = .live ∧ x.quality = .good then { x with quality := .held, hold := none, passHeld := true } else x

/-- A channel's record after the recalibration pass has ended at it. -/
def Channel.passEnded (x : Channel) : Channel :=
  if x.passHeld = true then { x with quality := .good, passHeld := false } else x

theorem passBegins_chan (ev : Ev) (i : Nat) : (passBegins ev i).s.chan i = (ev.s.chan i).passBegun := by
  unfold passBegins Channel.passBegun
  dsimp only
  split
  · rename_i h
    have inside := State.inside_of_quality (s := ev.s) (i := i) (by rw [h.2]; decide)
    rw [qualityChange_chan]
    exact State.chan_updChan_self inside _
  · rfl

theorem passEnds_chan (ev : Ev) (i : Nat) : (passEnds ev i).s.chan i = (ev.s.chan i).passEnded := by
  unfold passEnds Channel.passEnded
  split
  · rename_i h
    rw [qualityChange_chan]
    exact State.chan_updChan_self (State.inside_of_passHeld h) _
  · rfl

theorem passBegins_other (ev : Ev) (i j : Nat) (h : j ≠ i) : (passBegins ev j).s.chan i = ev.s.chan i := by
  unfold passBegins
  dsimp only
  split
  · rw [qualityChange_chan]
    exact (State.chan_updChan _ j i _).trans (if_neg fun k => h k.1)
  · rfl

theorem passEnds_other (ev : Ev) (i j : Nat) (h : j ≠ i) : (passEnds ev j).s.chan i = ev.s.chan i := by
  unfold passEnds
  split
  · rw [qualityChange_chan]
    exact (State.chan_updChan _ j i _).trans (if_neg fun k => h k.1)
  · rfl

theorem passBegins_pass (ev : Ev) (i : Nat) : (passBegins ev i).s.mu.pass = ev.s.mu.pass := by
  unfold passBegins
  dsimp only
  split
  · rw [qualityChange_mu]; rfl
  · rfl

theorem passEnds_pass (ev : Ev) (i : Nat) : (passEnds ev i).s.mu.pass = ev.s.mu.pass := by
  unfold passEnds
  split
  · rw [qualityChange_mu]; rfl
  · rfl

/-- A pass over the channels leaves the pass itself as it is. -/
theorem foldl_pass {f : Ev → Nat → Ev} (each : ∀ u i, (f u i).s.mu.pass = u.s.mu.pass) (l : List Nat) (ev : Ev) :
    (l.foldl f ev).s.mu.pass = ev.s.mu.pass :=
  foldl_rel (R := fun u w => w.s.mu.pass = u.s.mu.pass) (fun _ => rfl) (fun h k => k.trans h) each l ev

theorem exec_holdExpiry {s : State} {ch : Nat} (run : s.phase = .running) (held : (s.chan ch).quality = .held)
    (passed : due s.clock (s.chan ch).hold = true) :
    exec (.holdExpiry ch) s = .next (holdExpired ch s.ev).finish :=
  congrArg Host.Outcome.next (occurs_eq run (by simp [held, passed]))

theorem exec_recalibrationBegin {s : State} (run : s.phase = .running) (pending : s.mu.pass = .pending) :
    exec .recalibrationBegin s = .next ((List.range 16).foldl passBegins
      ({ s with mu := { s.mu with pass := .running } } : State).ev).finish :=
  congrArg Host.Outcome.next (occurs_eq run (by simp [pending]))

theorem exec_recalibrationComplete {s : State} (run : s.phase = .running) (running : s.mu.pass = .running) :
    exec .recalibrationComplete s = .next ((List.range 16).foldl passEnds
      ({ s with mu := { s.mu with pass := .none } } : State).ev).finish :=
  congrArg Host.Outcome.next (occurs_eq run (by simp [running]))

theorem passBegins_eq : passBegins = fun ev i =>
    if (ev.s.chan i).mode = .live ∧ (ev.s.chan i).quality = .good then
      qualityChange i { ev with s := ev.s.updChan i fun x =>
        { x with quality := .held, hold := none, passHeld := true } }
    else ev := rfl

theorem passEnds_eq : passEnds = fun ev i =>
    if (ev.s.chan i).passHeld = true then
      qualityChange i { ev with s := ev.s.updChan i fun x => { x with quality := .good, passHeld := false } }
    else ev := rfl

/-- Settles O11. -/
theorem holdsExpireAndPassesRun : Obligations.HoldsExpireAndPassesRun := by
  refine ⟨fun s ch run => ⟨fun held passed => ⟨exec_holdExpiry run held passed, ?lost⟩, fun idle => ?notHeld,
    fun pending => ⟨?begins, ?begun⟩, fun idle => ?notPending, fun running => ⟨?ends, ?ended⟩, fun idle => ?notRunning⟩,
    fun ev ch => ⟨?caverns, ?trains, ?header⟩⟩
  case lost =>
    refine ⟨_, exec_holdExpiry run held passed, ?_⟩
    have inside := State.inside_of_quality (s := s) (i := ch) (by rw [held]; decide)
    rw [finish_chan, holdExpired, raise_chan, qualityChange_chan]
    exact State.chan_updChan_self inside _
  case notHeld =>
    refine congrArg _ (occurs_disabled ?_)
    rcases idle with quality | early
    · simp [quality]
    · simp [early]
  case begins => exact passBegins_eq ▸ exec_recalibrationBegin run pending
  case begun =>
    refine ⟨_, exec_recalibrationBegin run pending, ?_, fun i h => ?_⟩
    · rw [finish_mu, foldl_pass passBegins_pass]; rfl
    · rw [finish_chan, foldl_chan passBegins_chan passBegins_other h]; rfl
  case notPending => exact congrArg _ (occurs_disabled (by simp [idle]))
  case ends => exact passEnds_eq ▸ exec_recalibrationComplete run running
  case ended =>
    refine ⟨_, exec_recalibrationComplete run running, ?_, fun i h => ?_⟩
    · rw [finish_mu, foldl_pass passEnds_pass]; rfl
    · rw [finish_chan, foldl_chan passEnds_chan passEnds_other h]; rfl
  case notRunning => exact congrArg _ (occurs_disabled (by simp [idle]))
  case caverns => exact fun c d h8 inside hd hch => qualityChange_cavern h8 inside hd hch
  case trains => exact fun t d h4 inside hd => qualityChange_train h4 inside hd
  case header => exact qualityChange_header ch ev

end Sys2Proof.Machine
end

section
/-! PROOFS. Loop checks (R6 to R9). -/

namespace Sys2Proof.Machine

/-! ### What uses a channel (R6) -/

/-- A cavern that uses a channel and is not at rest for a loop check. -/
def State.cavernUses (s : State) (ch c : Nat) : Prop :=
  (∃ k, s.cavDef c = some k ∧ k.channel = some ch) ∧ (s.cav c).state ≠ .shut ∧ (s.cav c).state ≠ .outOfService

/-- A train that uses a channel and is not at rest for a loop check. -/
def State.trainUses (s : State) (ch n : Nat) : Prop :=
  (∃ k, s.trainDef n = some k ∧ (k.dewChannel = ch ∨ k.inletChannel = ch)) ∧ s.trainState n ≠ .offline

/-- The test that `State.channelInUse` makes of a cavern. -/
def State.cavernUsesTest (s : State) (ch c : Nat) : Bool :=
  decide (((s.cavDef c).any fun d => d.channel == some ch) = true ∧
    ((s.cav c).state != .shut && (s.cav c).state != .outOfService) = true)

/-- The test that `State.channelInUse` makes of a train. -/
def State.trainUsesTest (s : State) (ch n : Nat) : Bool :=
  (s.trainDef n).any (fun d => d.dewChannel == ch || d.inletChannel == ch) && s.trainState n != .offline

theorem cavernUsesTest_iff (s : State) (ch c : Nat) : s.cavernUsesTest ch c = true ↔ s.cavernUses ch c := by
  simp [State.cavernUsesTest, State.cavernUses, Option.any_eq_true]

theorem trainUsesTest_iff (s : State) (ch n : Nat) : s.trainUsesTest ch n = true ↔ s.trainUses ch n := by
  simp [State.trainUsesTest, State.trainUses, Option.any_eq_true]

/-- The detail of a channel in use, from the two searches. -/
theorem channelInUse_eq (s : State) (ch : Nat) : s.channelInUse ch =
    match (List.range 8).find? (s.cavernUsesTest ch) with
    | some c => some ⟨.cavern, c⟩
    | none => ((List.range 4).find? (s.trainUsesTest ch)).map fun t => ⟨.train, t⟩ := by
  unfold State.channelInUse cavernsOn
  rw [List.find?_filter]
  rfl

/-- The lowest number below a bound that passes a test is what the search finds. -/
theorem find?_range_lowest {p : Nat → Bool} {P : Nat → Prop} (test : ∀ k, p k = true ↔ P k) {n k : Nat} (h : k < n)
    (hk : P k) (lowest : ∀ j, j < k → ¬P j) : (List.range n).find? p = some k := by
  rw [List.find?_range_eq_some]
  exact ⟨(test k).2 hk, List.mem_range.2 h, fun j hj => by simpa using mt (test j).1 (lowest j hj)⟩

theorem find?_range_none {p : Nat → Bool} {P : Nat → Prop} (test : ∀ k, p k = true ↔ P k) {n : Nat}
    (h : ∀ k, k < n → ¬P k) : (List.range n).find? p = none := by
  rw [List.find?_eq_none]
  exact fun k hk => mt (test k).1 (h k (List.mem_range.1 hk))

/-- The lowest cavern that uses a channel is named (log entry 35). -/
theorem channelInUse_cavern {s : State} {ch c : Nat} (h8 : c < 8) (uses : s.cavernUses ch c)
    (lowest : ∀ b, b < c → ¬s.cavernUses ch b) : s.channelInUse ch = some ⟨.cavern, c⟩ := by
  rw [channelInUse_eq, find?_range_lowest (cavernUsesTest_iff s ch) h8 uses lowest]

/-- Where no cavern uses a channel the lowest train that does is named (log entry 35). -/
theorem channelInUse_train {s : State} {ch n : Nat} (noCavern : ∀ c, c < 8 → ¬s.cavernUses ch c) (h4 : n < 4)
    (uses : s.trainUses ch n) (lowest : ∀ m, m < n → ¬s.trainUses ch m) :
    s.channelInUse ch = some ⟨.train, n⟩ := by
  rw [channelInUse_eq, find?_range_none (cavernUsesTest_iff s ch) noCavern,
    find?_range_lowest (trainUsesTest_iff s ch) h4 uses lowest]
  rfl

theorem channelInUse_none {s : State} {ch : Nat} (noCavern : ∀ c, c < 8 → ¬s.cavernUses ch c)
    (noTrain : ∀ n, n < 4 → ¬s.trainUses ch n) : s.channelInUse ch = none := by
  rw [channelInUse_eq, find?_range_none (cavernUsesTest_iff s ch) noCavern,
    find?_range_none (trainUsesTest_iff s ch) noTrain]
  rfl

/-! ### The beginning of a check (R6, R9) -/

theorem checkBegins_good {s : State} {ch : Nat} (h : (s.chan ch).quality = .good) (i hold : Nat) :
    checkBegins ch i hold s.ev = qualityChange ch (s.updChan ch fun r =>
      { r with
        mode := .check, test := some i, check := none, good := 0, quality := .held
        hold := some (s.after hold), passHeld := false }).ev := by
  unfold checkBegins
  simp only [State.ev_s, h, if_true, true_or]
  rfl

theorem checkBegins_notGood {s : State} {ch : Nat} (h : (s.chan ch).quality ≠ .good)
    (k : (s.chan ch).passHeld = false) (i hold : Nat) : checkBegins ch i hold s.ev =
      (s.updChan ch fun r => { r with mode := .check, test := some i, check := none, good := 0 }).ev := by
  have same : s.updChan ch (fun x =>
      { x with
        mode := .check, test := some i, check := none, good := 0, quality := (s.chan ch).quality
        hold := (s.chan ch).hold, passHeld := false }) =
      s.updChan ch fun r => { r with mode := .check, test := some i, check := none, good := 0 } :=
    State.updChan_congr (by rw [← k])
  unfold checkBegins
  simp only [State.ev_s, h, k, if_false, or_self, Bool.false_eq_true]
  exact congrArg State.ev same

theorem checkBegins_passHeld {s : State} {ch : Nat} (h : (s.chan ch).quality ≠ .good)
    (k : (s.chan ch).passHeld = true) (i hold : Nat) : checkBegins ch i hold s.ev = (s.updChan ch fun r =>
      { r with
        mode := .check, test := some i, check := none, good := 0, hold := some (s.after hold)
        passHeld := false }).ev := by
  have same : s.updChan ch (fun x =>
      { x with
        mode := .check, test := some i, check := none, good := 0, quality := (s.chan ch).quality
        hold := some (s.after hold), passHeld := false }) = s.updChan ch fun r =>
      { r with
        mode := .check, test := some i, check := none, good := 0, hold := some (s.after hold)
        passHeld := false } := State.updChan_congr rfl
  unfold checkBegins
  simp only [State.ev_s, h, k, if_false, if_true, or_true]
  exact congrArg State.ev same

/-! ### The requests -/

/-- LOOP_CHECK_BEGIN with its fields in range, as the channel stands (R6). -/
theorem takeLoopCheckBegin_eq {ch i : Nat} (h16 : ch < 16) (hi : i ≤ 25000) (s : State) : takeLoopCheckBegin ch i s =
    match s.chanDef ch with
    | none => (s.ev, .refuse .wrongState)
    | some d =>
      refuseIf s (s.inCheck ch) (.refuse .wrongState) <|
        match s.channelInUse ch with
        | some x => (s.ev, .no .notAtRest x)
        | none => (checkBegins ch i d.hold s.ev,
            .ok [b1 ch, b2 i, b1 ((checkBegins ch i d.hold s.ev).s.chan ch).quality.code]) :=
  (judged_all (by simp [h16, hi])).trans (by cases s.chanDef ch <;> rfl)

theorem inCheck_of_live {s : State} {ch : Nat} (h : (s.chan ch).mode = .live) : s.inCheck ch = false := by
  rw [State.inCheck, h]; rfl

theorem inCheck_of_check {s : State} {ch : Nat} (h : (s.chan ch).mode = .check) : s.inCheck ch = true := by
  rw [State.inCheck, h]; rfl

theorem takeLoopCheckBegin_begins {ch i : Nat} {s : State} {d : ChanDef} (h16 : ch < 16) (hi : i ≤ 25000)
    (hd : s.chanDef ch = some d) (live : (s.chan ch).mode = .live) (free : s.channelInUse ch = none) :
    takeLoopCheckBegin ch i s = (checkBegins ch i d.hold s.ev,
      .ok [b1 ch, b2 i, b1 ((checkBegins ch i d.hold s.ev).s.chan ch).quality.code]) := by
  rw [takeLoopCheckBegin_eq h16 hi, hd, inCheck_of_live live, free]
  rfl

theorem takeLoopCheckBegin_inUse {ch i : Nat} {s : State} {d : ChanDef} {x : Detail} (h16 : ch < 16) (hi : i ≤ 25000)
    (hd : s.chanDef ch = some d) (live : (s.chan ch).mode = .live) (used : s.channelInUse ch = some x) :
    takeLoopCheckBegin ch i s = (s.ev, .no .notAtRest x) := by
  rw [takeLoopCheckBegin_eq h16 hi, hd, inCheck_of_live live, used]
  rfl

/-- LOOP_CHECK_END on a channel in CHECK (R8). -/
theorem takeLoopCheckEnd_ends {ch : Nat} {s : State} (h16 : ch < 16) (check : (s.chan ch).mode = .check) :
    takeLoopCheckEnd ch s =
      ((s.updChan ch fun x => { x with mode := .live, test := none, check := none }).ev,
        .ok [b1 ch, b1 ((s.updChan ch fun x =>
          { x with mode := .live, test := none, check := none }).chan ch).quality.code]) := by
  have quality : ((s.updChan ch fun x => { x with mode := .live, test := none, check := none }).chan ch).quality =
      (s.chan ch).quality := by
    rw [State.chan_updChan]
    split <;> rfl
  rw [quality]
  refine (judged_all (by simp [h16])).trans ?_
  rw [inCheck_of_check check]
  rfl

/-- Settles O12. -/
theorem loopChecksBeginAndEnd : Obligations.LoopChecksBeginAndEnd := by
  intro s e t ch i d h16
  refine ⟨fun large taken => ?outOfRange, fun hi => ⟨fun taken hd live free good => ?good,
    fun taken hd live free notGood notHeld => ?notGood, fun taken hd live free notGood held => ?passHeld,
    fun taken check => ?ends, fun taken invalid => ?invalid, fun taken check => ?already,
    fun taken hd live => ⟨fun c h8 uses lowest => ?cavern, fun noCavern => ⟨fun n h4 uses lowest => ?train,
      fun noTrain => channelInUse_none noCavern noTrain⟩⟩, fun taken live => ?notInCheck⟩⟩
  case outOfRange =>
    refine refuses_of rfl taken ?_
    rw [takeLoopCheckBegin, decide_eq_true h16, judged_cons_true, judged_first_bad _ _ _ _ (Nat.not_le.2 large)]
    rfl
  case good =>
    refine completes_of rfl taken ?_
    rw [takeLoopCheckBegin_begins h16 hi (by simpa using hd) (by simpa using live) (by simpa using free),
      checkBegins_good (by simpa using good)]
  case notGood =>
    refine completes_of rfl taken ?_
    rw [takeLoopCheckBegin_begins h16 hi (by simpa using hd) (by simpa using live) (by simpa using free),
      checkBegins_notGood (by simpa using notGood) (by simpa using notHeld)]
  case passHeld =>
    refine completes_of rfl taken ?_
    rw [takeLoopCheckBegin_begins h16 hi (by simpa using hd) (by simpa using live) (by simpa using free),
      checkBegins_passHeld (by simpa using notGood) (by simpa using held)]
  case ends => exact completes_of rfl taken (takeLoopCheckEnd_ends h16 (by simpa using check))
  case invalid =>
    refine refuses_of rfl taken ?_
    rw [takeLoopCheckBegin_eq h16 hi, arrived_chanDef, invalid]
    rfl
  case already =>
    refine refuses_of rfl taken ?_
    rw [takeLoopCheckBegin_eq h16 hi, inCheck_of_check (by simpa using check)]
    cases (s.arrived (.loopCheckBegin t ch i)).chanDef ch <;> rfl
  case cavern =>
    exact refuses_of rfl taken (takeLoopCheckBegin_inUse h16 hi (by simpa using hd) (by simpa using live)
      (by simpa using channelInUse_cavern h8 uses lowest))
  case train =>
    exact refuses_of rfl taken (takeLoopCheckBegin_inUse h16 hi (by simpa using hd) (by simpa using live)
      (by simpa using channelInUse_train noCavern h4 uses lowest))
  case notInCheck =>
    refine refuses_of rfl taken ((judged_all (by simp [h16])).trans ?_)
    rw [inCheck_of_live (by simpa using live)]
    rfl

end Sys2Proof.Machine
end

section
/-! PROOFS. Meter runs: energy, volume, gas quality, pulses and their timing (R12 to R15). -/

namespace Sys2Proof.Machine

/-! ### Run records -/

theorem State.updRun_updRun (s : State) (r : Nat) (f g : Run → Run) :
    (s.updRun r f).updRun r g = s.updRun r (g ∘ f) := by
  simp only [State.updRun, List.modify_modify_eq]

/-- A change that leaves a run's record as it is changes nothing. -/
theorem State.updRun_fixed {s : State} {r : Nat} {f : Run → Run} (h : f (s.run r) = s.run r) : s.updRun r f = s := by
  rw [State.updRun_congr (g := id) h, State.updRun, List.modify_id]

/-- What changes of a run's record leave at the Measurement Unit depends on that unit alone. -/
theorem updRun_mu {s t : State} (h : s.mu = t.mu) (r : Nat) (f : Run → Run) : (s.updRun r f).mu = (t.updRun r f).mu :=
  congrArg (fun m : Mu => { m with runs := m.runs.modify r f }) h

theorem run_of_mu {s t : State} (h : s.mu = t.mu) (r : Nat) : s.run r = t.run r :=
  congrArg (fun m : Mu => m.runs.getD r {}) h

/-- A run beyond the table reads as one that has just been reset. -/
theorem State.run_outside {s : State} {r : Nat} (h : ¬r < s.mu.runs.length) : s.run r = {} :=
  List.getD_eq_default _ _ (Nat.not_lt.1 h)

/-- Where only run `r` has changed, run `r` is what the change makes of it and every other run is the same. -/
theorem runs_of_updRun {s t : State} {r : Nat} {f : Run → Run} (h : t.mu = (s.updRun r f).mu) :
    (∀ q, q ≠ r → t.run q = s.run q) ∧ (r < s.mu.runs.length → t.run r = f (s.run r)) := by
  refine ⟨fun q other => ?_, fun inside => ?_⟩
  · rw [run_of_mu h, State.run_updRun, if_neg fun k => other k.1.symm]
  · rw [run_of_mu h, State.run_updRun, if_pos ⟨rfl, inside⟩]

theorem ms_of_updRun {s t : State} {r : Nat} {f : Run → Run} (h : t.mu = (s.updRun r f).mu) : t.mu.ms = s.mu.ms := by
  rw [h]
  rfl

theorem after_of_updRun {s t : State} {r : Nat} {f : Run → Run} (h : t.mu = (s.updRun r f).mu) (n : Nat) :
    t.after n = s.after n := by
  rw [State.after, State.clock, h]
  rfl

/-! ### Energy handed to a train (R65) -/

/-- Watches told of something leave the Measurement Unit as it is. -/
theorem WatchesTold.mu {u v : Ev} (h : WatchesTold u v) : v.s.mu = u.s.mu := by rw [h.state]

theorem changeTrain_mu (t : Nat) (f : Train → Train) (ev : Ev) : (changeTrain t f ev).s.mu = ev.s.mu :=
  (changeTrain_told t f ev).mu

theorem beginSwitch_mu (t : Nat) (d : TrainDef) (w : TowerId) (ev : Ev) : (beginSwitch t d w ev).s.mu = ev.s.mu := by
  unfold beginSwitch
  dsimp only
  split
  · exact (changeTrain_mu _ _ _).trans (changeTrain_mu _ _ _)
  · exact changeTrain_mu _ _ _

theorem checkSwitch_mu (t : Nat) (d : TrainDef) (ev : Ev) : (checkSwitch t d ev).s.mu = ev.s.mu := by
  unfold checkSwitch
  dsimp only
  split
  · split
    · exact beginSwitch_mu _ _ _ _
    · rfl
  · rfl

/-- Energy handed to a train leaves the Measurement Unit as it is. -/
theorem handOff_mu (t e : Nat) (ev : Ev) : (handOff t e ev).s.mu = ev.s.mu := by
  unfold handOff
  split
  · rfl
  · split
    · exact (raise_told _ _ _ _).mu
    · exact (checkSwitch_mu _ _ _).trans (changeTrain_mu _ _ _)

/-! ### Energy into a run (R13, R15) -/

/-- Energy into a run's accumulator. -/
def State.counted (s : State) (r e : Nat) : State := s.updRun r fun x => { x with acc := x.acc + e }

/-- A WITHDRAW run hands its energy to the train it is bound to. -/
theorem addEnergy_bound {ev : Ev} {r n : Nat} {d : RunDef} (hd : ev.s.runDef r = some d) (w : d.dir = some .withdraw)
    (b : d.train = some n) (e : Nat) : addEnergy r e ev = handOff n e { ev with s := ev.s.counted r e } := by
  simp only [addEnergy, State.runDir, hd, Option.bind_some, w, b, Option.getD_some]
  rfl

/-- A run that is not a WITHDRAW run, or not bound to a train, counts its energy alone. -/
theorem addEnergy_unbound {ev : Ev} {r : Nat} {d : RunDef} (hd : ev.s.runDef r = some d)
    (h : d.dir ≠ some .withdraw ∨ d.train = none) (e : Nat) :
    addEnergy r e ev = { ev with s := ev.s.counted r e } := by
  simp only [addEnergy, State.runDir, hd, Option.bind_some]
  split
  · rename_i n bound withdraw
    rcases h with other | free
    · cases dir : d.dir with
      | none => simp [dir] at withdraw
      | some x => exact absurd (by simpa [dir] using withdraw) other
    · exact absurd (free.symm.trans bound) nofun
  · rfl

/-- At the Measurement Unit energy changes the run's accumulator alone. -/
theorem addEnergy_mu (r e : Nat) (ev : Ev) : (addEnergy r e ev).s.mu = (ev.s.counted r e).mu := by
  unfold addEnergy
  dsimp only
  split
  · exact handOff_mu _ _ _
  · rfl

/-! ### Gas quality (R15) -/

theorem takeSetGasQuality_first {r cv : Nat} {s : State} (h7 : r < 7) (low : 8000 ≤ cv) (high : cv ≤ 13500)
    (unset : (s.run r).cv = 0) : takeSetGasQuality r cv s =
      (addEnergy r ((s.run r).unvalued * cv) (s.updRun r fun m => { m with cv := cv, unvalued := 0 }).ev,
        .ok [b1 r, b2 cv, b8 ((s.run r).unvalued * cv)]) := by
  have set : cv ≠ 0 := by omega
  refine (judged_all (by simp [h7, cvAllowed, low, high])).trans ?_
  simp only [Run.valued, unset, set, ne_eq, not_false_eq_true, and_self, if_true]
  rfl

theorem takeSetGasQuality_replaces {r cv : Nat} {s : State} (h7 : r < 7) (allowed : cvAllowed cv = true)
    (h : ¬((s.run r).cv = 0 ∧ cv ≠ 0)) : takeSetGasQuality r cv s =
      ((s.updRun r fun m => { m with cv := cv }).ev, .ok [b1 r, b2 cv, b8 0]) := by
  have none : (s.run r).valued cv = 0 := by
    unfold Run.valued
    split
    · rename_i unset
      rw [not_not.1 fun set => h ⟨unset, set⟩, Nat.mul_zero]
    · rfl
  refine (judged_all (by simp [h7, allowed])).trans ?_
  simp only [none, if_neg h]
  rfl

/-- Settles O13: the three answers of SET_GAS_QUALITY, by whether the CV is in range and whether it is a first one. -/
theorem gasQualityValuesHeldVolume : Obligations.GasQualityValuesHeldVolume := by
  intro s e t r cv taken h7
  have record : (s.arrived (.setGasQuality t r cv)).run r = s.run r := by rw [arrived_run]
  refine ⟨fun low high unset => ?first, fun replaces => ?replaces, fun set out => ?outOfRange⟩
  case first =>
    have done : completes (.setGasQuality t r cv) s e
        (fun x => addEnergy r ((s.run r).unvalued * cv) (x.updRun r fun m => { m with cv := cv, unvalued := 0 }).ev)
        (fun _ => [b1 r, b2 cv, b8 ((s.run r).unvalued * cv)]) :=
      completes_of rfl taken (record ▸ takeSetGasQuality_first h7 low high (record ▸ unset))
    refine ⟨done, fun inside => ⟨_, done, ?_⟩⟩
    refine (runs_of_updRun (s := s) (f := (fun x => { x with acc := x.acc + (s.run r).unvalued * cv }) ∘
      fun m => { m with cv := cv, unvalued := 0 }) ?_).2 inside
    exact (finish_mu _).trans ((addEnergy_mu _ _ _).trans ((congrArg State.mu (State.updRun_updRun _ r _ _)).trans
      (updRun_mu (arrived_mu s _) r _)))
  case replaces =>
    refine completes_of rfl taken (takeSetGasQuality_replaces (s := s.arrived (.setGasQuality t r cv)) h7 ?_ ?_)
    · rcases replaces with unset | ⟨low, high, _⟩
      · simp [cvAllowed, unset]
      · simp [cvAllowed, low, high]
    · rintro ⟨unset, set⟩
      rcases replaces with none | ⟨_, _, before⟩
      · exact set none
      · exact before (record ▸ unset)
  case outOfRange =>
    have bad : cvAllowed cv = false := by
      simp only [cvAllowed, Bool.or_eq_false_iff, Bool.and_eq_false_iff, beq_eq_false_iff_ne, decide_eq_false_iff_not]
      omega
    refine refuses_of rfl taken ?_
    rw [takeSetGasQuality, decide_eq_true h7, judged_cons_true, bad, judged_cons_false]
    rfl

/-! ### Rates (R14) -/

theorem setRate_same {r v : Nat} {ev : Ev} (h : (ev.s.run r).rate = v) : setRate r v ev = ev := if_pos h

/-- At the Measurement Unit a rate that is set changes the run's rate alone. -/
theorem setRate_mu (r v : Nat) (ev : Ev) :
    (setRate r v ev).s.mu = (ev.s.updRun r fun x => { x with rate := v }).mu := by
  unfold setRate
  split
  · rename_i same
    rw [State.updRun_fixed (by rw [← same])]
  · exact (newWatchValue_told _ _ _).mu

/-- A run's record after a pulse of energy `e` at millisecond `ms` (R14). -/
def Run.timed (ms e : Nat) (zero : Clk) (x : Run) : Run :=
  { x with
    rate := match x.last with
      | some t => rateOf e (ms - t)
      | none => x.rate
    last := some ms, zero := some zero }

/-- At the Measurement Unit the timing of a pulse changes the run's record alone. -/
theorem timePulse_mu (r e : Nat) (d : RunDef) (ev : Ev) :
    (timePulse r e d ev).s.mu = (ev.s.updRun r (Run.timed ev.s.mu.ms e (ev.s.after d.timeout))).mu := by
  unfold timePulse
  cases last : (ev.s.run r).last with
  | none =>
    refine congrArg State.mu (State.updRun_congr ?_)
    simp only [Run.timed, last]
  | some t =>
    have rated := setRate_mu r (rateOf e (ev.s.mu.ms - t)) ev
    dsimp only [Ev.map]
    rw [ms_of_updRun rated, after_of_updRun rated]
    refine (updRun_mu rated r _).trans ?_
    rw [State.updRun_updRun]
    refine congrArg State.mu (State.updRun_congr ?_)
    simp only [Run.timed, last, Function.comp_apply]

/-- A pulse that changes a run's record and is then timed, at the Measurement Unit. -/
theorem timePulse_after {s : State} {ev : Ev} {r : Nat} {f : Run → Run} (h : ev.s.mu = (s.updRun r f).mu) (e : Nat)
    (d : RunDef) : (timePulse r e d ev).finish.mu =
      (s.updRun r (Run.timed s.mu.ms e (s.after d.timeout) ∘ f)).mu := by
  rw [finish_mu, timePulse_mu, ms_of_updRun h, after_of_updRun h, updRun_mu h, State.updRun_updRun]

/-! ### Pulses (R13 to R15) -/

theorem exec_meterPulse {s : State} {r : Nat} {d : RunDef} (run : s.phase = .running) (h : s.metered r = some d) :
    exec (.meterPulse r) s = .next (pulse r d s.ev).finish := by
  refine congrArg Host.Outcome.next ((occurs_eq run (by simp [h])).trans ?_)
  rw [State.ev_s, h]

theorem pulse_valued {s : State} {r : Nat} (h : (s.run r).cv ≠ 0) (d : RunDef) :
    pulse r d s.ev = timePulse r (d.weight * (s.run r).cv) d (addEnergy r (d.weight * (s.run r).cv) s.ev) := if_neg h

theorem pulse_unvalued {s : State} {r : Nat} (h : (s.run r).cv = 0) (d : RunDef) :
    pulse r d s.ev = timePulse r 0 d
      (s.updRun r fun y => { y with unvalued := min (y.unvalued + d.weight) 999999999999 }).ev := if_pos h

theorem exec_zeroFlowExpiry {s : State} {r : Nat} (run : s.phase = .running) (h : due s.clock (s.run r).zero = true) :
    exec (.zeroFlowExpiry r) s =
      .next (setRate r 0 (s.updRun r fun y => { y with zero := none }).ev).finish :=
  congrArg Host.Outcome.next (occurs_eq run h)

/-- A run whose zero-flow deadline runs is in the table. -/
theorem inside_of_due {s : State} {r : Nat} (h : due s.clock (s.run r).zero = true) : r < s.mu.runs.length := by
  by_contra out
  rw [State.run_outside out] at h
  cases h

/-! ### A SITE write (R12) -/

theorem newStartHour_frame {F G : Prop} (s : State) : Frame F G True s s.newStartHour := by
  unfold State.newStartHour
  split <;> exact {}

/-- What a SITE group brings to the book is no concern of the blocks of flow and gas (R101). -/
theorem siteToBook_frame {F G : Prop} (old : Option Site) (load : Bool) (ev : Ev) :
    Frame F G True ev.s (siteToBook old load ev).s := by
  have shifted (b : Bool) : Frame F G True ev.s (if b then ev.s.newStartHour else ev.s).refreshCaps :=
    (iteState_frame (newStartHour_frame ev.s) (.refl ev.s)).trans {}
  exact ite_frame (Frame.trans (shifted _) (reconfirm_frame _ { ev with s := _ })) (shifted _)

theorem fitHeader_mu (s : State) (old : Option Site) : (s.fitHeader old).mu = s.mu := by
  unfold State.fitHeader
  split
  · rfl
  · split <;> rfl

theorem fitHeader_pst (s : State) (old : Option Site) : (s.fitHeader old).pst = s.pst := by
  unfold State.fitHeader
  split
  · rfl
  · split <;> rfl

theorem beginCommit_mu (s : State) : s.beginCommit.mu = s.mu := by
  unfold State.beginCommit
  split <;> rfl

theorem beginCommit_site (s : State) : s.beginCommit.site = s.site := by
  unfold State.beginCommit
  split <;> rfl

/-- A record that a run's clearing leaves as it is, where the table ends too. -/
theorem getD_mapIdx_of_fixed {α : Type} {f : Nat → α → α} {d : α} {i : Nat} (h : f i d = d) (l : List α) :
    (l.mapIdx f).getD i d = f i (l.getD i d) := by
  simp only [List.getD_eq_getElem?_getD, List.getElem?_mapIdx]
  cases l[i]? with
  | none => exact h.symm
  | some x => rfl

/-- A run's record with its timing and its rate cleared (R12). -/
def Run.cleared (x : Run) : Run := { x with last := none, zero := none, rate := 0 }

/-- A SITE write clears the timing of the runs whose direction or weight it changes, and of no other (R12). -/
theorem fitRuns_run {s : State} {old : Site} {r : Nat} {d new : RunDef} (hd : old.runs[r]? = some d)
    (hn : s.runDef r = some new) : (s.fitRuns (some old)).run r =
      if d.dir = new.dir ∧ d.weight = new.weight then s.run r else (s.run r).cleared := by
  refine (getD_mapIdx_of_fixed ?_ s.mu.runs).trans ?_
  · split <;> rfl
  · by_cases same : d.dir = new.dir ∧ d.weight = new.weight
    · simp [hd, hn, same]
      rfl
    · simp [hd, hn, same]
      rfl

/-- A SITE write leaves at the Measurement Unit what the fitting of its runs leaves, under the group it brings. -/
theorem applySite_fits (p : Site) (b : Bool) (ev : Ev) : ∃ s : State, s.mu.runs = ev.s.mu.runs ∧
    (applySite p b ev).s.mu = (s.fitRuns ev.s.site).mu ∧ (applySite p b ev).s.site = s.site := by
  have booked (e : Ev) := siteToBook_frame (F := False) (G := False) ev.s.site false e
  refine ⟨_, ?runs, ((booked _).mu id).trans (fitHeader_mu _ _),
    congrArg (·.site.live) ((booked _).pst.trans (fitHeader_pst _ _))⟩
  case runs => rfl

theorem written_mu (s : State) : (s.settleAfterWrite.enterCommit .site).mu = s.mu := beginCommit_mu _

theorem written_site (s : State) : (s.settleAfterWrite.enterCommit .site).site = s.site := beginCommit_site _

/-- What a SITE write leaves in a run's record (R12). -/
theorem applyWrite_run {ev : Ev} {v : List Int} {r : Nat} {d new : RunDef} {old : Site}
    (ho : ev.s.site = some old) (hd : old.runs[r]? = some d) (hn : (applyWrite .site v ev).s.runDef r = some new) :
    (applyWrite .site v ev).s.run r =
      if d.dir = new.dir ∧ d.weight = new.weight then ev.s.run r else (ev.s.run r).cleared := by
  obtain ⟨s, runs, mu, site⟩ := applySite_fits (siteOf v) (num v 31 == 1) ev
  have defined : s.runDef r = some new := by
    rw [← hn, State.runDef, State.runDef, ← site]
    exact congrArg (·.bind (·.runs[r]?)) (written_site _).symm
  have before : s.run r = ev.s.run r := congrArg (·.getD r {}) runs
  refine (run_of_mu ((written_mu _).trans mu) r).trans ?_
  rw [ho, fitRuns_run hd defined, before]

/-- Settles O14: what a pulse, a zero-flow expiry and a SITE write leave at the Measurement Unit, run by run. -/
theorem pulsesCountEnergyOrVolume : Obligations.PulsesCountEnergyOrVolume := by
  refine ⟨fun s r d run => ⟨fun metered set => ?valued, fun metered unset => ?unvalued, fun none => ?ignored,
    fun passed => ?zeroFlow, fun early => congrArg _ (occurs_disabled early)⟩,
    fun ev r e d hd => ⟨fun n w b => addEnergy_bound hd w b e, fun h => addEnergy_unbound hd h e⟩,
    fun ev r v => ⟨setRate_same, fun h => if_neg h⟩, fun e i => ?rate, fun ev v r d old ho hd new hn => ?siteWrite⟩
  case valued =>
    have pulsed := exec_meterPulse run metered
    rw [pulse_valued set] at pulsed
    have left := runs_of_updRun (timePulse_after (s := s) (addEnergy_mu r (d.weight * (s.run r).cv) s.ev)
      (d.weight * (s.run r).cv) d)
    exact ⟨pulsed, _, pulsed, left⟩
  case unvalued =>
    have pulsed := exec_meterPulse run metered
    rw [pulse_unvalued unset] at pulsed
    exact ⟨pulsed, _, pulsed, runs_of_updRun (timePulse_after (s := s) (ev := State.ev (s.updRun r fun y =>
      { y with unvalued := min (y.unvalued + d.weight) 999999999999 })) rfl 0 d)⟩
  case ignored => exact congrArg _ (occurs_disabled (by simp [none]))
  case zeroFlow =>
    have expired := exec_zeroFlowExpiry run passed
    have left := runs_of_updRun (s := s) (((finish_mu _).trans (setRate_mu r 0 (State.ev (s.updRun r fun y =>
      { y with zero := none })))).trans (congrArg State.mu (State.updRun_updRun s r _ _)))
    exact ⟨expired, _, expired, left.2 (inside_of_due passed), left.1⟩
  case rate =>
    have interval : max 1 i = if i = 0 then 1 else i := by
      split <;> omega
    rw [rateOf, interval]
    rfl
  case siteWrite =>
    rw [applyWrite_run ho hd hn]
    refine ⟨fun dir weight => if_pos ⟨dir, weight⟩, fun differs => if_neg fun same => ?_⟩
    exact differs.elim (· same.1) (· same.2)

end Sys2Proof.Machine
end

section
/-! PROOFS. Watches: their firing, the events offered to them, the AWAIT_FLAGS that wait for them, and the requests on
them (R141 to R148). -/

namespace Sys2Proof.Machine

/-! ### AWAIT_FLAGS that wait (R148) -/

/-- The reply OK to an entry. -/
def QEntry.reply (e : QEntry) (body : List Fld) : Reply :=
  { origin := .entry e.arrival, kind := e.request.kind.getD 0 + 0x80, tag := e.request.tag, status := .ok, detail := {}
    body := body }

/-- Entries answered one after another: each is ANSWERED, and the replies join the order as the entries do. -/
theorem foldl_formReply (body : List Fld) (l : List QEntry) (s : State) :
    l.foldl (fun t e => t.formReply e .ok {} body) s =
      { s with slu := { s.slu with
          queue := s.slu.queue.map fun e =>
            if e.arrival ∈ l.map QEntry.arrival then { e with state := .answered } else e
          order := s.slu.order ++ l.map (·.reply body) } } := by
  induction l generalizing s with
  | nil => simp
  | cons x l ih =>
    have answered : (s.formReply x .ok {} body).slu.queue.map (fun e =>
          if e.arrival ∈ l.map QEntry.arrival then { e with state := .answered } else e) =
        s.slu.queue.map fun e =>
          if e.arrival ∈ (x :: l).map QEntry.arrival then { e with state := .answered } else e := by
      refine List.map_map.trans (List.map_congr_left fun e _ => ?_)
      by_cases turn : e.arrival = x.arrival
      · simp [turn]
      · simp [turn]
    have ordered : (s.formReply x .ok {} body).slu.order ++ l.map (·.reply body) =
        s.slu.order ++ (x :: l).map (·.reply body) := List.append_assoc _ _ _
    rw [List.foldl_cons, ih, answered, ordered]
    rfl

/-- Where no two entries share their arrival, the arrivals of those that pass a test are theirs alone. -/
theorem arrival_mem_filter {q : List QEntry} (h : (q.map QEntry.arrival).Nodup) (p : QEntry → Bool) {e : QEntry}
    (he : e ∈ q) : e.arrival ∈ (q.filter p).map QEntry.arrival ↔ p e = true := by
  rw [List.mem_map]
  constructor
  · rintro ⟨x, hx, same⟩
    obtain ⟨hq, passes⟩ := List.mem_filter.1 hx
    rwa [← List.inj_on_of_nodup_map h hq he same]
  · exact fun passes => ⟨e, List.mem_filter.2 ⟨he, passes⟩, rfl⟩

/-- A flag that no AWAIT_FLAGS waits for answers none. -/
theorem answerAwaits_none {s : State} {w : Nat} (h : s.slu.queue.filter (·.awaits w) = []) : s.answerAwaits w = s := by
  rw [State.answerAwaits, h]
  rfl

/-- A flag answers every AWAIT_FLAGS that waits for it with the same flags, and these are then cleared. -/
theorem answerAwaits_some {s : State} {w : Nat} (unique : (s.slu.queue.map QEntry.arrival).Nodup)
    (h : s.slu.queue.filter (·.awaits w) ≠ []) : s.answerAwaits w =
      { s with
        wnu := { s.wnu with watches := s.wnu.watches.map fun x => { x with fired := false } }
        slu := { s.slu with
          queue := s.slu.queue.map fun e => if e.awaits w then { e with state := .answered } else e
          order := s.slu.order ++ (s.slu.queue.filter (·.awaits w)).map (·.reply (s.awaitBody false)) } } := by
  have waiting : (s.slu.queue.filter (·.awaits w)).isEmpty ≠ true := by rwa [ne_eq, List.isEmpty_iff]
  have answered : (s.slu.queue.map fun e =>
        if e.arrival ∈ (s.slu.queue.filter (·.awaits w)).map QEntry.arrival then { e with state := .answered } else e) =
      s.slu.queue.map fun e => if e.awaits w then { e with state := .answered } else e :=
    List.map_congr_left fun e he => if_congr (arrival_mem_filter unique _ he) rfl rfl
  rw [State.answerAwaits, if_neg waiting, foldl_formReply, answered]
  rfl

/-! ### Events offered to watches (R144) -/

theorem hears_iff {src : WatchSource} {name : EventName} {index : Option Nat} : src.hears name index = true ↔
    ∃ filter, src = .event name filter ∧ (filter = none ∨ filter = index) := by
  cases src with
  | event n filter =>
    simp only [WatchSource.hears, Bool.and_eq_true, Bool.or_eq_true, beq_iff_eq, Option.isNone_iff_eq_none,
      WatchSource.event.injEq]
    exact ⟨fun ⟨same, passes⟩ => ⟨filter, ⟨same, rfl⟩, passes⟩, fun ⟨_, ⟨same, rfl⟩, passes⟩ => ⟨same, passes⟩⟩
  | _ => simp [WatchSource.hears]

/-- An event is offered to an ARMED watch by its condition and its source. -/
theorem offerEvent_armed {name : EventName} {index : Option Nat} {ev : Ev} {w : Nat} {d : WatchDef}
    (armed : (ev.s.watch w).state = .armed) (hd : (ev.s.watch w).defn = some d) : offerEvent name index ev w =
      if d.condition = .occurs ∧ d.source.hears name index then fireWatch w d ev else ev := by
  simp only [offerEvent, armed, hd]

/-- An event passes a watch that is not ARMED by. -/
theorem offerEvent_notArmed {name : EventName} {index : Option Nat} {ev : Ev} {w : Nat}
    (h : (ev.s.watch w).state ≠ .armed) : offerEvent name index ev w = ev := by
  cases state : (ev.s.watch w).state with
  | armed => exact absurd state h
  | _ => simp only [offerEvent, state]

/-! ### The fields of SET_WATCH (R141, R144, R186) -/

/-- Of verdicts in ascending order the first that fails is the least that does. -/
theorem firstBad_eq_some {l : List (Nat × Bool)} (ascending : (l.map Prod.fst).Pairwise (· < ·)) {k : Nat}
    (h : (k, false) ∈ l) (first : ∀ j, j < k → (j, false) ∉ l) : firstBad l = some k := by
  induction l with
  | nil => nomatch h
  | cons x l ih =>
    obtain ⟨j, b⟩ := x
    obtain ⟨below, sorted⟩ := List.pairwise_cons.1 ascending
    cases b with
    | true =>
      have later : (k, false) ∈ l := by simpa using h
      exact ih sorted later fun j hj bad => first j hj (List.mem_cons_of_mem _ bad)
    | false =>
      rcases List.mem_cons.1 h with here | later
      · rw [(Prod.mk.inj here).1]
        rfl
      · exact absurd List.mem_cons_self (first j (below k (List.mem_map_of_mem later)))

/-- A field that fails its verdict is refused where it is the first to do so. -/
theorem judged_firstBad {l : List (Nat × Bool)} (ascending : (l.map Prod.fst).Pairwise (· < ·)) {k : Nat}
    (h : (k, false) ∈ l) (first : ∀ j, j < k → (j, false) ∉ l) (s : State) (go : Ev × Answer) :
    judged s l go = (s.ev, .badField k) := by
  rw [judged, firstBad_eq_some ascending h first]

/-- All verdicts pass where none fails. -/
theorem all_pass_iff (l : List (Nat × Bool)) : l.all Prod.snd = true ↔ ∀ k, (k, false) ∉ l := by
  rw [List.all_eq_true]
  constructor
  · exact fun h k bad => Bool.false_ne_true (h _ bad)
  · rintro h ⟨k, b⟩ hx
    cases b with
    | true => rfl
    | false => exact absurd hx (h k)

theorem sourceIndices_rejects (kind index : Nat) : (sourceIndices kind).all (fun n => decide (index < n)) = false ↔
    (kind = 0 ∧ 16 ≤ index) ∨ (kind = 1 ∧ 8 ≤ index) ∨ (kind = 2 ∧ 4 ≤ index) ∨ (kind = 4 ∧ 32 ≤ index) ∨
      (kind = 5 ∧ 7 ≤ index) :=
  match kind with
  | 0 | 1 | 2 | 3 | 4 | 5 => by simp [sourceIndices]
  | n + 6 => by simp [sourceIndices]

/-- How many indices the filter of an event may name, by the event's code; none where there is no such event. -/
theorem eventOfCode_indices (event : Nat) : ((eventOfCode event).map EventName.indices).getD 0 =
    [0, 0, 16, 2, 6, 6, 4, 4, 4, 0, 0, 3, 32].getD event 0 :=
  match event with
  | 0 | 1 | 2 | 3 | 4 | 5 | 6 | 7 | 8 | 9 | 10 | 11 | 12 => rfl
  | _ + 13 => rfl

theorem filterFits_rejects (event filter : Nat) : filterFits event filter = false ↔
    filter ≠ 255 ∧ [0, 0, 16, 2, 6, 6, 4, 4, 4, 0, 0, 3, 32].getD event 0 ≤ filter := by
  rw [filterFits, Bool.or_eq_false_iff, beq_eq_false_iff_ne, ← eventOfCode_indices]
  cases eventOfCode event <;> simp

theorem conditionFits_rejects (kind condition : Nat) : conditionFits kind condition = false ↔
    5 < condition ∨ (kind = 6 ∧ condition ≠ 5) ∨ (kind ≠ 6 ∧ condition = 5) := by
  by_cases event : kind = 6
  · by_cases occurs : condition = 5 <;> simp [conditionFits, event, occurs]
  · by_cases occurs : condition = 5 <;> simp [conditionFits, event, occurs]

/-- Field `k` of a SET_WATCH for watch `i` is out of range or does not fit the others. -/
def WatchFields.offends (w : WatchFields) (i k : Nat) : Prop :=
  (k = 1 ∧ 24 ≤ i) ∨ (k = 2 ∧ 6 < w.kind) ∨
  (k = 3 ∧ ((w.kind = 0 ∧ 16 ≤ w.index) ∨ (w.kind = 1 ∧ 8 ≤ w.index) ∨ (w.kind = 2 ∧ 4 ≤ w.index) ∨
    (w.kind = 4 ∧ 32 ≤ w.index) ∨ (w.kind = 5 ∧ 7 ≤ w.index))) ∨
  (k = 4 ∧ w.kind = 6 ∧ 13 ≤ w.event) ∨
  (k = 5 ∧ w.kind = 6 ∧ w.filter ≠ 255 ∧ [0, 0, 16, 2, 6, 6, 4, 4, 4, 0, 0, 3, 32].getD w.event 0 ≤ w.filter) ∨
  (k = 6 ∧ (5 < w.condition ∨ (w.kind = 6 ∧ w.condition ≠ 5) ∨ (w.kind ≠ 6 ∧ w.condition = 5))) ∨
  (k = 7 ∧ w.condition ≠ 5 ∧ (w.threshold < -9999999999 ∨ 9999999999 < w.threshold)) ∨
  (k = 8 ∧ w.condition ≤ 2 ∧ 99999999 < w.hysteresis) ∨ (k = 9 ∧ 3 < w.channel) ∨
  (k = 10 ∧ (2 < w.action ∨ (w.action = 1 ∧ w.kind ≠ 1))) ∨
  (k = 11 ∧ (w.hostCode < 0x800 ∨ 0xFFF < w.hostCode)) ∨
  (k = 12 ∧ (1 < w.mode ∨ (w.mode = 1 ∧ w.action ≠ 0)))

/-- The verdicts that fail are those of the fields that offend. -/
theorem mem_verdicts {w : WatchFields} {i k : Nat} : (k, false) ∈ w.verdicts i ↔ w.offends i k := by
  have threshold : ¬w.threshold.natAbs ≤ 9999999999 ↔ w.threshold < -9999999999 ∨ 9999999999 < w.threshold := by
    omega
  have mode : (1 < w.mode ∨ w.mode ≠ 0 ∧ w.action ≠ 0) ↔ 1 < w.mode ∨ w.mode = 1 ∧ w.action ≠ 0 := by omega
  simp only [WatchFields.verdicts, WatchFields.offends, List.mem_cons, Prod.mk.injEq, List.not_mem_nil, or_false,
    eq_comm (a := false), decide_eq_false_iff_not, Bool.or_eq_false_iff, Bool.and_eq_false_iff, bne_eq_false_iff_eq,
    beq_eq_false_iff_ne, Bool.not_eq_false', sourceIndices_rejects, filterFits_rejects, conditionFits_rejects,
    threshold, WatchFields.hysteretic, decide_eq_true_iff, not_lt, not_le, mode]

theorem verdicts_ascending (w : WatchFields) (i : Nat) : ((w.verdicts i).map Prod.fst).Pairwise (· < ·) := by
  simp [WatchFields.verdicts]

theorem ordinal_le {w : WatchFields} {i k : Nat} (h : (k, false) ∈ w.verdicts i) : k ≤ 12 := by
  have among : k ∈ [1, 2, 3, 4, 5, 6, 7, 8, 9, 10, 11, 12] := List.mem_map_of_mem (f := Prod.fst) h
  have bound : ∀ k ∈ [1, 2, 3, 4, 5, 6, 7, 8, 9, 10, 11, 12], k ≤ 12 := by decide
  exact bound k among

theorem takeSetWatch_offends {w : WatchFields} {i k : Nat} (bad : w.offends i k) (first : ∀ j, j < k → ¬w.offends i j)
    (s : State) : takeSetWatch i w s = (s.ev, .no .badField ⟨.field, k⟩) := by
  have fails := mem_verdicts.2 bad
  have least (j : Nat) (h : j < k) : (j, false) ∉ w.verdicts i := mt mem_verdicts.1 (first j h)
  have carried : min k 255 = k := Nat.min_eq_left ((ordinal_le fails).trans (by decide))
  rw [takeSetWatch, judged_firstBad (verdicts_ascending w i) fails least, Answer.badField, carried]

theorem takeSetWatch_arms {w : WatchFields} {i : Nat} {s : State} (fields : (w.verdicts i).all Prod.snd = true)
    (present : s.sourceGone w.source = false) (free : s.sourceInCheck w.source = false) : takeSetWatch i w s =
      ((s.updWatch i fun _ => { defn := some w.defn, state := .armed }).ev, .ok [b1 i, b1 2]) := by
  rw [takeSetWatch, judged_all fields, present, free]
  rfl

theorem takeSetWatch_gone {w : WatchFields} {i : Nat} {s : State} (fields : (w.verdicts i).all Prod.snd = true)
    (gone : s.sourceGone w.source = true) : takeSetWatch i w s = (s.ev, .no .noSuch {}) := by
  rw [takeSetWatch, judged_all fields, gone]
  rfl

theorem takeSetWatch_inCheck {w : WatchFields} {i : Nat} {s : State} (fields : (w.verdicts i).all Prod.snd = true)
    (present : s.sourceGone w.source = false) (check : s.sourceInCheck w.source = true) :
    takeSetWatch i w s = (s.ev, .no .wrongState {}) := by
  rw [takeSetWatch, judged_all fields, present, check]
  rfl

/-- A channel that a source names for the loop check: as the source or in the filter of SENSOR_LOST (R7, R141). -/
theorem sourceInCheck_iff {s : State} {src : WatchSource} : s.sourceInCheck src = true ↔
    ∃ ch, (src = .channel ch ∨ src = .event .sensorLost (some ch)) ∧ (s.chan ch).mode = .check := by
  unfold State.sourceInCheck
  split <;> simp_all [State.inCheck]

/-! ### The other requests -/

theorem takeAwaitFlags_eq {mask d : Nat} (low : 1 ≤ mask) (high : mask < 16777216) (d1 : 1 ≤ d) (d2 : d ≤ 3600)
    (s : State) : takeAwaitFlags mask d s =
      if s.flags &&& mask ≠ 0 then (s.clearFlags.ev, .ok (s.watchesFields ++ [yn false]))
      else (s.ev, .wait mask (s.after d)) :=
  judged_all (by simp [low, high, d1, d2])

/-- A request that its block lets wait for flags waits, and nothing else changes. -/
theorem serve_waits {c : Instr} {s : State} {e : QEntry} {take : State → Ev × Answer} {mask : Nat} {d : Clk}
    (h : takes c s e = true) (k : take (s.arrived c) = ((s.arrived c).ev, .wait mask d)) :
    serve c take s = (s.arrived c).setEntry e.arrival (.waitingFlags mask d) := by
  rw [serve_of_takes _ h, takeEntry, k]
  dsimp only
  rw [State.ev_finish, noteTaking_self]
  simpa using (takes_parts h).2.1

theorem exec_awaitFlagsTimeout {s : State} {i : Nat} {e : QEntry} {mask : Nat} {c : Clk} (run : s.phase = .running)
    (found : s.slu.queue.find? (·.arrival == i) = some e) (waits : e.state = .waitingFlags mask c) :
    exec (.awaitFlagsTimeout i) s =
      .next (if passed s.clock c then s.formReply e .ok {} (s.awaitBody true) else s) := by
  refine congrArg Host.Outcome.next (?_ : onLink (·.awaitTimeout i) s = _)
  simp only [onLink, State.awaitTimeout, run, found, waits, beq_self_eq_true, if_true]

/-- Settles O46. -/
theorem watchesSetClearedAndAwaited : Obligations.WatchesSetClearedAndAwaited := by
  refine ⟨fun ev w d => ?fires, fun s w unique => ⟨answerAwaits_none, fun waiting => ?answered⟩,
    fun ev name index data => rfl, fun ev name index w d hd => ⟨fun heard => ?heard, fun unheard => ?unheard⟩,
    fun s e t i w mask d => ⟨fun taken k bad first => ?offends, ?fields, fun taken fields here free => ?arms,
      fun taken fields gone => ?gone, fun taken fields here check => ?inCheck, fun live => ?live,
      fun taken inRange => ?clear, fun taken => ?read,
      fun taken low high d1 d2 => ⟨fun set => ?atOnce, fun unset => ?waits⟩,
      fun taken => ⟨fun empty => ?emptyMask, fun low high out => ?timeout⟩,
      fun c run found waits => ⟨fun time => ?timedOut, fun early => ?early⟩⟩⟩
  case fires => exact fireWatch_eq w d ev
  case answered =>
    dsimp only
    rw [answerAwaits_some unique waiting]
    exact ⟨rfl, rfl, rfl, rfl⟩
  case heard =>
    obtain ⟨armed, occurs, hears⟩ := heard
    rw [offerEvent_armed armed hd, if_pos ⟨occurs, hears_iff.2 hears⟩]
  case unheard =>
    by_cases armed : (ev.s.watch w).state = .armed
    · rw [offerEvent_armed armed hd, if_neg fun h => unheard ⟨armed, h.1, hears_iff.1 h.2⟩]
    · exact offerEvent_notArmed armed
  case offends => exact refuses_of rfl taken (takeSetWatch_offends bad first _)
  case fields => exact (all_pass_iff _).trans (forall_congr' fun k => not_congr mem_verdicts)
  case arms =>
    exact completes_of rfl taken (takeSetWatch_arms fields (by simpa using here) (by simpa using free))
  case gone => exact refuses_of rfl taken (takeSetWatch_gone fields (by simpa using gone))
  case inCheck =>
    exact refuses_of rfl taken (takeSetWatch_inCheck fields (by simpa using here)
      (by simpa using sourceInCheck_iff.2 check))
  case live =>
    refine Bool.eq_false_iff.2 fun check => ?_
    obtain ⟨ch, names, mode⟩ := sourceInCheck_iff.1 check
    exact absurd ((live ch names).symm.trans mode) nofun
  case clear => exact completes_of rfl taken (judged_all (by simp [inRange]))
  case read =>
    refine completes_of rfl taken ?_
    rw [takeReadWatches, State.watchesFields, State.flagFields, arrived_wnu]
    rfl
  case atOnce =>
    refine completes_of rfl taken ?_
    rw [takeAwaitFlags_eq low high d1 d2, if_pos (by simpa using set), State.watchesFields, State.flagFields,
      arrived_wnu]
  case waits =>
    refine congrArg Host.Outcome.next (serve_waits (take := takeAwaitFlags mask d) taken ?_)
    rw [takeAwaitFlags_eq low high d1 d2, if_neg (by simpa using unset), arrived_after]
  case emptyMask =>
    refine refuses_of rfl taken ?_
    rw [takeAwaitFlags, empty]
    exact judged_cons_false _ _ _ _
  case timeout =>
    have range : (decide (1 ≤ d) && decide (d ≤ 3600)) = false := by
      rw [Bool.and_eq_false_iff, decide_eq_false_iff_not, decide_eq_false_iff_not]
      omega
    have inMask : (decide (1 ≤ mask) && decide (mask < 2 ^ 24)) = true := by simp [low, high]
    refine refuses_of rfl taken ?_
    rw [takeAwaitFlags, inMask, judged_cons_true, range, judged_cons_false]
    rfl
  case timedOut =>
    rw [exec_awaitFlagsTimeout run found waits, if_pos time]
    rfl
  case early => rw [exec_awaitFlagsTimeout run found waits, early, if_neg Bool.false_ne_true]

end Sys2Proof.Machine
end

section
/-! PROOFS. Every command keeps the laws of the plant and of the link, whatever way it is carried out. -/

namespace Sys2Proof.Machine

/-! ### What a command of each form keeps -/

/-- A request keeps the laws when its taking stays within an event. -/
theorem request_keeps {c : Instr} {s t : State} {take : State → Ev × Answer}
    (h : Host.Outcome.next (serve c take s) = (.next t : Host.Outcome State Fault Refusal))
    (k : ∀ u, Within u (take u).1.s) : Keeps s t := by
  injection h with h
  exact h ▸ serve_keeps c s fun u => (k u).keeps

/-- An event keeps the laws when what it does stays within an event. -/
theorem event_keeps {enabled : State → Bool} {f : Ev → Ev} {s t : State}
    (h : Host.Outcome.next (occurs enabled f s) = (.next t : Host.Outcome State Fault Refusal))
    (k : enabled s = true → Within s (f s.ev).s) : Keeps s t := by
  injection h with h
  exact h ▸ occurs_keeps s k

/-- The change of an input keeps the laws when its record and what follows it stay within an event. -/
theorem input_keeps {changed : Bool} {record : State → State} {f : Ev → Ev} {s t : State}
    (h : Host.Outcome.next (inputChange changed record f s) = (.next t : Host.Outcome State Fault Refusal))
    (k : Within s (record s)) (l : ∀ ev : Ev, Within ev.s (f ev).s) : Keeps s t := by
  injection h with h
  exact h ▸ inputChange_keeps s k l

/-- What happens on the line keeps the laws when the link's part of it does. -/
theorem line_keeps {f : State → State} {s t : State}
    (h : Host.Outcome.next (onLink f s) = (.next t : Host.Outcome State Fault Refusal))
    (k : ∀ u, Keeps u (f u)) : Keeps s t := by
  injection h with h
  exact h ▸ onLink_keeps s (k s)

/-- A command that always leaves one state keeps the laws when that state does. -/
theorem state_keeps {s t u : State} (h : Host.Outcome.next u = (.next t : Host.Outcome State Fault Refusal))
    (k : Keeps s u) : Keeps s t := by
  injection h with h
  exact h ▸ k

/-! ### Commands whose meaning is no single operation -/

theorem execChannelReading_keeps {ch i : Nat} {s t : State} (h : execChannelReading ch i s = .next t) : Keeps s t := by
  refine event_keeps h fun _ => ?_
  split
  · exact reading_within _ _ _ s.ev
  · exact .refl _

theorem execMeterPulse_keeps {r : Nat} {s t : State} (h : execMeterPulse r s = .next t) : Keeps s t := by
  refine event_keeps h fun _ => ?_
  split
  · exact pulse_within _ _ s.ev
  · exact .refl _

theorem execCommitComplete_keeps {v : Bool} {s t : State} (h : execCommitComplete v s = .next t) : Keeps s t := by
  refine event_keeps h fun _ => ?_
  split
  · exact commitDone_within _ _ s.ev
  · exact .refl _

/-- The end of a rest leaves a unit OFF: its command was STOP, for it was RESTING or FAILED. -/
theorem restEnds_within {s : State} {u : Nat} (h : (s.unit u).state.counts = false) :
    Within s (s.updUnit u fun r => { r with state := .off, rest := none }) :=
  updUnit_within s u _ fun l => by
    rw [CompUnit.lawful, h] at l
    exact l

theorem execCrystalStop_keeps {s t : State} (h : execCrystalStop s = .next t) : Keeps s t :=
  state_keeps h (iteState_keeps (.refl _) (iteState_keeps
    (Keeps.trans {} (finished (raise_within .clockDegraded none (State.ev _))).keeps) {}))

theorem execCloseComplete_keeps {s t : State} (h : execCloseComplete s = .next t) : Keeps s t := by
  unfold execCloseComplete at h
  split at h
  · exact state_keeps h (closeComplete_keeps _ _)
  · exact state_keeps h (.refl _)

theorem execResetInputReleased_keeps {s t : State} (h : execResetInputReleased s = .next t) : Keeps s t := by
  unfold execResetInputReleased at h
  dsimp only at h
  split at h
  · exact state_keeps h (iteState_keeps (Keeps.trans {} (beginStart_keeps _ _)) {})
  all_goals exact state_keeps h {}

theorem execStartComplete_keeps {s t : State} (h : execStartComplete s = .next t) : Keeps s t := by
  unfold execStartComplete at h
  split at h
  · exact state_keeps h (completeStart_keeps _)
  all_goals exact state_keeps h (.refl _)

/-! ### Every command -/

/-- Every command keeps every law, and leaves the commands that wait as they are. -/
theorem exec_keeps {c : Instr} {s t : State} (h : exec c s = .next t) : Keeps s t := by
  cases c with
  | readChannel => exact request_keeps h (takeReadChannel_within _)
  | loopCheckBegin => exact request_keeps h (takeLoopCheckBegin_within _ _)
  | loopCheckEnd => exact request_keeps h (takeLoopCheckEnd_within _)
  | readMeter => exact request_keeps h (takeReadMeter_within _)
  | setGasQuality => exact request_keeps h (takeSetGasQuality_within _ _)
  | setClock => exact request_keeps h (takeSetClock_within _)
  | cavernServiceIn => exact request_keeps h (takeCavernServiceIn_within _)
  | cavernServiceOut => exact request_keeps h (takeCavernServiceOut_within _ _)
  | cavernEnable => exact request_keeps h (takeCavernEnable_within _)
  | cavernShut => exact request_keeps h (takeCavernShut_within _)
  | setMeritOrder => exact request_keeps h (takeSetMeritOrder_within _ _)
  | readMeritOrder => exact request_keeps h (takeReadMeritOrder_within _)
  | readCavern => exact request_keeps h (takeReadCavern_within _)
  | unitMaintenance => exact request_keeps h (takeUnitMaintenance_within _)
  | unitAvailable => exact request_keeps h (takeUnitAvailable_within _)
  | resetLockout => exact request_keeps h (takeResetLockout_within _)
  | setDuty => exact request_keeps h (takeSetDuty_within _ _)
  | setDutyOrder => exact request_keeps h (takeSetDutyOrder_within _ _)
  | readUnit => exact request_keeps h (takeReadUnit_within _)
  | readDuty => exact request_keeps h fun u => .refl u
  | trainOnline => exact request_keeps h (takeTrainOnline_within _)
  | trainOffline => exact request_keeps h (takeTrainOffline_within _)
  | forceSwitchover => exact request_keeps h (takeForceSwitchover_within _)
  | resetTower => exact request_keeps h (takeResetTower_within _ _)
  | readTrain => exact request_keeps h (takeReadTrain_within _)
  | accountsReady => exact request_keeps h takeAccountsReady_within
  | openAccount => exact request_keeps h (takeOpenAccount_within _ _ _ _ _ _)
  | loadInventory => exact request_keeps h (takeLoadInventory_within _ _)
  | suspendAccount => exact request_keeps h (takeSuspendAccount_within _)
  | resumeAccount => exact request_keeps h (takeResumeAccount_within _)
  | closeAccount => exact request_keeps h (takeCloseAccount_within _)
  | setRights => exact request_keeps h (takeSetRights_within _ _ _ _)
  | transfer => exact request_keeps h (takeTransfer_within _ _ _)
  | nominate => exact request_keeps h (takeNominate_within _ _ _)
  | declareCapacity => exact request_keeps h (takeDeclareCapacity_within _ _ _)
  | readCapacity => exact request_keeps h (takeReadCapacity_within _ _)
  | readChanged => exact request_keeps h takeReadChanged_within
  | readAccount => exact request_keeps h (takeReadAccount_within _)
  | readBook => exact request_keeps h (takeReadBook_within _ _ _)
  | dispatchEnable => exact state_keeps h (serve_keeps _ s takeDispatchEnable_keeps)
  | dispatchHold => exact request_keeps h takeDispatchHold_within
  | readPlan => exact request_keeps h fun u => .refl u
  | obaAdjust => exact request_keeps h (takeObaAdjust_within _ _)
  | readOba => exact request_keeps h fun u => .refl u
  | readPeriod => exact request_keeps h (takeReadPeriod_within _ _)
  | setWatch => exact request_keeps h (takeSetWatch_within _ _)
  | clearWatch => exact request_keeps h (takeClearWatch_within _)
  | readWatches => exact request_keeps h takeReadWatches_within
  | readWatch => exact request_keeps h (takeReadWatch_within _)
  | awaitFlags => exact request_keeps h (takeAwaitFlags_within _ _)
  | ackNotice => exact request_keeps h (takeAckNotice_within _ _)
  | holdNotices => exact request_keeps h fun u => holdAll_within u true
  | releaseNotices => exact request_keeps h fun u => holdAll_within u false
  | discardNotice => exact request_keeps h (takeDiscardNotice_within _)
  | testNotice => exact request_keeps h (takeTestNotice_within _)
  | readNoticeState => exact request_keeps h (takeReadNoticeState_within _)
  | clearTrip => exact request_keeps h takeClearTrip_within
  | readTrip => exact request_keeps h fun u => .refl u
  | writeProfile => exact request_keeps h (takeWriteProfile_within _ _ _ _)
  | readProfile => exact request_keeps h (takeReadProfile_within _ _)
  | identify => exact request_keeps h fun u => .refl u
  | resetController => exact request_keeps h takeResetController_within
  | frameReceived => exact line_keeps h receiveFrame_keeps
  | frameGapTimeout => exact line_keeps h gapTimeout_keeps
  | framingError => exact line_keeps h fun u => (receiveFrame_keeps u).trans {}
  | replyGrant => exact line_keeps h grantReply_keeps
  | noticeSent => exact line_keeps h sendNotice_keeps
  | telegramComplete => exact line_keeps h endTelegram_keeps
  | mainSupplyUp => exact state_keeps h (iteState_keeps (iteState_keeps {} (beginStart_keeps _ _)) (.refl _))
  | mainSupplyLost => exact state_keeps h {}
  | resetInputAsserted => exact state_keeps h {}
  | resetInputReleased => exact execResetInputReleased_keeps h
  | startComplete => exact execStartComplete_keeps h
  | channelReading => exact execChannelReading_keeps h
  | holdExpiry => exact event_keeps h fun _ => holdExpired_within _ s.ev
  | recalibrationBegin =>
    exact event_keeps h fun _ =>
      Within.trans {} (foldl_within passBegins passBegins_within (List.range 16) (Ev.map s.ev _))
  | recalibrationComplete =>
    exact event_keeps h fun _ =>
      Within.trans {} (foldl_within passEnds passEnds_within (List.range 16) (Ev.map s.ev _))
  | meterPulse => exact execMeterPulse_keeps h
  | zeroFlowExpiry => exact event_keeps h fun _ => (mapRun_within s.ev _ _).trans (setRate_within _ _ _)
  | clockSecond => exact state_keeps h (second_within s).keeps
  | crystalStop => exact execCrystalStop_keeps h
  | crystalResume => exact state_keeps h {}
  | periodBoundary => exact line_keeps h fun u => periodBoundary_keeps u _
  | closeComplete => exact execCloseComplete_keeps h
  | valveLimitChange =>
    exact input_keeps h (updCav_within _ _ _ id) fun ev => changeCavern_within _ _ ev Cavern.travelled_signed
  | travelDeadlineExpiry => exact event_keeps h fun _ => travelExpired_within _ s.ev
  | dwellExpiry => exact event_keeps h fun _ => changeCavern_within _ _ s.ev Cavern.dwelt_signed
  | dispatchIntervalExpiry => exact event_keeps h fun _ => intervalStep_within s.ev
  | startPendingExpiry => exact event_keeps h fun _ => review_within _ s.ev
  | stopPendingExpiry => exact event_keeps h fun _ => review_within _ s.ev
  | minimumRunExpiry u =>
    exact event_keeps h fun _ =>
      (updUnit_within s u (fun r => { r with minRunTaken := true }) id).trans (review_within _ (State.ev _))
  | unitRunningInputChange => exact input_keeps h (updUnit_within _ _ _ id) (feedbackChanged_within _)
  | startDeadlineExpiry => exact event_keeps h fun _ => startFailed_within _ s.ev
  | stopDeadlineExpiry =>
    exact event_keeps h fun k => stopExpired_within _ s.ev (eq_of_beq (Bool.and_eq_true_iff.1 k).1)
  | restDeadlineExpiry u =>
    refine event_keeps h fun k => restEnds_within ?_
    obtain resting | failed := Bool.or_eq_true_iff.1 (Bool.and_eq_true_iff.1 k).1
    · rw [eq_of_beq resting]
      rfl
    · rw [eq_of_beq failed]
      rfl
  | startHistoryAgeOut => exact event_keeps h fun _ => updUnit_within _ _ _ id
  | towerFeedbackChange t w =>
    refine input_keeps h (updTrain_within _ _ _ fun a b => ?_) (towerFeedback_within _ _)
    exact Train.lawful.updTower ⟨a, b⟩ w _ id
  | switchDeadlineExpiry =>
    exact event_keeps h fun _ => changeTrain_within _ _ s.ev Train.failSwitch_lawful
  | towerStepExpiry => exact event_keeps h fun _ => stepExpired_within _ _ s.ev
  | offSpecExpiry => exact event_keeps h fun _ => offSpecExpired_within _ s.ev
  | esdInputChange =>
    exact input_keeps h {} fun ev => ite_within (.refl _) (.refl _)
  | awaitFlagsTimeout => exact line_keeps h fun u => awaitTimeout_keeps u _
  | commitComplete => exact execCommitComplete_keeps h
  | profileToProfileExpiry => exact event_keeps h fun _ => {}
  | settleExpiry => exact event_keeps h fun _ => {}
  | byteReceived => exact line_keeps h fun u => receiveByte_keeps u _
  | backupSupplyLost => exact state_keeps h (iteState_keeps {} (.refl _))

/-- Settles O57: the front command keeps the laws, and an idle millisecond touches none of them. -/
theorem everyStepKeepsPlantLaws : Obligations.EveryStepKeepsPlantLaws := by
  intro s t h
  unfold step at h
  split at h
  case h_1 c rest _ =>
    have k : Keeps { s with pending := rest } t := exec_keeps h
    exact ⟨k.sizes, k.caverns, k.units, k.towers, k.trip⟩
  case h_2 =>
    have k : Keeps s t := state_keeps h (iteState_keeps (.refl s) {})
    exact ⟨k.sizes, k.caverns, k.units, k.towers, k.trip⟩

end Sys2Proof.Machine
end

section
/-! PROOFS. The cavern table inside an event: permits and outputs, trip commands, valve positions and deadlines (R22,
R23, R27 to R32, R35, R36). -/

namespace Sys2Proof.Machine

/-! ### States and positions (2.2, R22) -/

theorem CavernState.flows_iff {st : CavernState} :
    st.flows = true ↔ st = .idle ∨ st = .injecting ∨ st = .withdrawing := by
  cases st <;> simp [CavernState.flows]

theorem CavernState.isOpen_iff {st : CavernState} :
    st.isOpen = true ↔ st = .idle ∨ st = .injecting ∨ st = .withdrawing ∨ st = .dwell := by
  cases st <;> simp [CavernState.isOpen]

theorem CavernState.isClosed_iff {st : CavernState} : st.isClosed = true ↔ st = .shut ∨ st = .tripped := by
  cases st <;> simp [CavernState.isClosed]

theorem CavernState.expected_of_isOpen {st : CavernState} (h : st.isOpen = true) : st.expected = some .opened :=
  if_pos h

theorem CavernState.expected_of_isClosed {st : CavernState} (h : st.isClosed = true) : st.expected = some .closed := by
  obtain rfl | rfl := CavernState.isClosed_iff.1 h <;> rfl

theorem Cavern.position_eq (r : Cavern) : r.position =
    if r.openLimit then (if r.closedLimit then .unknown else .opened)
    else if r.closedLimit then .closed else .travel := by
  unfold Cavern.position
  cases r.openLimit <;> cases r.closedLimit <;> rfl

theorem Cavern.position_opened_iff {r : Cavern} : r.position = .opened ↔
    r.openLimit = true ∧ r.closedLimit = false := by
  rw [Cavern.position_eq]
  cases r.openLimit <;> cases r.closedLimit <;> simp

theorem Cavern.position_closed_iff {r : Cavern} : r.position = .closed ↔
    r.openLimit = false ∧ r.closedLimit = true := by
  rw [Cavern.position_eq]
  cases r.openLimit <;> cases r.closedLimit <;> simp

theorem State.cav_updCav_self {s : State} {c : Nat} (h : c < s.cvc.caverns.length) (f : Cavern → Cavern) :
    (s.updCav c f).cav c = f (s.cav c) :=
  (s.cav_updCav c c f).trans (if_pos ⟨rfl, h⟩)

/-- Two changes that agree on a cavern's record are followed up alike. -/
theorem changeCavern_congr {c : Nat} {f g : Cavern → Cavern} {ev : Ev} (h : f (ev.s.cav c) = g (ev.s.cav c)) :
    changeCavern c f ev = changeCavern c g ev := by
  have same : (ev.s.updCav c fun r => ((f r).supervise (ev.s.cavDef c) ev.s).recompute (ev.s.cavDef c)) =
      ev.s.updCav c fun r => ((g r).supervise (ev.s.cavDef c) ev.s).recompute (ev.s.cavDef c) :=
    State.updCav_congr (by rw [h])
  simp only [changeCavern, Ev.map, same]

/-! ### Permits (R32) -/

theorem CavernDef.permit_without_headroom (d : CavernDef) (q : Nat) {h : Int} (out : h ≤ 0) : d.permit q h = 0 :=
  if_pos out

theorem CavernDef.permit_tapered (d : CavernDef) (q : Nat) {h : Int} (room : 0 < h) (band : h < d.taper) :
    d.permit q h = min (min q (d.ramp * d.k)) 99999999 * h.toNat / d.taper :=
  (if_neg (not_le.2 room)).trans (if_pos band)

theorem CavernDef.permit_full (d : CavernDef) (q : Nat) {h : Int} (room : 0 < h) (full : d.taper ≤ h) :
    d.permit q h = min (min q (d.ramp * d.k)) 99999999 :=
  (if_neg (not_le.2 room)).trans (if_neg (not_lt.2 full))

theorem CavernDef.injPermit_flows (d : CavernDef) {r : Cavern} (h : r.state.flows = true) (k : r.quality ≠ .lost) :
    d.injPermit r = d.permit d.qInj (d.pMax - r.pressure) :=
  if_pos (by simp [h, k])

theorem CavernDef.wdPermit_flows (d : CavernDef) {r : Cavern} (h : r.state.flows = true) (k : r.quality ≠ .lost) :
    d.wdPermit r = d.permit d.qWd (r.pressure - d.pMin) :=
  if_pos (by simp [h, k])

theorem CavernDef.injPermit_none (d : CavernDef) {r : Cavern} (h : r.state.flows = false ∨ r.quality = .lost) :
    d.injPermit r = 0 :=
  if_neg (by rcases h with h | h <;> simp [h])

theorem CavernDef.wdPermit_none (d : CavernDef) {r : Cavern} (h : r.state.flows = false ∨ r.quality = .lost) :
    d.wdPermit r = 0 :=
  if_neg (by rcases h with h | h <;> simp [h])

/-! ### Outputs (R22, R36, R172) -/

theorem setpointOutput_running {s : State} {c : Nat} {d : CavernDef} (run : s.phase = .running)
    (hd : s.cavDef c = some d) : s.setpointOutput c =
      4000 + 16000 * (s.cav c).setpoint.natAbs / (if (s.cav c).setpoint > 0 then d.qInj else d.qWd) := by
  rw [State.setpointOutput, run, hd]

theorem setpointOutput_absent {s : State} {c : Nat} (h : s.cavDef c = none) : s.setpointOutput c = 4000 := by
  rw [State.setpointOutput, h]
  split
  · contradiction
  · rfl

theorem setpointOutput_not_running {s : State} {c : Nat} (h : s.phase ≠ .running) : s.setpointOutput c = 4000 := by
  unfold State.setpointOutput
  split
  · contradiction
  · rfl

/-- Settles O18: the permits by the headroom of each direction, the outputs by the phase. -/
theorem permitsAndOutputsFollowRecord : Obligations.PermitsAndOutputsFollowRecord := by
  refine ⟨fun d r => ⟨fun flows good => ?permits, fun rest => ?none⟩,
    fun s c d => ⟨setpointOutput_running, setpointOutput_absent, fun run => ?driven, fun off => ?released⟩⟩
  case permits =>
    have flow := CavernState.flows_iff.2 flows
    rw [d.injPermit_flows flow good, d.wdPermit_flows flow good]
    exact ⟨⟨d.permit_without_headroom _, d.permit_tapered _, d.permit_full _⟩,
      ⟨d.permit_without_headroom _, d.permit_tapered _, d.permit_full _⟩⟩
  case none =>
    have still : r.state.flows = false ∨ r.quality = .lost :=
      rest.imp_left fun h => Bool.eq_false_iff.2 (mt CavernState.flows_iff.1 h)
    exact ⟨d.injPermit_none still, d.wdPermit_none still⟩
  case driven =>
    refine ⟨by simp [State.directionWithdraw, run], ?_, by simp [State.valveOutputs, run]⟩
    cases h : (s.cav c).command <;> simp [State.valveOutputs, run, h]
  case released =>
    exact ⟨setpointOutput_not_running off, by simp [State.directionWithdraw, off], by simp [State.valveOutputs, off]⟩

/-! ### Trip commands (R30) -/

theorem Cavern.trip_closes {r : Cavern} (h : r.state = .opening ∨ r.state.isOpen = true) (station : Bool) (s : State)
    (d : CavernDef) : r.trip station s d = r.beginClosing s d .tripped := by
  rw [CavernState.isOpen_iff] at h
  rcases h with h | h | h | h | h <;> rw [Cavern.trip, h]

theorem Cavern.trip_closing {r : Cavern} (h : r.state = .closing) (station : Bool) (s : State) (d : CavernDef) :
    r.trip station s d = { r with target := some .tripped } := by
  rw [Cavern.trip, h]

theorem Cavern.trip_shut {r : Cavern} (h : r.state = .shut) (station : Bool) (s : State) (d : CavernDef) :
    r.trip station s d =
      if station then r
      else if r.position = .closed then { r with state := .tripped, travel := none }
      else r.beginClosing s d .tripped := by
  rw [Cavern.trip, h]

theorem Cavern.trip_spares {r : Cavern} (h : r.state = .tripped ∨ r.state = .valveFault ∨ r.state = .outOfService)
    (station : Bool) (s : State) (d : CavernDef) : r.trip station s d = r := by
  rcases h with h | h | h <;> rw [Cavern.trip, h]

/-- Settles O23: one clause for each group of states that a trip command treats alike. -/
theorem tripCommandActsByState : Obligations.TripCommandActsByState := by
  intro s d r station
  exact ⟨fun h => Cavern.trip_closes h station s d, fun h => Cavern.trip_closing h station s d,
    fun h => Cavern.trip_shut h true s d,
    fun h closed => (Cavern.trip_shut h false s d).trans (if_pos closed),
    fun h out => (Cavern.trip_shut h false s d).trans (if_neg out),
    fun h => Cavern.trip_spares h station s d⟩

/-! ### Valve positions (R22, R27, R29) -/

theorem inputChange_running {changed : Bool} {record : State → State} {f : Ev → Ev} {s : State} (h : changed = true)
    (run : s.phase = .running) : inputChange changed record f s = (f (record s).ev).finish := by
  simp [inputChange, h, run]

theorem inputChange_not_running {changed : Bool} {record : State → State} {f : Ev → Ev} {s : State}
    (h : changed = true) (off : s.phase ≠ .running) : inputChange changed record f s = record s := by
  simp [inputChange, h, off]

theorem Cavern.travelled_opens {r : Cavern} (h : r.state = .opening) (p : r.position = .opened) :
    r.travelled = { r with state := .idle, setpoint := 0, travel := none } := by
  rw [Cavern.travelled, h, p]

theorem Cavern.travelled_shuts {r : Cavern} (h : r.state = .closing) (p : r.position = .closed)
    (k : r.target = some .shut) : r.travelled = { r with state := .shut, target := none, travel := none } := by
  rw [Cavern.travelled, h, p, k]

theorem Cavern.travelled_trips {r : Cavern} (h : r.state = .closing) (p : r.position = .closed)
    (k : r.target = some .tripped) : r.travelled = { r with state := .tripped, target := none, travel := none } := by
  rw [Cavern.travelled, h, p, k]

theorem Cavern.travelled_stays {r : Cavern} (opening : r.state = .opening → r.position ≠ .opened)
    (closing : r.state = .closing → r.position ≠ .closed) : r.travelled = r := by
  unfold Cavern.travelled
  split
  case h_1 h p => exact absurd p (opening h)
  case h_2 h p _ => exact absurd p (closing h)
  case h_3 h p _ => exact absurd p (closing h)
  case h_4 => rfl

/-- Settles O21: a changed input is recorded, and followed up by what the new position does to the record. -/
theorem valvePositionCompletesTravel : Obligations.ValvePositionCompletesTravel := by
  intro s c o k hc x
  have recorded : x.cav c = { s.cav c with openLimit := o, closedLimit := k } := State.cav_updCav_self hc _
  have position : (x.cav c).position =
      if o then (if k then .unknown else .opened) else if k then .closed else .travel := by
    rw [Cavern.position_eq, recorded]
  have opened : (x.cav c).position = .opened ↔ o = true ∧ k = false := by
    rw [Cavern.position_opened_iff, recorded]
  have closed : (x.cav c).position = .closed ↔ o = false ∧ k = true := by
    rw [Cavern.position_closed_iff, recorded]
  have state : (x.cav c).state = (s.cav c).state := by rw [recorded]
  have target : (x.cav c).target = (s.cav c).target := by rw [recorded]
  refine ⟨fun ho hk => ?same, fun changed => ?changed, recorded, position⟩
  case same => exact congrArg Host.Outcome.next (if_pos (by simp [ho, hk]))
  case changed =>
    have differs : ((s.cav c).openLimit != o || (s.cav c).closedLimit != k) = true := by simpa using changed
    have follows {f : Cavern → Cavern} (run : s.phase = .running) (h : (x.cav c).travelled = f (x.cav c)) :
        happens (.valveLimitChange c o k) s fun _ => changeCavern c f x.ev := by
      refine congrArg Host.Outcome.next ((inputChange_running differs run).trans ?_)
      exact congrArg Ev.finish (changeCavern_congr h)
    refine ⟨fun off => congrArg Host.Outcome.next (inputChange_not_running differs off), ?_, ?_, ?_, ?_⟩
    · intro run opening ho hk
      exact follows run (Cavern.travelled_opens (state.trans opening) (opened.2 ⟨ho, hk⟩))
    · intro run closing toShut ho hk
      exact follows run (Cavern.travelled_shuts (state.trans closing) (closed.2 ⟨ho, hk⟩) (target.trans toShut))
    · intro run closing toTripped ho hk
      exact follows run (Cavern.travelled_trips (state.trans closing) (closed.2 ⟨ho, hk⟩) (target.trans toTripped))
    · intro run notOpened notClosed
      refine follows run (Cavern.travelled_stays (fun h p => ?_) fun h p => ?_)
      · exact notOpened (state.symm.trans h) (opened.1 p)
      · exact notClosed (state.symm.trans h) (closed.1 p)

/-! ### Deadlines (R23, R27, R29, R35) -/

theorem travelExpired_opening {c : Nat} {ev : Ev} (h : (ev.s.cav c).state = .opening) :
    travelExpired c ev = changeCavern c Cavern.toFault ev := by
  simp only [travelExpired, h]

theorem travelExpired_closing {c : Nat} {ev : Ev} (h : (ev.s.cav c).state = .closing) : travelExpired c ev =
    if (ev.s.cav c).target = some .tripped then secondFailure c (changeCavern c Cavern.toFault ev)
    else changeCavern c Cavern.toFault ev := by
  simp only [travelExpired, h]

/-- An open or closed cavern whose travel deadline passes goes to VALVE_FAULT while it is out of position (R23). -/
theorem travelExpired_misplaced {c : Nat} {ev : Ev} {p : Position} (h : (ev.s.cav c).state.expected = some p)
    (out : (ev.s.cav c).position ≠ p) : travelExpired c ev = changeCavern c Cavern.toFault ev := by
  have elsewhere : (ev.s.cav c).state.expected ≠ some (ev.s.cav c).position := fun k =>
    out (Option.some.inj (k.symm.trans h))
  cases st : (ev.s.cav c).state <;> rw [st] at h elsewhere
  case idle | injecting | withdrawing | dwell | shut | tripped => simp only [travelExpired, st, if_neg elsewhere]
  all_goals cases h

theorem exec_travelDeadlineExpiry {s : State} {c : Nat} (run : s.phase = .running)
    (passed : due s.clock (s.cav c).travel = true) :
    exec (.travelDeadlineExpiry c) s = .next (travelExpired c s.ev).finish :=
  congrArg Host.Outcome.next (occurs_eq run passed)

/-- Settles O22: what the expiry of each deadline does, by the state that the cavern is in. -/
theorem cavernDeadlinesExpire : Obligations.CavernDeadlinesExpire := by
  intro s c run fault
  refine ⟨fun passed => ?travel, fun early => ?_, fun passed => ?_, fun early => ?_⟩
  case travel =>
    have happened {f : State → Ev} (h : travelExpired c s.ev = f s) : happens (.travelDeadlineExpiry c) s f :=
      (exec_travelDeadlineExpiry run passed).trans (by rw [h])
    refine ⟨?_, ?_, ?_, ?_⟩
    · rintro (opening | ⟨closing, toShut⟩)
      · exact happened (travelExpired_opening opening)
      · exact happened ((travelExpired_closing closing).trans (if_neg toShut))
    · intro closing toTripped
      exact happened ((travelExpired_closing closing).trans (if_pos toTripped))
    · intro opened out
      exact happened (travelExpired_misplaced (CavernState.expected_of_isOpen opened) out)
    · intro closed out
      exact happened (travelExpired_misplaced (CavernState.expected_of_isClosed closed) out)
  · exact congrArg Host.Outcome.next (occurs_disabled early)
  · exact congrArg Host.Outcome.next (occurs_eq run passed)
  · exact congrArg Host.Outcome.next (occurs_disabled early)

end Sys2Proof.Machine
end

section
/-! PROOFS. The cavern table's requests, and the caverns under a written CAVERNS group (R21, R24 to R26, R28, R37). -/

namespace Sys2Proof.Machine

/-! ### Requests on a present cavern (2.3) -/

theorem refuseIf_of_false {s : State} {b : Bool} {a : Answer} {go : Ev × Answer} (h : b = false) :
    refuseIf s b a go = go := by
  rw [h, refuseIf_false]

theorem refuseIf_of_true {s : State} {b : Bool} {a : Answer} {go : Ev × Answer} (h : b = true) :
    refuseIf s b a go = (s.ev, a) := by
  rw [h, refuseIf_true]

theorem onCavern_present {s : State} {c : Nat} {d : CavernDef} {l : List (Nat × Bool)} {go : CavernDef → Ev × Answer}
    (hc : c < 8) (hd : s.cavDef c = some d) : onCavern s c l go = judged s l (go d) := by
  rw [onCavern, hd, decide_eq_true hc, judged_cons_true]

section
variable {i : Instr} {s : State} {e : QEntry} {c : Nat} {d : CavernDef} {l : List (Nat × Bool)}
  {go : State → CavernDef → Ev × Answer}

/-- A request on a present cavern, with its other fields good, is done when its rule does it. -/
theorem completes_onCavern {f : State → Ev} {body : State → List Fld} (hc : c < 8) (hd : s.cavDef c = some d)
    (x : exec i s = .next (serve i (fun t => onCavern t c l (go t)) s)) (hl : l.all Prod.snd = true)
    (k : takes i s e = true) (done : go (s.arrived i) d = (f (s.arrived i), .ok (body (f (s.arrived i)).s))) :
    completes i s e f body :=
  completes_of x k (by rw [onCavern_present hc (by simpa using hd), judged_all hl, done])

/-- A request on a present cavern, with its other fields good, is refused when its rule refuses it. -/
theorem refuses_onCavern {st : Status} {x : Detail} (hc : c < 8) (hd : s.cavDef c = some d)
    (h : exec i s = .next (serve i (fun t => onCavern t c l (go t)) s)) (hl : l.all Prod.snd = true)
    (k : takes i s e = true) (done : go (s.arrived i) d = ((s.arrived i).ev, .no st x)) : refuses i s e st x :=
  refuses_of h k (by rw [onCavern_present hc (by simpa using hd), judged_all hl, done])

end

/-! ### CAVERN_SERVICE and CAVERN_ENABLE (R24 to R26) -/

theorem CavernState.leavable_iff {st : CavernState} :
    st.leavable = true ↔ st = .shut ∨ st = .tripped ∨ st = .valveFault := by
  cases st <;> simp [CavernState.leavable]

theorem Cavern.fitToOpen_iff {d : CavernDef} {r : Cavern} : r.fitToOpen d = true ↔
    r.quality = .good ∧ r.envelope = .inside ∧ d.envelopeOf r.pressure = .inside := by
  simp [Cavern.fitToOpen, and_assoc]

theorem CavernDef.envelopeOf_inside_iff {d : CavernDef} {v : Int} :
    d.envelopeOf v = .inside ↔ (d.pMin : Int) - d.margin ≤ v ∧ v ≤ d.pMax + d.margin := by
  unfold CavernDef.envelopeOf
  split
  · simp only [reduceCtorEq, false_iff]
    omega
  · split <;> simp only [reduceCtorEq, false_iff, true_iff] <;> omega

section
variable {s : State} {e : QEntry} {t c : Nat} {d : CavernDef}

/-- The body of an accepted request on a cavern (2.3). -/
def State.cavernBody (c : Nat) (s : State) : List Fld :=
  [b1 (s.cav c).state.code, b1 (s.cav c).position.code, b1 (s.cav c).command.code]

theorem serviceIn_completes (hc : c < 8) (hd : s.cavDef c = some d) (h : takes (.cavernServiceIn t c) s e)
    (out : (s.cav c).state = .outOfService) (channel : d.channel ≠ none) (closed : (s.cav c).position = .closed) :
    completes (.cavernServiceIn t c) s e
      (fun x => changeCavern c (fun r => { r with state := .shut, command := .driveClose, envelope := .inside }) x.ev)
      (State.cavernBody c) := by
  refine completes_onCavern hc hd rfl rfl h ?_
  rw [refuseIf_of_false (by simp [out]), refuseIf_of_false (by simp [Option.isSome_iff_ne_none, channel, closed])]
  rfl

theorem serviceIn_wrongState (hc : c < 8) (hd : s.cavDef c = some d) (h : takes (.cavernServiceIn t c) s e)
    (here : (s.cav c).state ≠ .outOfService) : refuses (.cavernServiceIn t c) s e .wrongState {} :=
  refuses_onCavern hc hd rfl rfl h (refuseIf_of_true (by simp [here]))

theorem serviceIn_notReady (hc : c < 8) (hd : s.cavDef c = some d) (h : takes (.cavernServiceIn t c) s e)
    (out : (s.cav c).state = .outOfService) (unready : d.channel = none ∨ (s.cav c).position ≠ .closed) :
    refuses (.cavernServiceIn t c) s e .notReady {} := by
  refine refuses_onCavern hc hd rfl rfl h ?_
  rw [refuseIf_of_false (by simp [out]), refuseIf_of_true (by simpa using unready)]
  rfl

theorem serviceOut_completes (hc : c < 8) (hd : s.cavDef c = some d) (h : takes (.cavernServiceOut t c 1) s e)
    (leavable : (s.cav c).state = .shut ∨ (s.cav c).state = .tripped ∨ (s.cav c).state = .valveFault) :
    completes (.cavernServiceOut t c 1) s e
      (fun x => changeCavern c
        (fun r => { r with state := .outOfService, command := .driveClose, travel := none }) x.ev)
      (State.cavernBody c) := by
  refine completes_onCavern hc hd rfl rfl h ?_
  rw [refuseIf_of_false (by simp [CavernState.leavable_iff.2 leavable])]
  rfl

theorem serviceOut_wrongState (hc : c < 8) (hd : s.cavDef c = some d) (h : takes (.cavernServiceOut t c 1) s e)
    (elsewhere : ¬((s.cav c).state = .shut ∨ (s.cav c).state = .tripped ∨ (s.cav c).state = .valveFault)) :
    refuses (.cavernServiceOut t c 1) s e .wrongState {} := by
  have stays : (s.cav c).state.leavable = false := Bool.eq_false_iff.2 (mt CavernState.leavable_iff.1 elsewhere)
  exact refuses_onCavern hc hd rfl rfl h (refuseIf_of_true (by simp [stays]))

theorem serviceOut_badDirection {k : Nat} (hc : c < 8) (hd : s.cavDef c = some d)
    (h : takes (.cavernServiceOut t c k) s e) (hk : 2 ≤ k) :
    refuses (.cavernServiceOut t c k) s e .badField ⟨.field, 2⟩ := by
  refine refuses_of rfl h ?_
  have neither : (k == 1) = false := by simp; omega
  rw [takeCavernServiceOut, onCavern_present hc (by simpa using hd), neither]
  exact judged_cons_false _ _ _ _

theorem enable_completes (hc : c < 8) (hd : s.cavDef c = some d) (h : takes (.cavernEnable t c) s e)
    (settled : s.settling = false) (normal : s.tru.tripped = false)
    (closed : (s.cav c).state = .shut ∨ (s.cav c).state = .tripped) (ready : (s.cav c).fitToOpen d = true) :
    completes (.cavernEnable t c) s e
      (fun x => changeCavern c
        (fun r => { r with state := .opening, command := .driveOpen, travel := some (x.after d.travel) }) x.ev)
      (State.cavernBody c) := by
  refine completes_onCavern hc hd rfl rfl h ?_
  rw [refuseIf_of_false (by simpa using settled), refuseIf_of_false (by simpa using normal),
    refuseIf_of_false (by simp [CavernState.isClosed_iff.2 closed]), refuseIf_of_false (by simp [ready])]
  rfl

theorem enable_settling (hc : c < 8) (hd : s.cavDef c = some d) (h : takes (.cavernEnable t c) s e)
    (settling : s.settling = true) : refuses (.cavernEnable t c) s e .settling {} :=
  refuses_onCavern hc hd rfl rfl h (refuseIf_of_true (by simpa using settling))

theorem enable_tripped (hc : c < 8) (hd : s.cavDef c = some d) (h : takes (.cavernEnable t c) s e)
    (settled : s.settling = false) (tripped : s.tru.tripped = true) :
    refuses (.cavernEnable t c) s e .tripped {} := by
  refine refuses_onCavern hc hd rfl rfl h ?_
  rw [refuseIf_of_false (by simpa using settled), refuseIf_of_true (by simpa using tripped)]
  rfl

theorem enable_wrongState (hc : c < 8) (hd : s.cavDef c = some d) (h : takes (.cavernEnable t c) s e)
    (settled : s.settling = false) (normal : s.tru.tripped = false)
    (elsewhere : ¬((s.cav c).state = .shut ∨ (s.cav c).state = .tripped)) :
    refuses (.cavernEnable t c) s e .wrongState {} := by
  have stays : (s.cav c).state.isClosed = false := Bool.eq_false_iff.2 (mt CavernState.isClosed_iff.1 elsewhere)
  refine refuses_onCavern hc hd rfl rfl h ?_
  rw [refuseIf_of_false (by simpa using settled), refuseIf_of_false (by simpa using normal),
    refuseIf_of_true (by simp [stays])]
  rfl

theorem enable_notReady (hc : c < 8) (hd : s.cavDef c = some d) (h : takes (.cavernEnable t c) s e)
    (settled : s.settling = false) (normal : s.tru.tripped = false)
    (closed : (s.cav c).state = .shut ∨ (s.cav c).state = .tripped) (unfit : (s.cav c).fitToOpen d = false) :
    refuses (.cavernEnable t c) s e .notReady {} := by
  refine refuses_onCavern hc hd rfl rfl h ?_
  rw [refuseIf_of_false (by simpa using settled), refuseIf_of_false (by simpa using normal),
    refuseIf_of_false (by simp [CavernState.isClosed_iff.2 closed]), refuseIf_of_true (by simp [unfit])]
  rfl

end

/-! ### A written CAVERNS group (R21) -/

/-- The state with the contents of a CAVERNS group in force and nothing fitted to them yet. -/
def State.withCaverns (s : State) (l : List CavernDef) : State :=
  { s with pst := { s.pst with caverns := { s.pst.caverns with live := some l } } }

theorem withCaverns_cavDef (s : State) (l : List CavernDef) (c : Nat) : (s.withCaverns l).cavDef c =
    if (l.getD c {}).present then some (l.getD c {}) else none := by
  have read : (s.withCaverns l).cavDef c = (l[c]?).filter (·.present) := rfl
  rw [read, List.getD_eq_getElem?_getD]
  cases l[c]? with
  | none => rfl
  | some d => exact Option.filter_some

theorem withCaverns_isSome (s : State) (l : List CavernDef) (c : Nat) :
    ((s.withCaverns l).cavDef c).isSome = (l.getD c {}).present := by
  rw [withCaverns_cavDef]
  cases (l.getD c {}).present <;> rfl

theorem beginCommit_cvc (s : State) : s.beginCommit.cvc = s.cvc := by
  unfold State.beginCommit
  split <;> rfl

/-- A CAVERNS write leaves the Cavern Controller fitted to the new group (R21). -/
theorem applyWrite_caverns_cvc (v : List Int) (ev : Ev) :
    (applyWrite .caverns v ev).s.cvc = ((ev.s.withCaverns (cavernsOf v)).fitCaverns false).cvc :=
  beginCommit_cvc _

theorem applyWrite_caverns_restep (v : List Int) (ev : Ev) : (applyWrite .caverns v ev).restep = true :=
  Bool.or_true _

theorem fitMerit_withCaverns (s : State) (l : List CavernDef) (old : List Nat) : fitMerit (s.withCaverns l) old =
    old.filter (fun c => (l.getD c {}).present) ++
      (List.range 8).filter fun c => (l.getD c {}).present && !(s.cav c).present && !old.contains c := by
  simp only [fitMerit, withCaverns_isSome]
  rfl

theorem applyWrite_caverns_cav (v : List Int) {ev : Ev} {c : Nat} (hc : c < ev.s.cvc.caverns.length) :
    (applyWrite .caverns v ev).s.cav c = (ev.s.cav c).fit (ev.s.withCaverns (cavernsOf v))
      ((ev.s.withCaverns (cavernsOf v)).cavDef c) false := by
  rw [State.cav, applyWrite_caverns_cvc]
  simp [State.fitCaverns, State.cav, State.withCaverns, hc]

/-- A cavern that a group takes or leaves out of service, with the pressure that its record then shows (R21). -/
def Cavern.takenOut (r : Cavern) (present : Bool) (p : Int) (q : Quality) : Cavern :=
  { r with
    present := present, state := .outOfService, target := none, command := .driveClose, travel := none
    injPermit := 0, wdPermit := 0, setpoint := 0, pressure := p, quality := q, envelope := .inside }

theorem cutSetpoint_zero (v : Int) : cutSetpoint 0 0 v = 0 := by
  unfold cutSetpoint
  split
  · omega
  · split <;> omega

/-- Recomputed outside the states that flow, a record has no permit and no setpoint (R32, R33). -/
theorem Cavern.recompute_still (d : CavernDef) {r : Cavern} (h : r.state.flows = false) :
    r.recompute (some d) = { r with injPermit := 0, wdPermit := 0, setpoint := 0 } := by
  simp only [Cavern.recompute, d.injPermit_none (.inl h), d.wdPermit_none (.inl h), cutSetpoint_zero]

theorem Cavern.fit_absent (s : State) (r : Cavern) : r.fit s none false = r.takenOut false 0 .lost := rfl

theorem Cavern.fit_out (s : State) {d : CavernDef} {r : Cavern}
    (h : d.channel = none ∨ r.present = false ∨ r.state = .outOfService) :
    r.fit s (some d) false = r.takenOut true (s.pressureOf d).1 (s.pressureOf d).2 := by
  have out : (if d.channel.isNone then CavernState.outOfService
      else if (false : Bool) then .shut else if r.present then r.state else .outOfService) = .outOfService := by
    rcases h with h | h | h <;> simp [h]
  simp only [Cavern.fit, out]
  exact Cavern.recompute_still d rfl

theorem Cavern.fit_shut (s : State) {d : CavernDef} {r : Cavern} (channel : d.channel ≠ none)
    (present : r.present = true) (shut : r.state = .shut) : r.fit s (some d) false =
      { r with
        injPermit := 0, wdPermit := 0, setpoint := 0, pressure := (s.pressureOf d).1, quality := (s.pressureOf d).2
        envelope := .inside } := by
  have stays : (if d.channel.isNone then CavernState.outOfService
      else if (false : Bool) then .shut else if r.present then r.state else .outOfService) = r.state := by
    simp [channel, present]
  simp only [Cavern.fit, stays]
  rw [Cavern.recompute_still d (by simp [shut, CavernState.flows])]
  simp [shut, present]

theorem withCaverns_pressureOf (s : State) (l : List CavernDef) {d : CavernDef} {ch : Nat} (h : d.channel = some ch) :
    (s.withCaverns l).pressureOf d = ((s.chan ch).value, (s.chan ch).quality) := by
  rw [State.pressureOf, h]
  rfl

theorem State.pressureOf_none (s : State) {d : CavernDef} (h : d.channel = none) : s.pressureOf d = (0, .lost) := by
  rw [State.pressureOf, h]

/-- Settles O19: the written group cavern by cavern, then each request by the refusals of its table. -/
theorem cavernServiceAndEnable : Obligations.CavernServiceAndEnable := by
  refine ⟨fun ev v => ?written, fun s e t c k d hc hd => ?requests⟩
  case written =>
    refine ⟨?_, ?_, applyWrite_caverns_restep v ev, fun c _ hc => ?caverns⟩
    · rw [applyWrite_caverns_cvc]
      exact fitMerit_withCaverns _ _ _
    · rw [applyWrite_caverns_cvc]
      exact fitMerit_withCaverns _ _ _
    · intro d r out
      have fitted := applyWrite_caverns_cav v hc
      rw [withCaverns_cavDef] at fitted
      have absent (h : d.present = false) : (applyWrite .caverns v ev).s.cav c =
          r.fit (ev.s.withCaverns (cavernsOf v)) none false := fitted.trans (by rw [if_neg (Bool.eq_false_iff.1 h)])
      have here (h : d.present = true) : (applyWrite .caverns v ev).s.cav c =
          r.fit (ev.s.withCaverns (cavernsOf v)) (some d) false := fitted.trans (by rw [if_pos h])
      refine ⟨fun gone => (absent gone).trans (Cavern.fit_absent _ r), fun present none => ?_,
        fun ch present channel outside => ?_, fun ch present channel was shut => ?_⟩
      · rw [here present, Cavern.fit_out _ (.inl none), State.pressureOf_none _ none]
        rfl
      · rw [here present, Cavern.fit_out _ (.inr outside), withCaverns_pressureOf _ _ channel]
        rfl
      · rw [here present, Cavern.fit_shut _ (by simp [channel]) was shut, withCaverns_pressureOf _ _ channel]
  case requests =>
    refine ⟨serviceIn_completes hc hd,
      fun h => ⟨serviceIn_wrongState hc hd h, serviceIn_notReady hc hd h⟩,
      serviceOut_completes hc hd,
      fun h shut tripped fault => serviceOut_wrongState hc hd h (by simp [shut, tripped, fault]),
      serviceOut_badDirection hc hd,
      fun h settled normal closed good inside limits =>
        enable_completes hc hd h settled normal closed (Cavern.fitToOpen_iff.2 ⟨good, inside, limits⟩),
      fun h => ⟨enable_settling hc hd h, enable_tripped hc hd h,
        fun settled normal shut tripped => enable_wrongState hc hd h settled normal (by simp [shut, tripped]),
        fun settled normal closed unfit => enable_notReady hc hd h settled normal closed ?_⟩⟩
    refine Bool.eq_false_iff.2 fun fit => ?_
    obtain ⟨good, inside, limits⟩ := Cavern.fitToOpen_iff.1 fit
    obtain ⟨low, high⟩ := CavernDef.envelopeOf_inside_iff.1 limits
    rcases unfit with unfit | unfit | unfit | unfit
    · exact unfit good
    · exact unfit inside
    · exact absurd unfit (not_lt.2 low)
    · exact absurd unfit (not_lt.2 high)

/-! ### CAVERN_SHUT and SET_MERIT_ORDER (R28, R37) -/

theorem takeCavernShut_closes {s : State} {c : Nat} {d : CavernDef} (hc : c < 8) (hd : s.cavDef c = some d)
    (h : (s.cav c).state = .opening ∨ (s.cav c).state.isOpen = true) :
    takeCavernShut c s = cavernDone c (changeCavern c (·.beginClosing s d .shut) s.ev) := by
  rw [CavernState.isOpen_iff] at h
  rw [takeCavernShut, onCavern_present hc hd, judged_nil]
  rcases h with h | h | h | h | h <;> simp only [h]

theorem takeCavernShut_stays {s : State} {c : Nat} {d : CavernDef} (hc : c < 8) (hd : s.cavDef c = some d)
    (h : (s.cav c).state = .shut ∨ (s.cav c).state = .closing) : takeCavernShut c s = cavernDone c s.ev := by
  rw [takeCavernShut, onCavern_present hc hd, judged_nil]
  rcases h with h | h <;> simp only [h]

theorem takeCavernShut_wrongState {s : State} {c : Nat} {d : CavernDef} (hc : c < 8) (hd : s.cavDef c = some d)
    (h : (s.cav c).state = .outOfService ∨ (s.cav c).state = .tripped ∨ (s.cav c).state = .valveFault) :
    takeCavernShut c s = (s.ev, .refuse .wrongState) := by
  rw [takeCavernShut, onCavern_present hc hd, judged_nil]
  rcases h with h | h | h <;> simp only [h]

/-- No entry of a list without repetitions repeats an earlier one. -/
theorem getD_notMem_take {l : List Nat} (h : l.Nodup) {i : Nat} (hi : i < l.length) : l.getD i 0 ∉ l.take i := by
  rw [List.getD_eq_getElem _ _ hi]
  intro k
  obtain ⟨j, hj, eq⟩ := List.mem_take_iff_getElem.1 k
  have := (h.getElem_inj_iff).1 eq
  omega

section
variable {s : State} {dir : Nat} {l : List Nat}

theorem takeSetMeritOrder_invalid (hdir : dir < 2) (invalid : s.pst.caverns.live = none) :
    takeSetMeritOrder dir l s = (s.ev, .refuse .noSuch) := by
  rw [takeSetMeritOrder, decide_eq_true hdir, judged_cons_true, judged_nil, refuseIf_of_true (by simp [invalid])]

/-- Every entry a present cavern, and none twice: the list is taken whole (R37). -/
theorem takeSetMeritOrder_sets (hdir : dir < 2) (live : s.pst.caverns.live ≠ none) (once : l.Nodup)
    (present : ∀ i ∈ l, s.cavDef i ≠ none) :
    takeSetMeritOrder dir l s = ((s.setMerit dir l).ev.hand true, .ok (l.map b1)) := by
  have none : firstOffending (fun c => (s.cavDef c).isSome) l = none := firstOffending_eq_none fun i hi => by
    refine ⟨Option.isSome_iff_ne_none.2 (present _ ?_), getD_notMem_take once hi⟩
    rw [List.getD_eq_getElem _ _ hi]
    exact List.getElem_mem hi
  rw [takeSetMeritOrder, decide_eq_true hdir, judged_cons_true, judged_nil,
    refuseIf_of_false (by simp [Option.isSome_iff_ne_none, live]), none]
  rfl

theorem takeSetMeritOrder_offends (hdir : dir < 2) (live : s.pst.caverns.live ≠ none) {i : Nat}
    (offends : firstOffending (fun c => (s.cavDef c).isSome) l = some i) :
    takeSetMeritOrder dir l s = (s.ev, .badField (2 + i)) := by
  rw [takeSetMeritOrder, decide_eq_true hdir, judged_cons_true, judged_nil,
    refuseIf_of_false (by simp [Option.isSome_iff_ne_none, live]), offends]

end

/-- Settles O20: CAVERN_SHUT by the cavern's state, SET_MERIT_ORDER by the first entry that offends. -/
theorem cavernShutAndMeritOrder : Obligations.CavernShutAndMeritOrder := by
  intro s e t c dir d l reply
  refine ⟨fun h hc hd => ?shut, fun h hdir live once present => ?sets, fun h hdir => ?refused⟩
  case shut =>
    have there : (s.arrived (.cavernShut t c)).cavDef c = some d := by simpa using hd
    exact ⟨fun k => completes_of rfl h (takeCavernShut_closes hc there (by simpa using k)),
      fun k => completes_of rfl h (takeCavernShut_stays hc there (by simpa using k)),
      fun k => refuses_of rfl h (takeCavernShut_wrongState hc there (by simpa using k))⟩
  case sets =>
    refine completes_of rfl h ?_
    rw [takeSetMeritOrder_sets hdir (by simpa using live) once (by simpa using present)]
    unfold State.setMerit
    split <;> rfl
  case refused =>
    intro offends
    refine ⟨fun invalid => refuses_of rfl h (takeSetMeritOrder_invalid hdir (by simpa using invalid)),
      fun live i bad first => refuses_of rfl h (takeSetMeritOrder_offends hdir (by simpa using live) ?_)⟩
    obtain ⟨hi, bad⟩ := bad
    refine firstOffending_eq_some hi (bad.imp_left fun gone => by rw [arrived_cavDef, gone]; rfl) fun j hj => ?_
    obtain ⟨present, fresh⟩ := not_or.1 (not_and.1 (first j hj) (hj.trans hi))
    exact ⟨by simpa [Option.isSome_iff_ne_none] using present, fresh⟩

end Sys2Proof.Machine
end

section
/-! PROOFS. The merit walk, and the orders that a step of the planner hands the caverns (R34, R35, R116 to R119). -/

namespace Sys2Proof.Machine

/-! ### One cavern of the walk (R117, R118) -/

/-- What the walk gives a cavern that it assigns: what remains, up to the permit of the direction and, for a
low-pressure cavern on a withdrawal, up to the pool. -/
def State.walkGive (s : State) (inject : Bool) (w : Walk) (c : Nat) : Nat :=
  let cap := min w.remaining (if inject then (s.cav c).injPermit else (s.cav c).wdPermit)
  if !inject && s.lowPressure c then min cap (w.pool.getD cap) else cap

/-- The order that assigns a magnitude in a direction. -/
def flowOrder (inject : Bool) (n : Nat) : Order := .rate (if inject then n else -(n : Int))

theorem flowOrder_magnitude (inject : Bool) (n : Nat) : (flowOrder inject n).magnitude = n := by
  cases inject <;> simp [flowOrder, Order.magnitude]

section
variable {s : State} {inject : Bool} {w : Walk} {c : Nat}

theorem walkStep_assigns (h : (s.cav c).state = flowState inject ∨
      (s.cav c).state = .idle ∧ (s.cav c).last ≠ flowLast (!inject)) : s.walkStep inject w c =
    { remaining := w.remaining - s.walkGive inject w c
      pool := if !inject && s.lowPressure c then w.pool.map (· - s.walkGive inject w c) else w.pool
      orders := w.orders ++ [(c, flowOrder inject (s.walkGive inject w c))] } :=
  if_pos h

theorem walkStep_away (idle : (s.cav c).state = .idle) (against : (s.cav c).last = flowLast (!inject)) :
    s.walkStep inject w c = { w with orders := w.orders ++ [(c, if 0 < w.remaining then .dwell else .rate 0)] } := by
  have still : ¬((s.cav c).state = flowState inject ∨
      (s.cav c).state = .idle ∧ (s.cav c).last ≠ flowLast (!inject)) := by
    rintro (flows | ⟨_, free⟩)
    · cases inject <;> exact absurd (idle.symm.trans flows) nofun
    · exact free against
  exact (if_neg still).trans (if_pos idle)

theorem walkStep_passes (busy : (s.cav c).state ≠ .idle) (still : (s.cav c).state ≠ flowState inject) :
    s.walkStep inject w c = w :=
  (if_neg (by simp [busy, still])).trans (if_neg busy)

theorem walkGive_le_cap : s.walkGive inject w c ≤
    min w.remaining (if inject then (s.cav c).injPermit else (s.cav c).wdPermit) := by
  cases low : !inject && s.lowPressure c with
  | false => simp only [State.walkGive, low, Bool.false_eq_true, if_false, le_refl]
  | true => simp only [State.walkGive, low, if_true, min_le_left]

theorem walkGive_le_remaining : s.walkGive inject w c ≤ w.remaining := walkGive_le_cap.trans (min_le_left _ _)

theorem walkGive_le_permit :
    s.walkGive inject w c ≤ if inject then (s.cav c).injPermit else (s.cav c).wdPermit :=
  walkGive_le_cap.trans (min_le_right _ _)

theorem walkGive_le_pool {left : Nat} (low : s.lowPressure c = true) (pool : w.pool = some left) :
    s.walkGive false w c ≤ left := by
  simp [State.walkGive, low, pool]

theorem walkGive_unpooled (h : s.lowPressure c = false ∨ w.pool = none) :
    s.walkGive false w c = min w.remaining (s.cav c).wdPermit := by
  rcases h with h | h <;> simp [State.walkGive, h]

theorem walkGive_pooled {left : Nat} (low : s.lowPressure c = true) (pool : w.pool = some left) :
    s.walkGive false w c = min (min w.remaining (s.cav c).wdPermit) left := by
  simp [State.walkGive, low, pool]

end

/-! ### The walk's balance -/

theorem sumNat_concat (l : List Nat) (n : Nat) : sumNat (l ++ [n]) = sumNat l + n := by
  simp [sumNat]

/-- What the orders given assign in all. -/
def Walk.placed (w : Walk) : Nat := sumNat (w.orders.map fun o => o.2.magnitude)

/-- What the orders given assign to low-pressure caverns. -/
def State.drawn (s : State) (w : Walk) : Nat :=
  sumNat (w.orders.map fun o => if s.lowPressure o.1 then o.2.magnitude else 0)

/-- What a walk of an amount keeps to: nothing of the amount is lost, no order exceeds its cavern's permit, and on a
withdrawal what a pool has given and what it has left make the pool it began with. -/
structure State.WalkLaw (s : State) (inject : Bool) (amount : Nat) (pool : Option Nat) (w : Walk) : Prop where
  total : w.placed + w.remaining = amount
  permits : ∀ o ∈ w.orders, o.2.magnitude ≤ if inject then (s.cav o.1).injPermit else (s.cav o.1).wdPermit
  draws : inject = false → ∀ left, w.pool = some left → pool = some (s.drawn w + left)

section
variable {s : State} {inject : Bool} {amount : Nat} {pool : Option Nat} {w : Walk}

theorem State.WalkLaw.begin : s.WalkLaw inject amount pool { remaining := amount, pool := pool, orders := [] } where
  total := by simp [Walk.placed, sumNat]
  permits := nofun
  draws := fun _ left h => by simpa [State.drawn, sumNat] using h

/-- An order of at most what remains and of at most the permit keeps the law when the pool is drawn as it says. -/
theorem State.WalkLaw.give (law : s.WalkLaw inject amount pool w) {c : Nat} {o : Order} {left : Option Nat}
    (remains : o.magnitude ≤ w.remaining)
    (permit : o.magnitude ≤ if inject then (s.cav c).injPermit else (s.cav c).wdPermit)
    (drawn : inject = false → ∀ n, left = some n →
      w.pool = some ((if s.lowPressure c then o.magnitude else 0) + n)) :
    s.WalkLaw inject amount pool
      { remaining := w.remaining - o.magnitude, pool := left, orders := w.orders ++ [(c, o)] } where
  total := by
    have total := law.total
    simp only [Walk.placed, List.map_append, List.map_cons, List.map_nil, sumNat_concat] at total ⊢
    omega
  permits := fun x hx => by
    obtain hx | hx := List.mem_append.1 hx
    · exact law.permits x hx
    · rw [List.mem_singleton.1 hx]
      exact permit
  draws := fun out n hn => by
    rw [law.draws out _ (drawn out n hn)]
    simp only [State.drawn, List.map_append, List.map_cons, List.map_nil, sumNat_concat]
    rw [Nat.add_assoc]

theorem State.WalkLaw.step (law : s.WalkLaw inject amount pool w) (c : Nat) :
    s.WalkLaw inject amount pool (s.walkStep inject w c) := by
  by_cases assigns : (s.cav c).state = flowState inject ∨
      (s.cav c).state = .idle ∧ (s.cav c).last ≠ flowLast (!inject)
  case pos =>
    have magnitude := flowOrder_magnitude inject (s.walkGive inject w c)
    rw [walkStep_assigns assigns]
    have given := law.give (c := c) (o := flowOrder inject (s.walkGive inject w c))
      (left := if !inject && s.lowPressure c then w.pool.map (· - s.walkGive inject w c) else w.pool)
      (by rw [magnitude]; exact walkGive_le_remaining) (by rw [magnitude]; exact walkGive_le_permit) ?_
    · rwa [magnitude] at given
    · rintro rfl n drawn
      rw [magnitude]
      cases low : s.lowPressure c with
      | false => simpa [low] using drawn
      | true =>
        rw [low] at drawn
        obtain ⟨m, pooled, rest⟩ := Option.map_eq_some_iff.1 drawn
        have := walkGive_le_pool low pooled
        rw [pooled, if_pos rfl]
        congr 1
        omega
  case neg =>
    by_cases idle : (s.cav c).state = .idle
    · have against : (s.cav c).last = flowLast (!inject) := not_not.1 fun free => assigns (.inr ⟨idle, free⟩)
      have nothing : (if 0 < w.remaining then Order.dwell else .rate 0).magnitude = 0 := by
        split <;> rfl
      rw [walkStep_away idle against]
      have given := law.give (c := c) (o := if 0 < w.remaining then .dwell else .rate 0) (left := w.pool)
        (by rw [nothing]; exact Nat.zero_le _) (by rw [nothing]; exact Nat.zero_le _)
        fun _ n pooled => by rw [nothing, ite_self, Nat.zero_add, pooled]
      rwa [nothing] at given
    · rw [walkStep_passes idle fun flows => assigns (.inl flows)]
      exact law

end

theorem walk_law (s : State) (inject : Bool) (amount : Nat) (pool : Option Nat) :
    s.WalkLaw inject amount pool (s.walk inject amount pool) := by
  have folded (l : List Nat) (w : Walk) (law : s.WalkLaw inject amount pool w) :
      s.WalkLaw inject amount pool (l.foldl (s.walkStep inject) w) := by
    induction l generalizing w with
    | nil => exact law
    | cons c l ih => exact ih _ (law.step c)
  exact folded _ _ .begin

/-! ### Handing an order to a cavern (R34, R35) -/

/-- A cavern's record once it has taken an order. -/
def Cavern.given (s : State) (d : CavernDef) (o : Order) (r : Cavern) : Cavern :=
  match o with
  | .rate v => r.assign v
  | .dwell => r.order s d

/-- An assignment as a cavern takes it: cut to the permit of its sign, 0 on a LOST signal. -/
def Cavern.taken (r : Cavern) (v : Int) : Int :=
  if r.quality = .lost then 0
  else if 0 < v then min v r.injPermit else if v < 0 then max v (-(r.wdPermit : Int)) else 0

theorem Cavern.taken_eq (r : Cavern) (v : Int) :
    (if r.quality = .lost then 0 else cutSetpoint r.injPermit r.wdPermit v) = r.taken v := by
  unfold Cavern.taken cutSetpoint
  split
  · rfl
  · split
    · rfl
    · split <;> omega

theorem Cavern.assign_open {r : Cavern} (h : r.state.isOpen = true) (v : Int) : r.assign v =
    if r.state = .dwell then r
    else if 0 < r.taken v then { r with state := .injecting, setpoint := r.taken v, last := .inject, dwell := none }
    else if r.taken v < 0 then { r with state := .withdrawing, setpoint := r.taken v, last := .withdraw, dwell := none }
    else { r with state := .idle, setpoint := 0 } := by
  by_cases dwells : r.state = .dwell
  · rw [if_pos dwells, Cavern.assign, if_neg (by simp [dwells, CavernState.flows])]
  · have flows : r.state.flows = true := by
      have := CavernState.isOpen_iff.1 h
      exact CavernState.flows_iff.2 (by tauto)
    rw [if_neg dwells, Cavern.assign, if_pos flows, Cavern.taken_eq]

theorem Cavern.order_eq (s : State) (d : CavernDef) (r : Cavern) : r.order s d =
    if r.state = .injecting ∨ r.state = .withdrawing ∨ (r.state = .idle ∧ r.last ≠ .none) then
      { r with state := .dwell, setpoint := 0, dwell := r.dwell.or (some (s.after d.dwell)) }
    else r := by
  unfold Cavern.order
  cases r.dwell <;> rfl

theorem giveOrder_open {o : Order} {c : Nat} {ev : Ev} {d : CavernDef} (hd : ev.s.cavDef c = some d)
    (hc : c < ev.s.cvc.caverns.length) (h : (ev.s.cav c).state.isOpen = true) :
    (giveOrder o c ev).s.cav c = Cavern.followed ev.s d ((ev.s.cav c).given ev.s d o) := by
  rw [giveOrder, hd]
  refine Eq.trans ?_ (changeCavern_cav (f := Cavern.given ev.s d o) hd hc)
  cases o <;> exact congrArg (fun e : Ev => e.s.cav c) (if_pos h)

theorem giveOrder_closed {o : Order} {c : Nat} {ev : Ev} (h : (ev.s.cav c).state.isOpen = false) :
    giveOrder o c ev = ev := by
  unfold giveOrder
  split
  · exact if_neg (Bool.eq_false_iff.1 h)
  · rfl

theorem giveOrder_told {i c : Nat} (h : i ≠ c) (o : Order) (ev : Ev) : CavernsTold c ev (giveOrder o i ev) := by
  unfold giveOrder
  split
  · split
    · split
      · exact changeCavern_told h _ ev
      · exact changeCavern_told h _ ev
    · exact .refl c ev
  · exact .refl c ev

theorem giveOrder_only (o : Order) (c : Nat) (ev : Ev) : CavernsOnly ev (giveOrder o c ev) := by
  unfold giveOrder
  split
  · split
    · split
      · exact changeCavern_only c _ ev
      · exact changeCavern_only c _ ev
    · exact .refl ev
  · exact .refl ev

/-! ### Handing every cavern its order (R119) -/

theorem distribute_only (sp : Int) (w : Walk) (ev : Ev) : CavernsOnly ev (distribute sp w ev) :=
  foldl_rel CavernsOnly.refl CavernsOnly.trans (fun u c => giveOrder_only _ c u) _ ev

/-- A cavern's record once every cavern has been handed its order: its own order, given to the record as it was
found. -/
theorem distribute_cav {sp : Int} {w : Walk} {ev : Ev} {c : Nat} {d : CavernDef} (h8 : c < 8)
    (hc : c < ev.s.cvc.caverns.length) (hd : ev.s.cavDef c = some d) : (distribute sp w ev).s.cav c =
      if (ev.s.cav c).state.isOpen then Cavern.followed ev.s d ((ev.s.cav c).given ev.s d (ev.s.orderFor sp w c))
      else ev.s.cav c := by
  obtain ⟨e, before, after⟩ := (foldl_reaches (f := fun e c => giveOrder (ev.s.orderFor sp w c) c e) (R := CavernsTold)
    CavernsTold.refl CavernsTold.trans (fun i j u h => giveOrder_told h _ u) c (List.range 8) List.nodup_range ev).2
    (List.mem_range.2 h8)
  have own : (distribute sp w ev).s.cav c = (giveOrder (ev.s.orderFor sp w c) c e).s.cav c := after.cav
  have hd' : e.s.cavDef c = some d := by rw [before.state]; exact hd
  have clock (r : Cavern) : Cavern.followed e.s d (r.given e.s d (ev.s.orderFor sp w c)) =
      Cavern.followed ev.s d (r.given ev.s d (ev.s.orderFor sp w c)) := by
    rw [before.state]
    rfl
  rw [own]
  cases h : (ev.s.cav c).state.isOpen with
  | true =>
    rw [giveOrder_open hd' (by rw [before.size]; exact hc) (by rw [before.cav, h]), before.cav, clock, if_pos rfl]
  | false => rw [giveOrder_closed (by rw [before.cav, h]), before.cav, if_neg Bool.false_ne_true]

/-! ### The demands of a step leave the caverns alone (R49, R53) -/

/-- Nothing but units, duties, watches, notices and the link's record has changed. -/
structure UnitsOnly (u v : Ev) : Prop where
  state : v.s = { u.s with cdm := v.s.cdm, wnu := v.s.wnu, slu := v.s.slu } := by rfl

theorem UnitsOnly.trans {u v w : Ev} (h : UnitsOnly u v) (k : UnitsOnly v w) : UnitsOnly u w where
  state := by rw [k.state, h.state]

theorem mapDuty_only (d : Duty) (f : DutyRec → DutyRec) (ev : Ev) : UnitsOnly ev (ev.map fun s => s.updDuty d f) := by
  cases d <;> exact {}

theorem startDecision_only (d : Duty) (ev : Ev) : UnitsOnly ev (startDecision d ev) := by
  unfold startDecision
  split
  · dsimp only
    split <;> cases d <;> exact {}
  · exact (mapDuty_only d _ ev).trans { state := by rw [(raise_told _ _ _ _).state] }

theorem reviewStart_only (d : Duty) (ev : Ev) : UnitsOnly ev (reviewStart d ev) := by
  unfold reviewStart
  dsimp only
  split
  · exact mapDuty_only d _ ev
  · split
    · exact (mapDuty_only d _ ev).trans (startDecision_only d _)
    · exact mapDuty_only d _ ev

theorem reviewStop_only (d : Duty) (ev : Ev) : UnitsOnly ev (reviewStop d ev) := by
  unfold reviewStop
  dsimp only
  split
  · exact mapDuty_only d _ ev
  · split
    · split
      · cases d <;> exact {}
      · exact mapDuty_only d _ ev
    · exact mapDuty_only d _ ev

theorem review_only (d : Duty) (ev : Ev) : UnitsOnly ev (review d ev) :=
  (reviewStart_only d ev).trans (reviewStop_only d _)

theorem handDemands_only (inj boost : Nat) (ev : Ev) : UnitsOnly ev (handDemands inj boost ev) :=
  UnitsOnly.trans (UnitsOnly.trans {} (review_only .inject _)) (review_only .boost _)

/-! ### A step (R115 to R119) -/

/-- What a step leaves: its setpoint distributed by its walk, in an event in which nothing but units, watches, notices
and the link has changed, with the planner's record written last. -/
structure StepTaken (ev u : Ev) (x : State) : Prop where
  only : UnitsOnly ev u
  state : x = { (distribute x.fpl.setpoint (u.s.stepWalk x.fpl.setpoint) u).s with fpl := x.fpl }
  placed : x.fpl.placed = (u.s.stepWalk x.fpl.setpoint).placed
  poolLeft : x.fpl.poolLeft = (u.s.stepWalk x.fpl.setpoint).pool.getD (u.s.runningCapacity .boost)

theorem activeStep_taken (cause : StepCause) (ev : Ev) : ∃ u, StepTaken ev u (activeStep cause ev).s :=
  ⟨_, handDemands_only _ _ ev, rfl, rfl, rfl⟩

theorem heldStep_taken (cause : StepCause) (ev : Ev) : ∃ u, StepTaken ev u (heldStep cause ev).s :=
  ⟨_, handDemands_only 0 0 ev, rfl, rfl, rfl⟩

/-- The walk of a setpoint: none for 0, down the INJECT list for a positive one, and for a negative one down the
WITHDRAW list with a pool. -/
def State.walkOf (s : State) (pool : Nat) (sp : Int) : Walk :=
  if sp = 0 then { remaining := 0, pool := none, orders := [] }
  else if 0 < sp then s.walk true sp.toNat none else s.walk false (-sp).toNat (some pool)

theorem stepWalk_eq (s : State) (sp : Int) : s.stepWalk sp = s.walkOf (s.runningCapacity .boost) sp := by
  rcases lt_trichotomy sp 0 with neg | zero | pos
  · rw [State.stepWalk, State.walkOf, if_neg neg.ne, if_neg neg.ne, if_neg neg.not_gt, if_pos neg,
      decide_eq_false neg.not_gt, show sp.natAbs = (-sp).toNat by omega]
  · rw [State.stepWalk, State.walkOf, if_pos zero, if_pos zero]
  · rw [State.stepWalk, State.walkOf, if_neg pos.ne', if_neg pos.ne', if_pos pos, if_neg pos.not_gt,
      decide_eq_true pos, show sp.natAbs = sp.toNat by omega]

section
variable {ev u : Ev} {x : State}

theorem StepTaken.runningCapacity (h : StepTaken ev u x) : x.runningCapacity = u.s.runningCapacity := by
  rw [h.state, (distribute_only _ _ u).state]
  rfl

/-- A step walks the caverns as it found them, with the pool that its demands have left it. -/
theorem StepTaken.walk (h : StepTaken ev u x) :
    u.s.stepWalk x.fpl.setpoint = ev.s.walkOf (x.runningCapacity .boost) x.fpl.setpoint := by
  rw [stepWalk_eq, h.runningCapacity]
  exact (congrArg (fun s : State => s.walkOf (u.s.runningCapacity .boost) x.fpl.setpoint) h.only.state).trans rfl

/-- A cavern's record after a step: its order, given to the record that the step found. -/
theorem StepTaken.cav (h : StepTaken ev u x) {c : Nat} {d : CavernDef} (h8 : c < 8)
    (hc : c < ev.s.cvc.caverns.length) (hd : ev.s.cavDef c = some d) : x.cav c =
      if (ev.s.cav c).state.isOpen then Cavern.followed ev.s d ((ev.s.cav c).given ev.s d
        (ev.s.orderFor x.fpl.setpoint (ev.s.walkOf (x.runningCapacity .boost) x.fpl.setpoint) c))
      else ev.s.cav c := by
  have distributed : x.cav c = (distribute x.fpl.setpoint (u.s.stepWalk x.fpl.setpoint) u).s.cav c :=
    (congrArg (fun s : State => s.cav c) h.state).trans rfl
  rw [distributed, distribute_cav h8 (by rw [h.only.state]; exact hc) (by rw [h.only.state]; exact hd), h.walk,
    h.only.state]
  rfl

end

/-- Settles O42: the walk's law by induction down the list, its treatment of one cavern by cases, and the orders of a
step through the walk that the step makes. -/
theorem walkPlacesWithinPermitsAndPool : Obligations.WalkPlacesWithinPermitsAndPool := by
  refine ⟨fun s inject amount pool => ?law, fun _ _ _ _ => rfl, fun s w c => ?treatment, fun ev cause => ?step⟩
  case law =>
    have free := walk_law s inject amount none
    have pooled := walk_law s false amount (some pool)
    exact ⟨free.total, free.permits, pooled.total, pooled.permits,
      fun left h => (Option.some.inj (pooled.draws rfl left h)).symm⟩
  case treatment =>
    refine ⟨walkStep_assigns (inject := true), walkStep_away (inject := true), walkStep_passes (inject := true),
      fun flows => ⟨fun unpooled => ?_, fun left low pooled => ?_⟩, walkStep_away (inject := false),
      walkStep_passes (inject := false)⟩
    · rw [walkStep_assigns (inject := false) flows, walkGive_unpooled unpooled]
      rcases unpooled with h | h <;> simp [flowOrder, h]
    · rw [walkStep_assigns (inject := false) flows, walkGive_pooled low pooled]
      simp [flowOrder, low, pooled]
  case step =>
    obtain ⟨u, active⟩ := activeStep_taken cause ev
    obtain ⟨v, held⟩ := heldStep_taken cause ev
    refine ⟨active.placed.trans (congrArg Walk.placed active.walk), ?_, fun c d h8 hc hd => ?cavern⟩
    · rw [active.poolLeft, active.walk, active.runningCapacity]
      rfl
    case cavern =>
      intro r assigned dwelling order
      have given (opened : r.state.isOpen = true) :
          (activeStep cause ev).s.cav c = Cavern.followed ev.s d (r.given ev.s d order) :=
        (active.cav h8 hc hd).trans (if_pos opened)
      -- The setpoint of a held step is 0, for which no walk is made: every order is an assignment of 0.
      have rested (opened : r.state.isOpen = true) :
          (heldStep cause ev).s.cav c = Cavern.followed ev.s d (r.given ev.s d (.rate 0)) :=
        (held.cav h8 hc hd).trans (if_pos opened)
      refine ⟨fun closed => ⟨?_, ?_⟩, fun opened dwells => ?_, fun v opened rate => ?_, fun opened => ?_⟩
      · exact (active.cav h8 hc hd).trans (if_neg (Bool.eq_false_iff.1 closed))
      · exact (held.cav h8 hc hd).trans (if_neg (Bool.eq_false_iff.1 closed))
      · rw [given opened, dwells]
        exact congrArg _ (Cavern.order_eq ev.s d r)
      · rw [given opened, rate]
        exact congrArg _ (Cavern.assign_open opened v)
      · rw [rested opened]
        exact congrArg _ (Cavern.assign_open opened 0)

end Sys2Proof.Machine
end

section
/-! PROOFS. A unit's record: UNIT_MAINTENANCE and RESET_LOCKOUT, changes of running feedback, and its own deadlines
(R41, R42, R44, R48, R51, R52, R54 to R56). -/

namespace Sys2Proof.Machine

/-! ### Unit records -/

theorem State.unit_updUnit_self {s : State} {u : Nat} (h : u < s.cdm.units.length) (f : CompUnit → CompUnit) :
    (s.updUnit u f).unit u = f (s.unit u) :=
  (s.unit_updUnit u u f).trans (if_pos ⟨rfl, h⟩)

theorem State.unit_updUnit_other (s : State) {u v : Nat} (h : v ≠ u) (f : CompUnit → CompUnit) :
    (s.updUnit u f).unit v = s.unit v :=
  (s.unit_updUnit u v f).trans (if_neg fun k => h k.1.symm)

/-! ### Requests on a present unit (3.3) -/

theorem onUnit_present {s : State} {u : Nat} {d : UnitDef} {l : List (Nat × Bool)} {go : Ev × Answer} (hu : u < 6)
    (hd : s.unitDef u = some d) : onUnit s u l go = judged s l go := by
  rw [onUnit, hd, decide_eq_true hu, judged_cons_true]
  rfl

section
variable {s : State} {u : Nat} {d : UnitDef}

theorem takeUnitMaintenance_goes (hu : u < 6) (hd : s.unitDef u = some d)
    (h : (s.unit u).state = .off ∨ (s.unit u).state = .resting ∨ (s.unit u).state = .failed ∨
      (s.unit u).state = .lockedOut) : takeUnitMaintenance u s =
    unitDone u (s.updUnit u fun r => { r with state := .maintenance, command := .stop }) := by
  rw [takeUnitMaintenance, onUnit_present hu hd, judged_nil]
  rcases h with h | h | h | h <;> simp only [h]

theorem takeUnitMaintenance_stays (hu : u < 6) (hd : s.unitDef u = some d) (h : (s.unit u).state = .maintenance) :
    takeUnitMaintenance u s = unitDone u s := by
  rw [takeUnitMaintenance, onUnit_present hu hd, judged_nil]
  simp only [h]

theorem takeUnitMaintenance_wrongState (hu : u < 6) (hd : s.unitDef u = some d)
    (h : (s.unit u).state = .starting ∨ (s.unit u).state = .running ∨ (s.unit u).state = .stopping) :
    takeUnitMaintenance u s = (s.ev, .refuse .wrongState) := by
  rw [takeUnitMaintenance, onUnit_present hu hd, judged_nil]
  rcases h with h | h | h <;> simp only [h]

theorem takeResetLockout_resets (hu : u < 6) (hd : s.unitDef u = some d) (h : (s.unit u).state = .lockedOut)
    (still : (s.unit u).feedback = false) : takeResetLockout u s =
    unitDone u (s.updUnit u fun r => { r with failures := 0, rest := none, state := .off, command := .stop }) := by
  rw [takeResetLockout, onUnit_present hu hd, judged_nil, refuseIf_of_false (by simp [h]), refuseIf_of_false still]

theorem takeResetLockout_notReady (hu : u < 6) (hd : s.unitDef u = some d) (h : (s.unit u).state = .lockedOut)
    (runs : (s.unit u).feedback = true) : takeResetLockout u s = (s.ev, .refuse .notReady) := by
  rw [takeResetLockout, onUnit_present hu hd, judged_nil, refuseIf_of_false (by simp [h]), refuseIf_of_true runs]

theorem takeResetLockout_wrongState (hu : u < 6) (hd : s.unitDef u = some d) (h : (s.unit u).state ≠ .lockedOut) :
    takeResetLockout u s = (s.ev, .refuse .wrongState) := by
  rw [takeResetLockout, onUnit_present hu hd, judged_nil, refuseIf_of_true (by simp [h])]

end

/-- Settles O24: each request by the unit's state, RESET_LOCKOUT by its running feedback too. -/
theorem maintenanceAndLockoutReset : Obligations.MaintenanceAndLockoutReset := by
  intro s e t u d hu hd reply
  have there (c : Instr) : (s.arrived c).unitDef u = some d := by simpa using hd
  refine ⟨fun h => ⟨fun k => ?_, fun k => ?_, fun k => ?_⟩,
    fun h => ⟨fun k runs => ?_, fun k still => ?_, fun k => ?_⟩⟩
  · exact completes_of rfl h (takeUnitMaintenance_goes hu (there _) (by simpa using k))
  · exact completes_of rfl h (takeUnitMaintenance_stays hu (there _) (by simpa using k))
  · exact refuses_of rfl h (takeUnitMaintenance_wrongState hu (there _) (by simpa using k))
  · exact refuses_of rfl h (takeResetLockout_notReady hu (there _) (by simpa using k) (by simpa using runs))
  · exact completes_of rfl h (takeResetLockout_resets hu (there _) (by simpa using k) (by simpa using still))
  · exact refuses_of rfl h (takeResetLockout_wrongState hu (there _) (by simpa using k))

/-! ### Running feedback (R41, R51, R54, R55) -/

/-- The record of a change of running feedback. -/
def State.withFeedback (s : State) (u : Nat) (p : Bool) : State := s.updUnit u fun r => { r with feedback := p }

section
variable {s : State} {u : Nat} {p : Bool}

theorem exec_feedback_same (h : (s.unit u).feedback = p) : exec (.unitRunningInputChange u p) s = .next s :=
  congrArg Host.Outcome.next (if_pos (by simp [h]))

theorem exec_feedback_not_running (h : (s.unit u).feedback ≠ p) (off : s.phase ≠ .running) :
    exec (.unitRunningInputChange u p) s = .next (s.withFeedback u p) :=
  congrArg Host.Outcome.next (inputChange_not_running (by simp [h]) off)

theorem exec_feedback_running (h : (s.unit u).feedback ≠ p) (run : s.phase = .running) :
    exec (.unitRunningInputChange u p) s = .next (feedbackChanged u (s.withFeedback u p).ev).finish :=
  congrArg Host.Outcome.next (inputChange_running (by simp [h]) run)

end

section
variable {u : Nat} {ev : Ev}

theorem feedbackChanged_starting (h : (ev.s.unit u).state = .starting) (k : (ev.s.unit u).feedback = true) :
    feedbackChanged u ev = unitStarted u ev := by
  simp only [feedbackChanged, h, k]

theorem feedbackChanged_stopping (h : (ev.s.unit u).state = .stopping) (k : (ev.s.unit u).feedback = false) :
    feedbackChanged u ev = ev.map (·.completeStop u) := by
  simp only [feedbackChanged, h, k]

theorem feedbackChanged_lost (h : (ev.s.unit u).state = .running) (k : (ev.s.unit u).feedback = false) :
    feedbackChanged u ev = runLost u ev := by
  simp only [feedbackChanged, h, k]

theorem feedbackChanged_uncommanded (h : (ev.s.unit u).state = .off ∨ (ev.s.unit u).state = .resting ∨
      (ev.s.unit u).state = .failed) (k : (ev.s.unit u).feedback = true) :
    feedbackChanged u ev = uncommanded u ev := by
  rcases h with h | h | h <;> simp only [feedbackChanged, h, k]

theorem feedbackChanged_present (h : (ev.s.unit u).state = .running ∨ (ev.s.unit u).state = .stopping ∨
      (ev.s.unit u).state = .lockedOut ∨ (ev.s.unit u).state = .maintenance)
    (k : (ev.s.unit u).feedback = true) : feedbackChanged u ev = ev := by
  rcases h with h | h | h | h <;> simp only [feedbackChanged, h, k]

theorem feedbackChanged_absent (stopping : (ev.s.unit u).state ≠ .stopping)
    (running : (ev.s.unit u).state ≠ .running) (k : (ev.s.unit u).feedback = false) : feedbackChanged u ev = ev := by
  cases h : (ev.s.unit u).state
  case stopping => exact absurd h stopping
  case running => exact absurd h running
  all_goals simp only [feedbackChanged, h, k]

end

theorem restUntil_of_def {s : State} {u : Nat} {d : UnitDef} (hd : s.unitDef u = some d) :
    s.restUntil u = some (s.after d.minRest) := by
  rw [State.restUntil, hd]
  rfl

/-- The minimum run deadline is set from the unit's definition (R51). -/
theorem unitStarted_eq {u : Nat} {ev : Ev} {d : UnitDef} (hd : ev.s.unitDef u = some d) : unitStarted u ev =
    (ev.map fun s => s.updUnit u fun r =>
      { r with
        state := .running, start := none, failures := 0, startCount := min (r.startCount + 1) 4294967295
        minRun := some (ev.s.after d.minRun), minRunTaken := false }).hand true := by
  simp only [unitStarted, Ev.map, hd]
  rfl

/-- Settles O26: a changed feedback is recorded, and the record's new level and the state decide what follows. -/
theorem runningFeedbackActsByState : Obligations.RunningFeedbackActsByState := by
  intro s u p hu x locked away out
  have recorded : x.unit u = { s.unit u with feedback := p } := State.unit_updUnit_self hu _
  have state : (x.ev.s.unit u).state = (s.unit u).state := by rw [State.ev_s, recorded]
  have level : (x.ev.s.unit u).feedback = p := by rw [State.ev_s, recorded]
  have follows {ev : Ev} (changed : (s.unit u).feedback ≠ p) (run : s.phase = .running)
      (h : feedbackChanged u x.ev = ev) : exec (.unitRunningInputChange u p) s = .next ev.finish :=
    h ▸ exec_feedback_running changed run
  refine ⟨⟨recorded, fun v hv => s.unit_updUnit_other hv _⟩, exec_feedback_same, fun changed =>
    ⟨exec_feedback_not_running changed, fun run present => ?present, fun run absent => ?absent⟩⟩
  case present =>
    have on := level.trans present
    refine ⟨fun d starting hd => follows changed run ?_, fun idle => follows changed run ?_, fun other => ?_⟩
    · exact (feedbackChanged_starting (state.trans starting) on).trans (unitStarted_eq hd)
    · exact feedbackChanged_uncommanded (state ▸ idle) on
    · exact follows changed run (feedbackChanged_present (state ▸ other) on)
  case absent =>
    have off := level.trans absent
    refine ⟨fun d stopping hd => ?_, fun running => follows changed run ?_, fun notStopping notRunning => ?_⟩
    · rw [← restUntil_of_def hd]
      exact follows changed run (feedbackChanged_stopping (state.trans stopping) off)
    · exact feedbackChanged_lost (state.trans running) off
    · exact follows changed run (feedbackChanged_absent (state ▸ notStopping) (state ▸ notRunning) off)

/-! ### A unit's deadlines (R48, R52, R54) -/

section
variable {u : Nat} {ev : Ev}

/-- A first start that fails leaves the unit FAILED and resting (R52). -/
theorem startFailed_first (h : (ev.s.unit u).failures = 0) : startFailed u ev =
    raise .startFailed (some u) (ev.map fun s => (s.updUnit u fun r =>
      { r with
        command := .stop, start := none, failures := 1, state := .failed
        rest := s.restUntil u }).leaveOrder u) (.failures 1) := by
  simp only [startFailed, h]
  rfl

/-- A second start in a row that fails locks the unit out (R52). -/
theorem startFailed_second (h : (ev.s.unit u).failures = 1) : startFailed u ev =
    raise .unitLockedOut (some u) (raise .startFailed (some u) (ev.map fun s => (s.updUnit u fun r =>
      { r with command := .stop, start := none, failures := 2, state := .lockedOut, rest := none }).leaveOrder u)
        (.failures 2)) (.cause .start) := by
  simp only [startFailed, h]
  rfl

theorem stopExpired_running (h : (ev.s.unit u).feedback = true) : stopExpired u ev =
    (ev.map fun s => s.updUnit u fun r => { r with stop := none }).launch { code := 0x060, unit := some u } :=
  if_pos h

theorem stopExpired_stopped (h : (ev.s.unit u).feedback = false) :
    stopExpired u ev = ev.map (·.completeStop u) :=
  if_neg (by simp [h])

end

section
variable {s : State} {u : Nat}

theorem exec_startDeadlineExpiry (run : s.phase = .running) (h : (s.unit u).state = .starting)
    (passed : due s.clock (s.unit u).start = true) :
    exec (.startDeadlineExpiry u) s = .next (startFailed u s.ev).finish :=
  congrArg Host.Outcome.next (occurs_eq run (by simp [h, passed]))

theorem exec_stopDeadlineExpiry (run : s.phase = .running) (h : (s.unit u).state = .stopping)
    (passed : due s.clock (s.unit u).stop = true) :
    exec (.stopDeadlineExpiry u) s = .next (stopExpired u s.ev).finish :=
  congrArg Host.Outcome.next (occurs_eq run (by simp [h, passed]))

theorem exec_restDeadlineExpiry (run : s.phase = .running)
    (h : (s.unit u).state = .resting ∨ (s.unit u).state = .failed) (passed : due s.clock (s.unit u).rest = true) :
    exec (.restDeadlineExpiry u) s = .next (s.updUnit u fun r => { r with state := .off, rest := none }) :=
  congrArg Host.Outcome.next (occurs_eq run (by simpa [passed] using h))

theorem exec_startHistoryAgeOut {h : Clk} {l : List Clk} (run : s.phase = .running)
    (head : (s.unit u).history = h :: l) (aged : passed s.clock (h + 3600#32) = true) :
    exec (.startHistoryAgeOut u) s = .next (s.updUnit u fun r => { r with history := r.history.drop 1 }) :=
  congrArg Host.Outcome.next (occurs_eq run (by simp [head, aged]))

end

/-- Settles O27: each expiry by its deadline, a failed start by how many have failed before it. -/
theorem unitDeadlinesExpire : Obligations.UnitDeadlinesExpire := by
  intro s u h l run
  refine ⟨fun starting passed => ⟨fun first => ?_, fun second => ?_⟩,
    fun stopping passed => ⟨fun stopped => ?_, fun running => ?_⟩, exec_restDeadlineExpiry run,
    fun head inside aged => ⟨_, exec_startHistoryAgeOut run head aged, ?_, fun v hv => s.unit_updUnit_other hv _⟩⟩
  · refine (exec_startDeadlineExpiry run starting passed).trans ?_
    rw [startFailed_first first]
    rfl
  · refine (exec_startDeadlineExpiry run starting passed).trans ?_
    rw [startFailed_second second]
    rfl
  · refine (exec_stopDeadlineExpiry run stopping passed).trans ?_
    rw [stopExpired_stopped stopped]
    rfl
  · refine (exec_stopDeadlineExpiry run stopping passed).trans ?_
    rw [stopExpired_running running]
    rfl
  · rw [State.unit_updUnit_self inside, head]
    rfl

end Sys2Proof.Machine
end

section
/-! PROOFS. Reviews of a duty: its pending deadlines, the start and the stop of a unit, and the expiries that bring a
review (R49, R50, R51, R53). -/

namespace Sys2Proof.Machine

/-! ### The pending deadlines of a duty (3.6) -/

/-- A duty's start-pending deadline set or removed. -/
def State.withStartPending (s : State) (d : Duty) (t : Option PendingTimer) : State :=
  s.updDuty d fun q => { q with startPending := t }

/-- A duty's stop-pending deadline set or removed. -/
def State.withStopPending (s : State) (d : Duty) (t : Option PendingTimer) : State :=
  s.updDuty d fun q => { q with stopPending := t }

section
variable (s : State) (d : Duty) (t t' : Option PendingTimer)

@[simp] theorem withStartPending_duty : (s.withStartPending d t).duty d = { s.duty d with startPending := t } :=
  State.duty_updDuty_self s d _

@[simp] theorem withStartPending_unit : (s.withStartPending d t).unit = s.unit := State.unit_updDuty s d _

@[simp] theorem withStartPending_tru : (s.withStartPending d t).tru = s.tru := State.updDuty_tru s d _

@[simp] theorem withStartPending_clock : (s.withStartPending d t).clock = s.clock :=
  congrArg Mu.clock (State.updDuty_mu s d _)

@[simp] theorem withStartPending_short : (s.withStartPending d t).short d = s.short d := by cases d <;> rfl

@[simp] theorem withStartPending_freshStart : (s.withStartPending d t).freshStart d = s.freshStart d := by
  cases d <;> rfl

@[simp] theorem withStartPending_twice :
    (s.withStartPending d t).withStartPending d t' = s.withStartPending d t' := by cases d <;> rfl

theorem withStartPending_self : s.withStartPending d (s.duty d).startPending = s := by cases d <;> rfl

@[simp] theorem withStopPending_duty : (s.withStopPending d t).duty d = { s.duty d with stopPending := t } :=
  State.duty_updDuty_self s d _

@[simp] theorem withStopPending_unit : (s.withStopPending d t).unit = s.unit := State.unit_updDuty s d _

@[simp] theorem withStopPending_clock : (s.withStopPending d t).clock = s.clock :=
  congrArg Mu.clock (State.updDuty_mu s d _)

@[simp] theorem withStopPending_stopWarranted : (s.withStopPending d t).stopWarranted d = s.stopWarranted d := by
  cases d <;> rfl

@[simp] theorem withStopPending_freshStop : (s.withStopPending d t).freshStop = s.freshStop := by cases d <;> rfl

@[simp] theorem withStopPending_twice :
    (s.withStopPending d t).withStopPending d t' = s.withStopPending d t' := by cases d <;> rfl

theorem withStopPending_self : s.withStopPending d (s.duty d).stopPending = s := by cases d <;> rfl

end

theorem expired_iff {clock : Clk} {p : PendingTimer} :
    p.expired clock = true ↔ p.taken = true ∨ passed clock p.deadline = true := by
  simp [PendingTimer.expired]

theorem not_expired {clock : Clk} {p : PendingTimer} (h : p.taken = false) (k : passed clock p.deadline = false) :
    ¬p.expired clock = true := by
  simp [PendingTimer.expired, h, k]

theorem hasRun_iff {clock : Clk} {r : CompUnit} :
    r.hasRun clock = true ↔ r.minRunTaken = true ∨ r.minRun = none ∨ due clock r.minRun = true := by
  simp [CompUnit.hasRun, or_assoc]

theorem freshStart_eligible {s : State} {d : Duty} {u : Nat} {k : UnitDef} (h : s.eligible d = some u)
    (hk : s.unitDef u = some k) : s.freshStart d = { deadline := s.after k.startDelay, candidate := some u } := by
  simp only [State.freshStart, h, hk]
  rfl

theorem freshStart_none {s : State} {d : Duty} (h : s.eligible d = none) :
    s.freshStart d = { deadline := s.clock, candidate := none } := by
  simp only [State.freshStart, h]

theorem freshStop_of_def {s : State} {u : Nat} {k : UnitDef} (hk : s.unitDef u = some k) :
    s.freshStop u = { deadline := s.after k.stopDelay, candidate := some u } := by
  rw [State.freshStop, hk]
  rfl

theorem rated_of_def {s : State} {u : Nat} {k : UnitDef} (hk : s.unitDef u = some k) : s.rated u = k.rated := by
  rw [State.rated, hk]
  rfl

/-! ### The start decision (R50, R51) -/

/-- A review starts a unit: its start-pending deadline goes, and a shortage that is left is timed afresh, in the same
review (R50, R51; log entry 34). -/
def State.startUnit (s : State) (d : Duty) (u : Nat) : State :=
  (s.attemptStart d u).withStartPending d
    (if (s.attemptStart d u).short d then some ((s.attemptStart d u).freshStart d) else none)

theorem startUnit_unit {s : State} {d : Duty} {u : Nat} {k : UnitDef} (hu : u < s.cdm.units.length)
    (hk : s.unitDef u = some k) : (s.startUnit d u).unit u =
      { s.unit u with
        command := .run, state := .starting, history := (s.unit u).history ++ [s.clock]
        start := some (s.after k.startTimeout) } := by
  rw [State.startUnit, withStartPending_unit, State.attemptStart, hk, State.unit_updDuty, State.unit_updUnit_self hu]
  rfl

theorem startUnit_running (s : State) (d : Duty) (u : Nat) :
    ((s.startUnit d u).duty d).running = (s.duty d).running ++ [u] := by
  rw [State.startUnit, withStartPending_duty, State.attemptStart, State.duty_updDuty_self, State.duty_updUnit]

theorem startUnit_clock (s : State) (d : Duty) (u : Nat) : (s.startUnit d u).clock = s.clock := by
  rw [State.startUnit, withStartPending_clock]
  cases d <;> rfl

theorem startUnit_after (s : State) (d : Duty) (u n : Nat) : (s.startUnit d u).after n = s.after n := by
  rw [State.after, State.after, startUnit_clock]

theorem startUnit_startPending (s : State) (d : Duty) (u : Nat) : ((s.startUnit d u).duty d).startPending =
    if (s.startUnit d u).short d then some ((s.startUnit d u).freshStart d) else none := by
  rw [State.startUnit, withStartPending_duty, withStartPending_short, withStartPending_freshStart]

theorem startDecision_starts {d : Duty} {ev : Ev} {u : Nat} (h : ev.s.eligible d = some u) :
    startDecision d ev = ev.map fun s => s.startUnit d u := by
  have decision : startDecision d ev =
      if ((ev.s.attemptStart d u).withStartPending d none).short d then
        ev.map fun s => ((s.attemptStart d u).withStartPending d none).withStartPending d
          (some (((ev.s.attemptStart d u).withStartPending d none).freshStart d))
      else ev.map fun s => (s.attemptStart d u).withStartPending d none := by
    unfold startDecision
    rw [h]
    rfl
  rw [decision, withStartPending_short, withStartPending_freshStart]
  simp only [Ev.map, State.startUnit, withStartPending_twice]
  split <;> rfl

/-- With no unit eligible START_DEFERRED is raised, and the deadline stays, its expiry taken (R50). -/
theorem startDecision_defers {d : Duty} {ev : Ev} {p : PendingTimer} (h : ev.s.eligible d = none)
    (pending : (ev.s.duty d).startPending = some p) : startDecision d ev =
    raise .startDeferred (some (dutyCode d))
      (ev.map fun s => s.withStartPending d (some { p with taken := true })) := by
  have taken : (ev.s.updDuty d fun q =>
        { q with startPending := q.startPending.map fun t => { t with taken := true } }) =
      ev.s.withStartPending d ((ev.s.duty d).startPending.map fun t => { t with taken := true }) := by
    cases d <;> rfl
  unfold startDecision
  rw [h]
  simp only [Ev.map, taken, pending, Option.map_some]

/-! ### The start part of a review (R49) -/

section
variable {d : Duty} {ev : Ev}

theorem reviewStart_idle (h : ev.s.tru.tripped = true ∨ ev.s.short d = false) :
    reviewStart d ev = ev.map fun s => s.withStartPending d none :=
  if_pos (by simpa using h)

/-- Of a short duty, the deadline that stands, or a fresh one, decides. -/
theorem reviewStart_short {t : PendingTimer} (normal : ev.s.tru.tripped = false) (short : ev.s.short d = true)
    (h : (ev.s.duty d).startPending.getD (ev.s.freshStart d) = t) : reviewStart d ev =
    if t.expired ev.s.clock then startDecision d (ev.map fun s => s.withStartPending d (some t))
    else ev.map fun s => s.withStartPending d (some t) := by
  subst h
  exact if_neg (by simp [normal, short])

theorem reviewStart_pending {p : PendingTimer} (normal : ev.s.tru.tripped = false) (short : ev.s.short d = true)
    (h : (ev.s.duty d).startPending = some p) :
    reviewStart d ev = if p.expired ev.s.clock then startDecision d ev else ev := by
  have same : (ev.map fun s => s.withStartPending d (some p)) = ev := by
    rw [Ev.map, ← h, withStartPending_self]
  rw [reviewStart_short (t := p) normal short (by rw [h]; rfl), same]

theorem reviewStart_starts {p : PendingTimer} {u : Nat} (normal : ev.s.tru.tripped = false)
    (short : ev.s.short d = true) (h : (ev.s.duty d).startPending = some p) (expired : p.expired ev.s.clock = true)
    (eligible : ev.s.eligible d = some u) : reviewStart d ev = ev.map fun s => s.startUnit d u := by
  rw [reviewStart_pending normal short h, if_pos expired, startDecision_starts eligible]

/-- A fresh deadline is set, and then decides as one that stood (R49). -/
theorem reviewStart_fresh (normal : ev.s.tru.tripped = false) (short : ev.s.short d = true)
    (h : (ev.s.duty d).startPending = none) :
    reviewStart d ev = reviewStart d (ev.map fun s => s.withStartPending d (some (ev.s.freshStart d))) := by
  rw [reviewStart_short (t := ev.s.freshStart d) normal short (by rw [h]; rfl),
    reviewStart_pending (p := ev.s.freshStart d)]
  · rw [Ev.map_s, withStartPending_clock]
  · rw [Ev.map_s, withStartPending_tru, normal]
  · rw [Ev.map_s, withStartPending_short, short]
  · rw [Ev.map_s, withStartPending_duty]

end

/-! ### The stop decision (R53) -/

theorem stopWarranted_iff {s : State} {d : Duty} {u : Nat} : s.stopWarranted d = some u ↔
    (s.duty d).running.getLast? = some u ∧ (s.unit u).state = .running ∧
      (s.duty d).demand + s.rated u ≤ s.runningCapacity d := by
  simp [State.stopWarranted, State.stopCandidate, Option.filter_eq_some_iff]

theorem stopWarranted_none_iff {s : State} {d : Duty} : s.stopWarranted d = none ↔
    ∀ u, ¬((s.duty d).running.getLast? = some u ∧ (s.unit u).state = .running ∧
      (s.duty d).demand + s.rated u ≤ s.runningCapacity d) := by
  simp only [Option.eq_none_iff_forall_ne_some, ne_eq, stopWarranted_iff]

/-- A unit that begins to stop has left its running order. -/
def State.stopped (s : State) (u : Nat) : State := (s.beginStop u).leaveOrder u

theorem stopUnit_eq (s : State) (d : Duty) (u : Nat) : s.stopUnit d u =
    (s.stopped u).withStopPending d (((s.stopped u).stopWarranted d).map (s.stopped u).freshStop) := rfl

@[simp] theorem withStopPending_stopUnit (s : State) (d : Duty) (t : Option PendingTimer) (u : Nat) :
    (s.withStopPending d t).stopUnit d u = s.stopUnit d u := by cases d <;> rfl

theorem stopUnit_unit (s : State) (d : Duty) (u v : Nat) : (s.stopUnit d u).unit v = (s.beginStop u).unit v := by
  rw [stopUnit_eq, withStopPending_unit]
  rfl

theorem beginStop_unit {s : State} {u : Nat} {k : UnitDef} (hu : u < s.cdm.units.length) (hk : s.unitDef u = some k) :
    (s.beginStop u).unit u =
      { s.unit u with
        command := .stop, state := .stopping, start := none, minRun := none, minRunTaken := false
        stop := some (s.after k.stopTimeout) } := by
  rw [State.beginStop, hk, State.unit_updUnit_self hu]
  rfl

/-- A unit that begins to stop counts no longer, and no other begins to. -/
theorem beginStop_counts {s : State} {u v : Nat} (h : ((s.beginStop u).unit v).state.counts = true) :
    (s.unit v).state.counts = true := by
  rw [State.beginStop, State.unit_updUnit] at h
  split at h
  · cases h
  · exact h

theorem stopUnit_running (s : State) (d : Duty) (u : Nat) :
    ((s.stopUnit d u).duty d).running = without (s.duty d).running u := by
  rw [stopUnit_eq, withStopPending_duty]
  cases d <;> rfl

/-- The surplus that a stop leaves is timed afresh (R53). -/
theorem stopUnit_stopPending (s : State) (d : Duty) (u : Nat) : ((s.stopUnit d u).duty d).stopPending =
    ((s.stopUnit d u).stopWarranted d).map (s.stopUnit d u).freshStop := by
  rw [stopUnit_eq, withStopPending_duty, withStopPending_stopWarranted, withStopPending_freshStop]

theorem stopUnit_after (s : State) (d : Duty) (u n : Nat) : (s.stopUnit d u).after n = s.after n := by
  cases d <;> rfl

/-! ### The stop part of a review (R53) -/

section
variable {d : Duty} {ev : Ev} {u : Nat}

theorem reviewStop_none (h : ev.s.stopWarranted d = none) :
    reviewStop d ev = ev.map fun s => s.withStopPending d none := by
  unfold reviewStop
  rw [h]
  rfl

/-- Where a stop is warranted, the deadline that stands against the candidate, or a fresh one, decides. -/
theorem reviewStop_warranted {t : PendingTimer} (warranted : ev.s.stopWarranted d = some u)
    (h : ((ev.s.duty d).stopPending.filter fun t => t.candidate == some u).getD (ev.s.freshStop u) = t) :
    reviewStop d ev =
      if t.expired ev.s.clock then
        if (ev.s.unit u).hasRun ev.s.clock then (ev.map fun s => s.stopUnit d u).hand true
        else ev.map fun s => s.withStopPending d (some { t with taken := true })
      else ev.map fun s => s.withStopPending d (some t) := by
  subst h
  unfold reviewStop
  rw [warranted]
  rfl

theorem reviewStop_pending {p : PendingTimer} (warranted : ev.s.stopWarranted d = some u)
    (h : (ev.s.duty d).stopPending = some p) (candidate : p.candidate = some u) : reviewStop d ev =
      if p.expired ev.s.clock then
        if (ev.s.unit u).hasRun ev.s.clock then (ev.map fun s => s.stopUnit d u).hand true
        else ev.map fun s => s.withStopPending d (some { p with taken := true })
      else ev := by
  have same : (ev.map fun s => s.withStopPending d (some p)) = ev := by
    rw [Ev.map, ← h, withStopPending_self]
  rw [reviewStop_warranted (t := p) warranted (by rw [h, Option.filter_some, candidate]; simp), same]

theorem reviewStop_stops {p : PendingTimer} (warranted : ev.s.stopWarranted d = some u)
    (h : (ev.s.duty d).stopPending = some p) (candidate : p.candidate = some u) (expired : p.expired ev.s.clock = true)
    (ran : (ev.s.unit u).hasRun ev.s.clock = true) :
    reviewStop d ev = (ev.map fun s => s.stopUnit d u).hand true := by
  rw [reviewStop_pending warranted h candidate, if_pos expired, if_pos ran]

/-- A fresh deadline against a new candidate is set, and then decides as one that stood (R53). -/
theorem reviewStop_fresh (warranted : ev.s.stopWarranted d = some u)
    (h : ∀ p, (ev.s.duty d).stopPending = some p → p.candidate ≠ some u) :
    reviewStop d ev = reviewStop d (ev.map fun s => s.withStopPending d (some (ev.s.freshStop u))) := by
  have dropped : ((ev.s.duty d).stopPending.filter fun t => t.candidate == some u) = none := by
    simpa [Option.filter_eq_none_iff] using h
  rw [reviewStop_warranted (t := ev.s.freshStop u) warranted (by rw [dropped]; rfl),
    reviewStop_pending (p := ev.s.freshStop u) (u := u)]
  · simp only [Ev.map, withStopPending_clock, withStopPending_unit, withStopPending_twice, withStopPending_stopUnit]
  · rw [Ev.map_s, withStopPending_stopWarranted, warranted]
  · rw [Ev.map_s, withStopPending_duty]
  · rfl

/-- What a stop part leaves: another deadline, or the warranted unit stopped. -/
theorem reviewStop_cases (d : Duty) (ev : Ev) : (∃ t, (reviewStop d ev).s = ev.s.withStopPending d t) ∨
    ∃ u, ev.s.stopWarranted d = some u ∧ (reviewStop d ev).s = ev.s.stopUnit d u := by
  cases h : ev.s.stopWarranted d with
  | none => exact .inl ⟨none, by rw [reviewStop_none h, Ev.map_s]⟩
  | some u =>
    rw [reviewStop_warranted h rfl]
    split
    · split
      · exact .inr ⟨u, rfl, rfl⟩
      · exact .inl ⟨_, rfl⟩
    · exact .inl ⟨_, rfl⟩

theorem reviewStop_counts {v : Nat} (h : ((reviewStop d ev).s.unit v).state.counts = true) :
    (ev.s.unit v).state.counts = true := by
  obtain ⟨t, left⟩ | ⟨u, _, left⟩ := reviewStop_cases d ev
  · rwa [left, withStopPending_unit] at h
  · rw [left, stopUnit_unit] at h
    exact beginStop_counts h

/-- While the station is TRIPPED a review starts no unit (R49, R156). -/
theorem review_tripped {v : Nat} (tripped : ev.s.tru.tripped = true)
    (h : ((review d ev).s.unit v).state.counts = true) : (ev.s.unit v).state.counts = true := by
  have counts := reviewStop_counts h
  rwa [reviewStart_idle (.inl tripped), Ev.map_s, withStartPending_unit] at counts

end

/-! ### Expiries that bring a review (R49, R50, R53) -/

section
variable {s : State} {d : Duty} {p : PendingTimer}

theorem exec_startPendingExpiry (run : s.phase = .running) (h : (s.duty d).startPending = some p)
    (fresh : p.taken = false) (due : passed s.clock p.deadline = true) :
    exec (.startPendingExpiry d) s = .next (review d s.ev).finish :=
  congrArg Host.Outcome.next (occurs_eq run (by simp [h, fresh, due]))

theorem exec_stopPendingExpiry (run : s.phase = .running) (h : (s.duty d).stopPending = some p)
    (fresh : p.taken = false) (due : passed s.clock p.deadline = true) :
    exec (.stopPendingExpiry d) s = .next (review d s.ev).finish :=
  congrArg Host.Outcome.next (occurs_eq run (by simp [h, fresh, due]))

theorem exec_minimumRunExpiry {u : Nat} (run : s.phase = .running) (fresh : (s.unit u).minRunTaken = false)
    (elapsed : due s.clock (s.unit u).minRun = true) (placed : u ∈ (s.duty (s.unit u).duty).running) :
    exec (.minimumRunExpiry u) s = .next
      (review (s.unit u).duty (s.updUnit u fun r => { r with minRunTaken := true }).ev).finish :=
  congrArg Host.Outcome.next (occurs_eq run (by simp [fresh, elapsed, placed]))

end

/-- Settles O28: a review's start part and its stop part, each by the deadline that decides. -/
theorem pendingDeadlinesReview : Obligations.PendingDeadlinesReview := by
  refine ⟨fun q ev u => review_tripped, fun q ev u d p hu hd expired => ⟨?starts, ?stops⟩, fun q ev => ?startPart,
    fun q ev => ?stopPart, fun s q u p run => ⟨exec_startPendingExpiry run, exec_stopPendingExpiry run, ?minRun⟩⟩
  case starts =>
    intro normal short pending eligible
    rw [reviewStart_starts normal short pending (expired_iff.2 expired) eligible, Ev.map_s]
    refine ⟨startUnit_unit hu hd, startUnit_running _ _ _, fun enough => ?_, fun short' ineligible => ?_,
      fun v k short' next hk => ?_⟩
    · rw [startUnit_startPending, enough]
      rfl
    · rw [startUnit_startPending, if_pos short', freshStart_none ineligible, startUnit_clock]
    · rw [startUnit_startPending, if_pos short', freshStart_eligible next hk, startUnit_after]
  case stops =>
    intro last running surplus pending candidate hasRun
    have warranted : ev.s.stopWarranted q = some u :=
      stopWarranted_iff.2 ⟨last, running, by rwa [rated_of_def hd]⟩
    rw [reviewStop_stops warranted pending candidate (expired_iff.2 expired) (hasRun_iff.2 hasRun), Ev.hand_s,
      Ev.map_s]
    refine ⟨(stopUnit_unit _ _ _ _).trans (beginStop_unit hu hd), stopUnit_running _ _ _,
      fun v k last' running' hk surplus' => ?_, fun enough => ?_⟩
    · rw [stopUnit_stopPending, stopWarranted_iff.2 ⟨last', running', by rwa [rated_of_def hk]⟩, Option.map_some,
        freshStop_of_def hk, stopUnit_after]
    · rw [stopUnit_stopPending, stopWarranted_none_iff.2, Option.map_none]
      rintro v ⟨last', running', surplus'⟩
      exact Nat.not_le.2 (enough v last' running') surplus'
  case startPart =>
    intro start now
    refine ⟨reviewStart_idle, fun normal short => ⟨fun u d unset eligible hd => ?_, fun unset ineligible => ?_,
      fun p pending => ⟨fun fresh early => ?_, fun expired ineligible => ?_⟩⟩, fun u => Iff.rfl⟩
    · rw [reviewStart_fresh normal short unset, freshStart_eligible eligible hd]
      rfl
    · rw [reviewStart_fresh normal short unset, freshStart_none ineligible]
      rfl
    · rw [reviewStart_pending normal short pending, if_neg (not_expired fresh early)]
    · rw [reviewStart_pending normal short pending, if_pos (expired_iff.2 expired),
        startDecision_defers ineligible pending]
      rfl
  case stopPart =>
    intro stop warranted
    refine ⟨fun unwarranted => reviewStop_none (stopWarranted_none_iff.2 unwarranted),
      fun u d w hd => ⟨fun other => ?_, fun p pending candidate =>
        ⟨fun fresh early => ?_, fun expired untaken ⟨m, minRun, early⟩ => ?_⟩⟩⟩
    · rw [reviewStop_fresh (stopWarranted_iff.2 w) other, freshStop_of_def hd]
      rfl
    · rw [reviewStop_pending (stopWarranted_iff.2 w) pending candidate, if_neg (not_expired fresh early)]
    · have runs : ¬(ev.s.unit u).hasRun ev.s.clock = true := by simp [CompUnit.hasRun, untaken, minRun, due, early]
      rw [reviewStop_pending (stopWarranted_iff.2 w) pending candidate, if_pos (expired_iff.2 expired), if_neg runs]
      rfl
  case minRun => exact fun fresh elapsed placed _ => exec_minimumRunExpiry run fresh elapsed placed

end Sys2Proof.Machine
end

section
/-! PROOFS. What UNIT_AVAILABLE, SET_DUTY and SET_DUTY_ORDER come to (R43, R45, R46). -/

namespace Sys2Proof.Machine

/-! ### UNIT_AVAILABLE (R43) -/

section
variable {s : State} {u : Nat} {d : UnitDef}

theorem takeUnitAvailable_settling (hu : u < 6) (hd : s.unitDef u = some d) (settling : s.settling = true) :
    takeUnitAvailable u s = (s.ev, .refuse .settling) := by
  rw [takeUnitAvailable, onUnit_present hu hd, judged_nil, refuseIf_of_true settling]

theorem takeUnitAvailable_wrongState (hu : u < 6) (hd : s.unitDef u = some d) (settled : s.settling = false)
    (h : (s.unit u).state ≠ .maintenance) : takeUnitAvailable u s = (s.ev, .refuse .wrongState) := by
  rw [takeUnitAvailable, onUnit_present hu hd, judged_nil, refuseIf_of_false settled, refuseIf_of_true (by simp [h])]

theorem takeUnitAvailable_notReady (hu : u < 6) (hd : s.unitDef u = some d) (settled : s.settling = false)
    (h : (s.unit u).state = .maintenance) (runs : (s.unit u).feedback = true) :
    takeUnitAvailable u s = (s.ev, .refuse .notReady) := by
  rw [takeUnitAvailable, onUnit_present hu hd, judged_nil, refuseIf_of_false settled, refuseIf_of_false (by simp [h]),
    refuseIf_of_true runs]

/-- A unit that is let go is released as its rest deadline says. -/
theorem takeUnitAvailable_releases {f : CompUnit → CompUnit} (hu : u < 6) (hd : s.unitDef u = some d)
    (settled : s.settling = false) (h : (s.unit u).state = .maintenance) (still : (s.unit u).feedback = false)
    (released : (s.unit u).release s.clock = f (s.unit u)) :
    takeUnitAvailable u s = unitDone u (s.updUnit u f) := by
  rw [takeUnitAvailable, onUnit_present hu hd, judged_nil, refuseIf_of_false settled, refuseIf_of_false (by simp [h]),
    refuseIf_of_false still, State.updUnit_congr released]

end

theorem CompUnit.release_resting {clock : Clk} {r : CompUnit} (h : ∃ x, r.rest = some x ∧ passed clock x = false) :
    r.release clock = { r with failures := 0, state := .resting } := by
  obtain ⟨x, rest, early⟩ := h
  simp [CompUnit.release, rest, early]

theorem CompUnit.release_rested {clock : Clk} {r : CompUnit} (h : ∀ x, r.rest = some x → passed clock x = true) :
    r.release clock = { r with failures := 0, rest := none, state := .off } := by
  unfold CompUnit.release
  cases rest : r.rest with
  | none => simp only [← rest]
  | some x => exact if_pos (h x rest)

/-! ### SET_DUTY (R45) -/

theorem dutyOfCode_lt {k : Nat} {q : Duty} (h : dutyOfCode k = some q) : k < 2 := by
  match k with
  | 0 | 1 => decide
  | k + 2 => cases h

section
variable {s : State} {u k : Nat} {d : UnitDef} {q : Duty}

theorem takeSetDuty_badDuty (hu : u < 6) (hk : 2 ≤ k) : takeSetDuty u k s = (s.ev, .badField 2) := by
  rw [takeSetDuty, onUnit, decide_eq_true hu, judged_cons_true, judged_first_bad _ _ _ _ (Nat.not_lt.2 hk)]

theorem takeSetDuty_wrongState (hu : u < 6) (hk : k < 2) (hd : s.unitDef u = some d) (off : (s.unit u).state ≠ .off)
    (maintenance : (s.unit u).state ≠ .maintenance) (lockedOut : (s.unit u).state ≠ .lockedOut) :
    takeSetDuty u k s = (s.ev, .refuse .wrongState) := by
  rw [takeSetDuty, onUnit_present hu hd, decide_eq_true hk, judged_cons_true, judged_nil]
  cases h : (s.unit u).state
  case off => exact absurd h off
  case maintenance => exact absurd h maintenance
  case lockedOut => exact absurd h lockedOut
  all_goals simp only

/-- In OFF, MAINTENANCE and LOCKED_OUT a unit takes the duty named. -/
theorem takeSetDuty_takes (hu : u < 6) (hq : dutyOfCode k = some q) (hd : s.unitDef u = some d)
    (h : (s.unit u).state = .off ∨ (s.unit u).state = .maintenance ∨ (s.unit u).state = .lockedOut) :
    takeSetDuty u k s = if (s.unit u).duty = q then unitDone u s else unitDone u (s.moveDuty u q) := by
  rw [takeSetDuty, onUnit_present hu hd, decide_eq_true (dutyOfCode_lt hq), judged_cons_true, judged_nil]
  rcases h with h | h | h <;> simp only [h, hq]

end

/-! ### SET_DUTY_ORDER (R46) -/

section
variable {s : State} {k : Nat} {q : Duty} {l : List Nat}

theorem takeSetDutyOrder_invalid (hk : k < 2) (invalid : s.pst.plant.live = none) :
    takeSetDutyOrder k l s = (s.ev, .refuse .noSuch) := by
  rw [takeSetDutyOrder, decide_eq_true hk, judged_cons_true, judged_nil, refuseIf_of_true (by simp [invalid])]

theorem takeSetDutyOrder_sets (hq : dutyOfCode k = some q) (live : s.pst.plant.live ≠ none)
    (h : badOrder (s.duty q).order l = none) :
    takeSetDutyOrder k l s = ((s.updDuty q fun y => { y with order := l }).ev, .ok (l.map b1)) := by
  rw [takeSetDutyOrder, decide_eq_true (dutyOfCode_lt hq), judged_cons_true, judged_nil,
    refuseIf_of_false (Option.isNone_eq_false_iff.2 (Option.isSome_iff_ne_none.2 live))]
  simp only [hq, h, indexFields]

theorem takeSetDutyOrder_offends {i : Nat} (hq : dutyOfCode k = some q) (live : s.pst.plant.live ≠ none)
    (h : badOrder (s.duty q).order l = some i) : takeSetDutyOrder k l s = (s.ev, .badField (2 + i)) := by
  rw [takeSetDutyOrder, decide_eq_true (dutyOfCode_lt hq), judged_cons_true, judged_nil,
    refuseIf_of_false (Option.isNone_eq_false_iff.2 (Option.isSome_iff_ne_none.2 live))]
  simp only [hq, h]

end

/-- A place of a new order that offends: an entry that is not of the list, or repeats an earlier one. -/
def offendsOrder (old new : List Nat) (i : Nat) : Prop :=
  i < new.length ∧ (new.getD i 0 ∉ old ∨ new.getD i 0 ∈ new.take i)

section
variable {old new : List Nat}

theorem contained_fresh {i : Nat} (hi : i < new.length) (h : ¬offendsOrder old new i) :
    old.contains (new.getD i 0) = true ∧ new.getD i 0 ∉ new.take i := by
  obtain ⟨listed, fresh⟩ := not_or.1 (not_and.1 h hi)
  exact ⟨List.contains_iff_mem.2 (not_not.1 listed), fresh⟩

theorem badOrder_offends {i : Nat} (h : offendsOrder old new i) (first : ∀ j, j < i → ¬offendsOrder old new j) :
    badOrder old new = some i := by
  obtain ⟨hi, bad⟩ := h
  have found : firstOffending old.contains new = some i :=
    firstOffending_eq_some hi (bad.imp_left fun k => by simpa using k)
      fun j hj => contained_fresh (hj.trans hi) (first j hj)
  rw [badOrder, found]

theorem badOrder_no_offence (h : ∀ i, ¬offendsOrder old new i) :
    badOrder old new = if new.length < old.length then some new.length else none := by
  have found : firstOffending old.contains new = none := firstOffending_eq_none fun i hi => contained_fresh hi (h i)
  rw [badOrder, found]

/-- A list of the same units, each once, does not offend and omits none. -/
theorem badOrder_same (once : new.Nodup) (same : ∀ i, i ∈ new ↔ i ∈ old) (old_once : old.Nodup) :
    badOrder old new = none := by
  have length : new.length = old.length := ((List.perm_ext_iff_of_nodup once old_once).2 same).length_eq
  rw [badOrder_no_offence, if_neg length.not_lt]
  rintro i ⟨hi, absent | repeated⟩
  · rw [List.getD_eq_getElem _ _ hi] at absent
    exact absent ((same _).1 (List.getElem_mem hi))
  · exact getD_notMem_take once hi repeated

end

end Sys2Proof.Machine
end

section
/-! PROOFS. The units under a written PLANT group (R40, R41), and the units' returns and duties settled with them. -/

namespace Sys2Proof.Machine

/-! ### Units and duties of a changed controller -/

theorem unit_of_cdm {s t : State} (h : s.cdm = t.cdm) : s.unit = t.unit := by
  funext u
  rw [State.unit, State.unit, h]

theorem duty_of_cdm {s t : State} (h : s.cdm = t.cdm) : s.duty = t.duty := by
  funext q
  cases q <;> simp only [State.duty, h]

section
variable (s : State) (u : Nat)

@[simp] theorem leaveOrder_unit : (s.leaveOrder u).unit = s.unit := rfl

theorem leaveDuty_order (q : Duty) : ((s.leaveDuty u).duty q).order = without (s.duty q).order u := by
  cases q <;> rfl

theorem leaveOrder_order (q : Duty) : ((s.leaveOrder u).duty q).order = (s.duty q).order := by
  cases q <;> rfl

theorem lockOut_order (q : Duty) : ((s.lockOut u).duty q).order = (s.duty q).order := by
  rw [State.lockOut, leaveOrder_order, State.duty_updUnit]

end

theorem updDuty_append_order (s : State) (u : Nat) (p q : Duty) :
    ((s.updDuty p fun y => { y with order := y.order ++ [u] }).duty q).order =
      (s.duty q).order ++ if p = q then [u] else [] := by
  cases p <;> cases q <;> simp [State.updDuty, State.duty]

theorem uncommanded_cdm (u : Nat) (ev : Ev) : (uncommanded u ev).s.cdm = (ev.s.lockOut u).cdm := by
  rw [uncommanded, (raise_told _ _ _ _).state, Ev.map_s]

/-! ### One unit (R40) -/

/-- The record of a unit that a group leaves absent. -/
def CompUnit.away (r : CompUnit) : CompUnit :=
  { r with
    present := false, state := .maintenance, command := .stop, start := none, stop := none, minRun := none
    minRunTaken := false, rest := none }

/-- A unit becomes present: OFF, at the end of its duty's list. -/
def State.bringIn (s : State) (u : Nat) (d : UnitDef) : State :=
  ((s.leaveDuty u).updUnit u fun r =>
    { r with present := true, state := .off, command := .stop, failures := 0, duty := d.duty }).updDuty d.duty
      fun q => { q with order := q.order ++ [u] }

section
variable {write : Bool} {ev : Ev} {u : Nat} {d : UnitDef}

theorem fitUnit_absent (hd : ev.s.unitDef u = none) : fitUnit write ev u =
    ev.map fun s => ((s.updUnit u CompUnit.away).leaveDuty u).leaveOrder u := by
  simp only [fitUnit, hd]
  rfl

theorem fitUnit_stays (hd : ev.s.unitDef u = some d) (present : (ev.s.unit u).present = true) :
    fitUnit write ev u = ev := by
  simp only [fitUnit, hd, present, if_true]

theorem fitUnit_comes (hd : ev.s.unitDef u = some d) (absent : (ev.s.unit u).present = false) :
    fitUnit write ev u = if write && (ev.s.unit u).feedback then uncommanded u (ev.map fun s => s.bringIn u d)
      else ev.map fun s => s.bringIn u d := by
  simp only [fitUnit, hd, absent, Bool.false_eq_true, if_false]
  rfl

end

/-- What fitting one unit can do: the unit is taken out, stays, or is brought in, OFF or locked out. -/
theorem fitUnit_cases (write : Bool) (ev : Ev) (u : Nat) :
    (ev.s.unitDef u = none ∧ fitUnit write ev u =
      ev.map fun s => ((s.updUnit u CompUnit.away).leaveDuty u).leaveOrder u) ∨
    (∃ d, ev.s.unitDef u = some d ∧ (ev.s.unit u).present = true ∧ fitUnit write ev u = ev) ∨
    (∃ d, ev.s.unitDef u = some d ∧ (ev.s.unit u).present = false ∧
      (fitUnit write ev u = (ev.map fun s => s.bringIn u d) ∨
        fitUnit write ev u = uncommanded u (ev.map fun s => s.bringIn u d))) := by
  cases hd : ev.s.unitDef u with
  | none => exact .inl ⟨rfl, fitUnit_absent hd⟩
  | some d =>
    cases present : (ev.s.unit u).present with
    | true => exact .inr (.inl ⟨d, rfl, rfl, fitUnit_stays hd present⟩)
    | false =>
      refine .inr (.inr ⟨d, rfl, rfl, ?_⟩)
      rw [fitUnit_comes hd present]
      split
      · exact .inr rfl
      · exact .inl rfl

theorem bringIn_unitDef (s : State) (u : Nat) (d : UnitDef) : (s.bringIn u d).unitDef = s.unitDef :=
  (State.unitDef_updDuty _ _ _).trans rfl

theorem bringIn_length (s : State) (u : Nat) (d : UnitDef) :
    (s.bringIn u d).cdm.units.length = s.cdm.units.length := by
  rw [State.bringIn]
  cases d.duty <;> exact State.updUnit_length _ _ _

theorem bringIn_unit (s : State) (u : Nat) (d : UnitDef) : (s.bringIn u d).unit = (s.updUnit u fun r =>
    { r with present := true, state := .off, command := .stop, failures := 0, duty := d.duty }).unit := by
  rw [State.bringIn, State.unit_updDuty]
  rfl

theorem bringIn_order (s : State) (u : Nat) (d : UnitDef) (q : Duty) : ((s.bringIn u d).duty q).order =
    without (s.duty q).order u ++ if d.duty = q then [u] else [] := by
  rw [State.bringIn, updDuty_append_order, State.duty_updUnit, leaveDuty_order]

/-- What fitting a unit leaves of everything else, seen from another unit: definitions, that unit's record, and what has
been handed on. -/
structure UnitFitted (v : Nat) (a b : Ev) : Prop extends a.Extends b where
  defs : b.s.unitDef = a.s.unitDef := by rfl
  unit : b.s.unit v = a.s.unit v := by rfl
  size : b.s.cdm.units.length = a.s.cdm.units.length := by rfl

theorem UnitFitted.refl (v : Nat) (a : Ev) : UnitFitted v a a := { toExtends := .refl a }

theorem UnitFitted.trans {v : Nat} {a b c : Ev} (h : UnitFitted v a b) (k : UnitFitted v b c) : UnitFitted v a c where
  toExtends := h.toExtends.trans k.toExtends
  defs := k.defs.trans h.defs
  unit := k.unit.trans h.unit
  size := k.size.trans h.size

theorem uncommanded_fitted {u v : Nat} (h : v ≠ u) (ev : Ev) : UnitFitted v ev (uncommanded u ev) where
  toExtends := Ev.Extends.trans {} (raise_extends _ _ _ _).1
  defs := by rw [uncommanded, (raise_told _ _ _ _).state]; rfl
  unit := by
    rw [unit_of_cdm (uncommanded_cdm u ev)]
    exact State.unit_updUnit_other ev.s h _
  size := by rw [uncommanded_cdm]; exact State.updUnit_length _ _ _

theorem bringIn_fitted {u v : Nat} (h : v ≠ u) (ev : Ev) (d : UnitDef) :
    UnitFitted v ev (ev.map fun s => s.bringIn u d) where
  defs := bringIn_unitDef _ _ _
  unit := (congrFun (bringIn_unit ev.s u d) v).trans (State.unit_updUnit_other ev.s h _)
  size := bringIn_length _ _ _

theorem fitUnit_fitted (write : Bool) {u v : Nat} (h : v ≠ u) (ev : Ev) : UnitFitted v ev (fitUnit write ev u) := by
  obtain ⟨_, eq⟩ | ⟨_, _, _, eq⟩ | ⟨d, _, _, eq | eq⟩ := fitUnit_cases write ev u <;> rw [eq]
  · exact { unit := State.unit_updUnit_other ev.s h _, size := State.updUnit_length _ _ _ }
  · exact .refl v ev
  · exact bringIn_fitted h ev d
  · exact (bringIn_fitted h ev d).trans (uncommanded_fitted h _)

/-! ### The duty lists (R40) -/

/-- A unit keeps its place in its duty's list: it is present before and under the group in force. -/
def State.keepsPlace (s : State) (u : Nat) : Bool := (s.unitDef u).isSome && (s.unit u).present

/-- A unit becomes present, in the duty at entry `q`. -/
def State.entersDuty (s : State) (q : Duty) (u : Nat) : Bool :=
  (s.unitDef u).any fun d => !(s.unit u).present && d.duty == q

theorem fitUnit_order (write : Bool) (ev : Ev) (u : Nat) (q : Duty) : ((fitUnit write ev u).s.duty q).order =
    (ev.s.duty q).order.filter (fun v => v != u || ev.s.keepsPlace u) ++ [u].filter (ev.s.entersDuty q) := by
  have brought (d : UnitDef) (hd : ev.s.unitDef u = some d) (absent : (ev.s.unit u).present = false) :
      ((ev.s.bringIn u d).duty q).order =
        (ev.s.duty q).order.filter (fun v => v != u || ev.s.keepsPlace u) ++ [u].filter (ev.s.entersDuty q) := by
    rw [bringIn_order]
    simp [State.keepsPlace, State.entersDuty, hd, absent, without, List.filter_cons]
  obtain ⟨hd, eq⟩ | ⟨d, hd, present, eq⟩ | ⟨d, hd, absent, eq | eq⟩ := fitUnit_cases write ev u <;> rw [eq]
  · rw [Ev.map_s, leaveOrder_order, leaveDuty_order, State.duty_updUnit]
    simp [State.keepsPlace, State.entersDuty, hd, without]
  · simp [State.keepsPlace, State.entersDuty, hd, present]
  · exact brought d hd absent
  · rw [duty_of_cdm (uncommanded_cdm u _), lockOut_order]
    exact brought d hd absent

/-- The units below `n` fitted, each duty list has lost those of them that do not keep their place, and has those that
become present at its end. -/
theorem foldl_fitUnit_order (write : Bool) (ev : Ev) (q : Duty) (n : Nat) :
    (((List.range n).foldl (fitUnit write) ev).s.duty q).order =
      (ev.s.duty q).order.filter (fun v => decide (n ≤ v) || ev.s.keepsPlace v) ++
        (List.range n).filter (ev.s.entersDuty q) := by
  induction n with
  | zero => simp
  | succ n ih =>
    have before : UnitFitted n ev ((List.range n).foldl (fitUnit write) ev) :=
      (foldl_reaches UnitFitted.refl UnitFitted.trans (fun i j u h => fitUnit_fitted write h.symm u) n (List.range n)
        List.nodup_range ev).1 (by simp)
    have keeps : (((List.range n).foldl (fitUnit write) ev).s).keepsPlace n = ev.s.keepsPlace n := by
      rw [State.keepsPlace, State.keepsPlace, before.defs, before.unit]
    have enters : (((List.range n).foldl (fitUnit write) ev).s).entersDuty q n = ev.s.entersDuty q n := by
      rw [State.entersDuty, State.entersDuty, before.defs, before.unit]
    have old (v : Nat) : ((v != n || ev.s.keepsPlace n) && (decide (n ≤ v) || ev.s.keepsPlace v)) =
        (decide (n + 1 ≤ v) || ev.s.keepsPlace v) := by
      rcases lt_trichotomy v n with below | rfl | above
      · simp [below.ne, below.not_ge, Nat.not_le.2 (Nat.lt_succ_of_lt below)]
      · simp
      · simp [above.ne', above.le, Nat.succ_le_of_lt above]
    have new : (List.range n).filter (fun v => (v != n || ev.s.keepsPlace n) && ev.s.entersDuty q v) =
        (List.range n).filter (ev.s.entersDuty q) :=
      List.filter_congr fun v hv => by simp [(List.mem_range.1 hv).ne]
    rw [List.range_succ, List.foldl_append, List.foldl_cons, List.foldl_nil, fitUnit_order, ih, keeps,
      List.filter_append, List.filter_append, List.filter_filter, List.filter_filter, List.append_assoc, new]
    simp only [old, List.filter_cons, List.filter_nil, enters]

/-! ### The fitted unit itself (R40, R41) -/

section
variable {write : Bool} {ev : Ev} {u : Nat} {d : UnitDef}

theorem fitUnit_absent_unit (hu : u < ev.s.cdm.units.length) (hd : ev.s.unitDef u = none) :
    (fitUnit write ev u).s.unit u = (ev.s.unit u).away := by
  rw [fitUnit_absent hd]
  exact State.unit_updUnit_self hu _

theorem fitUnit_off_unit (hu : u < ev.s.cdm.units.length) (hd : ev.s.unitDef u = some d)
    (absent : (ev.s.unit u).present = false) (still : (ev.s.unit u).feedback = false) :
    (fitUnit write ev u).s.unit u =
      { ev.s.unit u with present := true, state := .off, command := .stop, failures := 0, duty := d.duty } := by
  rw [fitUnit_comes hd absent, if_neg (by simp [still]), Ev.map_s, bringIn_unit, State.unit_updUnit_self hu]

/-- At a write, a unit that becomes present while its running feedback is PRESENT is locked out as uncommanded (R41). -/
theorem fitUnit_lockedOut_unit (hu : u < ev.s.cdm.units.length) (hd : ev.s.unitDef u = some d)
    (absent : (ev.s.unit u).present = false) (runs : (ev.s.unit u).feedback = true) :
    (fitUnit true ev u).s.unit u =
        { ev.s.unit u with
          present := true, state := .lockedOut, command := .stop, failures := 0, duty := d.duty, start := none
          stop := none, minRun := none, minRunTaken := false, rest := none } ∧
      ⟨.unitLockedOut, some u, .cause .uncommanded⟩ ∈ (fitUnit true ev u).raised := by
  have inside : u < (ev.s.bringIn u d).cdm.units.length := by rw [bringIn_length]; exact hu
  rw [fitUnit_comes hd absent, if_pos (by simp [runs])]
  refine ⟨?_, (raise_extends _ _ _ _).2⟩
  rw [unit_of_cdm (uncommanded_cdm u _), Ev.map_s, State.lockOut, leaveOrder_unit, State.unit_updUnit_self inside,
    bringIn_unit, State.unit_updUnit_self hu]

end

/-! ### A written PLANT group (R40) -/

/-- The state with the contents of a PLANT group in force and nothing fitted to them yet. -/
def State.withPlant (s : State) (p : Plant) : State :=
  { s with pst := { s.pst with plant := { s.pst.plant with live := some p } } }

theorem withPlant_unitDef (s : State) (p : Plant) (u : Nat) : (s.withPlant p).unitDef u =
    if (p.units.getD u {}).present then some (p.units.getD u {}) else none := by
  have read : (s.withPlant p).unitDef u = (p.units[u]?).filter (·.present) := rfl
  rw [read, List.getD_eq_getElem?_getD]
  cases p.units[u]? with
  | none => rfl
  | some d => exact Option.filter_some

/-- A PLANT group in force, its trains fitted and the loading figures given, the units still to be fitted. -/
def plantFigured (p : Plant) (ev : Ev) : Ev :=
  (List.range 4).foldl (refigureLoading ev.s) (ev.map fun s => ((s.withPlant p).fitTrains).disarm)

theorem refigureLoading_told (before : State) (ev : Ev) (t : Nat) : WatchesTold ev (refigureLoading before ev t) :=
  ite_told { toExtends := .refl ev } (newWatchValue_told _ _ ev)

theorem plantFigured_told (p : Plant) (ev : Ev) :
    WatchesTold (ev.map fun s => ((s.withPlant p).fitTrains).disarm) (plantFigured p ev) :=
  foldl_rel (R := WatchesTold) (fun u => { toExtends := .refl u }) WatchesTold.trans (refigureLoading_told ev.s) _ _

theorem plantFigured_cdm (p : Plant) (ev : Ev) : (plantFigured p ev).s.cdm = ev.s.cdm := by
  rw [(plantFigured_told p ev).state]
  rfl

theorem plantFigured_unitDef (p : Plant) (ev : Ev) : (plantFigured p ev).s.unitDef = (ev.s.withPlant p).unitDef := by
  rw [(plantFigured_told p ev).state]
  rfl

theorem beginCommit_cdm (s : State) : s.beginCommit.cdm = s.cdm := by
  unfold State.beginCommit
  split <;> rfl

/-- A PLANT write leaves the Compressor Duty Manager fitted to the new group. -/
theorem applyWrite_plant_cdm (v : List Int) (ev : Ev) :
    (applyWrite .plant v ev).s.cdm = (fitUnits true (plantFigured (plantOf v) ev)).s.cdm := beginCommit_cdm _

theorem applyWrite_plant_order (v : List Int) (ev : Ev) (q : Duty) : ((applyWrite .plant v ev).s.duty q).order =
    (ev.s.duty q).order.filter (fun u =>
      decide (6 ≤ u) || ((plantOf v).units.getD u {}).present && (ev.s.unit u).present) ++
    (List.range 6).filter fun u => ((plantOf v).units.getD u {}).present && !(ev.s.unit u).present &&
      ((plantOf v).units.getD u {}).duty == q := by
  have keeps (u : Nat) : (plantFigured (plantOf v) ev).s.keepsPlace u =
      (((plantOf v).units.getD u {}).present && (ev.s.unit u).present) := by
    rw [State.keepsPlace, plantFigured_unitDef, withPlant_unitDef, unit_of_cdm (plantFigured_cdm _ ev)]
    cases ((plantOf v).units.getD u {}).present <;> rfl
  have enters (u : Nat) : (plantFigured (plantOf v) ev).s.entersDuty q u =
      (((plantOf v).units.getD u {}).present && !(ev.s.unit u).present &&
        ((plantOf v).units.getD u {}).duty == q) := by
    rw [State.entersDuty, plantFigured_unitDef, withPlant_unitDef, unit_of_cdm (plantFigured_cdm _ ev)]
    cases ((plantOf v).units.getD u {}).present <;> rfl
  rw [duty_of_cdm (applyWrite_plant_cdm v ev), fitUnits, foldl_fitUnit_order, duty_of_cdm (plantFigured_cdm _ ev),
    funext enters]
  simp only [keeps]

/-- A PLANT write, seen from one unit: `e` is the event when the unit's turn comes. -/
theorem applyWrite_plant_unit (v : List Int) {ev : Ev} {u : Nat} (h6 : u < 6) (hu : u < ev.s.cdm.units.length) :
    ∃ e, e.s.unitDef u = (ev.s.withPlant (plantOf v)).unitDef u ∧ e.s.unit u = ev.s.unit u ∧
      u < e.s.cdm.units.length ∧ (applyWrite .plant v ev).s.unit u = (fitUnit true e u).s.unit u ∧
      ∀ o ∈ (fitUnit true e u).raised, o ∈ (applyWrite .plant v ev).raised := by
  obtain ⟨e, before, after⟩ := (foldl_reaches UnitFitted.refl UnitFitted.trans
    (fun i j a h => fitUnit_fitted true h.symm a) u (List.range 6) List.nodup_range (plantFigured (plantOf v) ev)).2
      (List.mem_range.2 h6)
  refine ⟨e, ?_, ?_, ?_, ?_, after.raised⟩
  · rw [before.defs, plantFigured_unitDef]
  · rw [before.unit, unit_of_cdm (plantFigured_cdm _ ev)]
  · rw [before.size, plantFigured_cdm]
    exact hu
  · rw [unit_of_cdm (applyWrite_plant_cdm v ev)]
    exact after.unit

/-! ### Units, by a written group and by requests -/

/-- Settles O25: the written group list by list and unit by unit, then each request by the refusals of its rule. -/
theorem unitReturnsAndDutiesChange : Obligations.UnitReturnsAndDutiesChange := by
  refine ⟨fun ev v => ?written, fun s e t u k d q l => ?requests⟩
  case written =>
    intro p x
    refine ⟨applyWrite_plant_order v ev, fun u h6 hu => ?_⟩
    obtain ⟨e, defs, unit, inside, left, kept⟩ := applyWrite_plant_unit v h6 hu
    rw [withPlant_unitDef] at defs
    intro d r
    refine ⟨fun there before => ?_, fun there absent still => ?_, fun there absent runs => ?_, fun gone => ?_⟩
    · rw [left, fitUnit_stays (defs.trans (if_pos there)) (by rw [unit]; exact before), unit]
    · rw [left, fitUnit_off_unit inside (defs.trans (if_pos there)) (by rw [unit]; exact absent)
        (by rw [unit]; exact still), unit]
    · obtain ⟨record, raised⟩ := fitUnit_lockedOut_unit inside (defs.trans (if_pos there))
        (by rw [unit]; exact absent) (by rw [unit]; exact runs)
      exact ⟨by rw [left, record, unit], kept _ raised⟩
    · rw [left, fitUnit_absent_unit inside (defs.trans (if_neg (Bool.eq_false_iff.1 gone))), unit]
      rfl
  case requests =>
    intro reply
    refine ⟨fun h hu hd settled state still => ⟨fun early => ?_, fun rested => ?_⟩,
      fun h hu hd hq state => ⟨fun same => ?_, fun other => ?_⟩,
      fun h hu hd => ⟨fun settling => ?_, fun settled state => ?_, fun settled state runs => ?_⟩,
      fun h hu => ⟨fun hk => ?_, fun hk hd off maintenance lockedOut => ?_⟩,
      fun h live hq once same old_once => ?_,
      fun h hq => ⟨fun invalid => ?_, fun live i bad first => ?_, fun live good short => ?_⟩⟩
    · exact completes_of rfl h (takeUnitAvailable_releases hu (by simpa using hd) (by simpa using settled)
        (by simpa using state) (by simpa using still) (CompUnit.release_resting (by simpa using early)))
    · exact completes_of rfl h (takeUnitAvailable_releases hu (by simpa using hd) (by simpa using settled)
        (by simpa using state) (by simpa using still) (CompUnit.release_rested (by simpa using rested)))
    · refine completes_of rfl h ?_
      rw [takeSetDuty_takes hu hq (by simpa using hd) (by simpa using state), if_pos (by simpa using same)]
      rfl
    · refine completes_of rfl h ?_
      rw [takeSetDuty_takes hu hq (by simpa using hd) (by simpa using state), if_neg (by simpa using other)]
      rfl
    · exact refuses_of rfl h (takeUnitAvailable_settling hu (by simpa using hd) (by simpa using settling))
    · exact refuses_of rfl h (takeUnitAvailable_wrongState hu (by simpa using hd) (by simpa using settled)
        (by simpa using state))
    · exact refuses_of rfl h (takeUnitAvailable_notReady hu (by simpa using hd) (by simpa using settled)
        (by simpa using state) (by simpa using runs))
    · exact refuses_of rfl h (takeSetDuty_badDuty hu hk)
    · exact refuses_of rfl h (takeSetDuty_wrongState hu hk (by simpa using hd) (by simpa using off)
        (by simpa using maintenance) (by simpa using lockedOut))
    · exact completes_of rfl h (takeSetDutyOrder_sets hq (by simpa using live)
        (badOrder_same once (by simpa using same) (by simpa using old_once)))
    · exact refuses_of rfl h (takeSetDutyOrder_invalid (dutyOfCode_lt hq) (by simpa using invalid))
    · exact refuses_of rfl h (takeSetDutyOrder_offends hq (by simpa using live)
        (badOrder_offends (by simpa [offendsOrder] using bad) (by simpa [offendsOrder] using first)))
    · refine refuses_of rfl h (takeSetDutyOrder_offends hq (by simpa using live) ?_)
      rw [badOrder_no_offence (by simpa [offendsOrder] using good), if_pos (by simpa using short)]

end Sys2Proof.Machine
end

section
/-! PROOFS. The change of one train's record: what it leaves of that train and of the others, and what it hands on (R62,
R78, R79). -/

namespace Sys2Proof.Machine

/-! ### Trains and towers -/

theorem State.train_updTrain_self {s : State} {n : Nat} (h : n < s.dtc.trains.length) (f : Train → Train) :
    (s.updTrain n f).train n = f (s.train n) :=
  (s.train_updTrain n n f).trans (if_pos ⟨rfl, h⟩)

theorem State.train_updTrain_other (s : State) {n m : Nat} (h : m ≠ n) (f : Train → Train) :
    (s.updTrain n f).train m = s.train m :=
  (s.train_updTrain n m f).trans (if_neg fun k => h k.1.symm)

theorem trainDef_of_pst {s t : State} (h : t.pst = s.pst) : t.trainDef = s.trainDef := by
  funext n
  rw [State.trainDef, State.trainDef, h]

@[simp] theorem Train.tower_updTower_self (r : Train) (w : TowerId) (f : Tower → Tower) :
    (r.updTower w f).tower w = f (r.tower w) := by
  cases w <;> rfl

@[simp] theorem Train.switch_updTower (r : Train) (w : TowerId) (f : Tower → Tower) :
    (r.updTower w f).switch = r.switch := by
  cases w <;> rfl

@[simp] theorem otherTower_otherTower (w : TowerId) : otherTower (otherTower w) = w := by
  cases w <;> rfl

theorem Train.adsorbing_a {r : Train} (h : r.towerA.state = .adsorbing) : r.adsorbing = some .a := if_pos h

theorem Train.adsorbing_b {r : Train} (a : r.towerA.state ≠ .adsorbing) (b : r.towerB.state = .adsorbing) :
    r.adsorbing = some .b :=
  (if_neg a).trans (if_pos b)

theorem Train.adsorbing_none {r : Train} (a : r.towerA.state ≠ .adsorbing) (b : r.towerB.state ≠ .adsorbing) :
    r.adsorbing = none :=
  (if_neg a).trans (if_neg b)

/-! ### Watches that are told something hand on trips alone (R145) -/

/-- The planner has been handed nothing more, and no further internal event has been raised. -/
structure TripsOnly (u v : Ev) : Prop where
  restep : v.restep = u.restep := by rfl
  raised : v.raised = u.raised := by rfl

theorem TripsOnly.refl (u : Ev) : TripsOnly u u := {}

theorem TripsOnly.trans {u v w : Ev} (h : TripsOnly u v) (k : TripsOnly v w) : TripsOnly u w where
  restep := k.restep.trans h.restep
  raised := k.raised.trans h.raised

theorem fireWatch_tripsOnly (w : Nat) (d : WatchDef) (ev : Ev) : TripsOnly ev (fireWatch w d ev) := by
  rw [fireWatch_eq]
  exact {}

theorem evaluateWatch_tripsOnly (on : WatchSource → Bool) (v : Int) (ev : Ev) (w : Nat) :
    TripsOnly ev (evaluateWatch on v ev w) := by
  unfold evaluateWatch
  dsimp only
  split
  · split
    · split
      · exact TripsOnly.trans {} (fireWatch_tripsOnly _ _ _)
      · exact {}
    · exact .refl _
  · exact .refl _

theorem newWatchValue_tripsOnly (on : WatchSource → Bool) (v : Int) (ev : Ev) :
    TripsOnly ev (newWatchValue on v ev) :=
  foldl_rel TripsOnly.refl TripsOnly.trans (evaluateWatch_tripsOnly on v) _ ev

theorem offerEvent_tripsOnly (name : EventName) (index : Option Nat) (ev : Ev) (w : Nat) :
    TripsOnly ev (offerEvent name index ev w) := by
  unfold offerEvent
  dsimp only
  split
  · split
    · exact fireWatch_tripsOnly _ _ _
    · exact .refl _
  · exact .refl _

/-- An internal event that is raised is the only one that its raising adds. -/
theorem raise_tripsOnly (name : EventName) (index : Option Nat) (ev : Ev) (data : EventData) :
    TripsOnly { ev with raised := ev.raised ++ [⟨name, index, data⟩] } (raise name index ev data) :=
  foldl_rel TripsOnly.refl TripsOnly.trans (offerEvent_tripsOnly name index) _ _

/-! ### A change of a train's record -/

/-- Two changes that agree on a train's record are followed up alike. -/
theorem changeTrain_congr {n : Nat} {f g : Train → Train} {ev : Ev} (h : f (ev.s.train n) = g (ev.s.train n)) :
    changeTrain n f ev = changeTrain n g ev := by
  have same : (ev.map fun s => s.updTrain n f) = ev.map fun s => s.updTrain n g :=
    congrArg (fun s => { ev with s := s }) (State.updTrain_congr h)
  unfold changeTrain
  rw [same]

theorem changeTrain_trainDef (n : Nat) (f : Train → Train) (ev : Ev) :
    (changeTrain n f ev).s.trainDef = ev.s.trainDef :=
  trainDef_of_pst (changeTrain_frame (F := False) (B := False) n f ev).pst

theorem changeTrain_length (n : Nat) (f : Train → Train) (ev : Ev) :
    (changeTrain n f ev).s.dtc.trains.length = ev.s.dtc.trains.length := by
  rw [(changeTrain_told n f ev).state]
  exact State.updTrain_length _ _ _

theorem changeTrain_train_other {n m : Nat} (h : m ≠ n) (f : Train → Train) (ev : Ev) :
    (changeTrain n f ev).s.train m = ev.s.train m :=
  (changeTrain_other (Ne.symm h) f ev).train

section
variable {n : Nat} {f : Train → Train} {ev : Ev} {d : TrainDef}

/-- What follows a change of a train's record: the planner is handed a change of the capacity counted, watches are told,
and TRAIN_SATURATED is raised where that condition begins to hold in service. -/
theorem changeTrain_follows (hn : n < ev.s.dtc.trains.length) (hd : ev.s.trainDef n = some d) :
    ∃ e, TripsOnly (ev.hand ((ev.s.train n).counted (some d) != (f (ev.s.train n)).counted (some d))) e ∧
      changeTrain n f ev =
        if (f (ev.s.train n)).inService && (f (ev.s.train n)).full d &&
            !((ev.s.train n).inService && (ev.s.train n).full d) then
          raise .trainSaturated (some n) e
        else e := by
  have changed : (ev.map fun s => s.updTrain n f).s.train n = f (ev.s.train n) := State.train_updTrain_self hn f
  unfold changeTrain
  simp only [changed, hd]
  refine ⟨_, ?_, rfl⟩
  split
  · exact {}
  · exact TripsOnly.trans {} (newWatchValue_tripsOnly _ _ _)

theorem changeTrain_restep (hn : n < ev.s.dtc.trains.length) (hd : ev.s.trainDef n = some d) :
    (changeTrain n f ev).restep =
      (ev.restep || (ev.s.train n).counted (some d) != (f (ev.s.train n)).counted (some d)) := by
  obtain ⟨e, told, eq⟩ := changeTrain_follows (f := f) hn hd
  rw [eq]
  split
  · exact (raise_tripsOnly _ _ _ _).restep.trans told.restep
  · exact told.restep

theorem changeTrain_raised (hn : n < ev.s.dtc.trains.length) (hd : ev.s.trainDef n = some d) :
    (changeTrain n f ev).raised =
      if (f (ev.s.train n)).inService && (f (ev.s.train n)).full d &&
          !((ev.s.train n).inService && (ev.s.train n).full d) then
        ev.raised ++ [⟨.trainSaturated, some n, .none⟩]
      else ev.raised := by
  obtain ⟨e, told, eq⟩ := changeTrain_follows (f := f) hn hd
  rw [eq]
  split
  · rw [(raise_tripsOnly _ _ _ _).raised, told.raised]
    rfl
  · exact told.raised

end

end Sys2Proof.Machine
end

section
/-! PROOFS. The state of a train and the capacity it counts (R62), and the trains under a written PLANT group (R61,
R142, R146). -/

namespace Sys2Proof.Machine

/-! ### State and counted capacity (R62) -/

section
variable {d : TrainDef} {r : Train}

theorem Train.counted_of_state {st : TrainState} (h : r.state (some d) = st) :
    r.counted (some d) = if st = .online ∨ st = .switching then d.capacity else 0 := by
  unfold Train.counted
  rw [h]
  cases st <;> rfl

theorem Train.state_out (h : r.inService = false) : r.state (some d) = .offline := by
  simp [Train.state, h]

theorem Train.state_offSpec (h : r.inService = true) (mark : r.offSpec = true) : r.state (some d) = .offSpec := by
  simp [Train.state, h, mark]

theorem Train.state_saturated (h : r.inService = true) (mark : r.offSpec = false) (full : r.full d = true) :
    r.state (some d) = .saturated := by
  simp [Train.state, h, mark, full]

theorem Train.state_switching (h : r.inService = true) (mark : r.offSpec = false) (room : r.full d = false)
    (flight : r.switch ≠ none) : r.state (some d) = .switching := by
  simp [Train.state, h, mark, room, Option.isSome_iff_ne_none.2 flight]

theorem Train.state_online (h : r.inService = true) (mark : r.offSpec = false) (room : r.full d = false)
    (still : r.switch = none) : r.state (some d) = .online := by
  simp [Train.state, h, mark, room, still]

end

/-! ### One train fitted to a group (R61) -/

section
variable (s : State) (d : TrainDef) {r : Train}

theorem Train.fit_stays (h : r.present = true) : r.fit s (some d) = r := if_pos h

theorem Train.fit_comes (h : r.present = false) : r.fit s (some d) =
    { present := true, inService := false, offSpec := false, offSpecDeadline := none, switch := none
      towerA := r.towerA.unknownBed s d, towerB := r.towerB.unknownBed s d } :=
  if_neg (Bool.eq_false_iff.1 h)

end

/-- A tower of a train that is not there: no step, and its inlet shut where a switch to it was in flight (R61). -/
def Tower.idled (incoming : Bool) (w : Tower) : Tower :=
  { w with step := none, inletOpen := if incoming then false else w.inletOpen }

theorem Tower.idled_eq (incoming : Bool) (w : Tower) :
    w.idled incoming = { w with step := none, inletOpen := w.inletOpen && !incoming } := by
  cases incoming <;> simp [Tower.idled]

theorem Train.fit_goes (s : State) (r : Train) : r.fit s none =
    { present := false, inService := false, offSpec := false, offSpecDeadline := none, switch := none
      towerA := r.towerA.idled (r.switch.any (·.incoming == .a))
      towerB := r.towerB.idled (r.switch.any (·.incoming == .b)) } := by
  rw [Tower.idled_eq, Tower.idled_eq]
  rfl

theorem fitTrains_train {s : State} {n : Nat} (h : n < s.dtc.trains.length) :
    s.fitTrains.train n = (s.train n).fit s (s.trainDef n) := by
  simp [State.fitTrains, State.train, h]

/-! ### A written PLANT group -/

theorem withPlant_trainDef (s : State) (p : Plant) (n : Nat) : (s.withPlant p).trainDef n =
    if (p.trains.getD n {}).present then some (p.trains.getD n {}) else none := by
  have read : (s.withPlant p).trainDef n = (p.trains[n]?).filter (·.present) := rfl
  rw [read, List.getD_eq_getElem?_getD]
  cases p.trains[n]? with
  | none => rfl
  | some d => exact Option.filter_some

/-- Fitting the units leaves the trains as they are. -/
theorem fitUnit_dtc (write : Bool) (ev : Ev) (u : Nat) : (fitUnit write ev u).s.dtc = ev.s.dtc := by
  have brought (d : UnitDef) : Frame True False False ev.s (ev.s.bringIn u d) :=
    ((leaveDuty_frame ev.s u).trans (updUnit_frame _ _ _)).trans (updDuty_frame _ _ _)
  obtain ⟨_, eq⟩ | ⟨_, _, _, eq⟩ | ⟨d, _, _, eq | eq⟩ := fitUnit_cases write ev u <;> rw [eq]
  · exact (((updUnit_frame ev.s u _).trans (leaveDuty_frame _ _)).trans
      (leaveOrder_frame (G := False) (B := False) _ _)).dtc id
  · exact (brought d).dtc id
  · exact ((brought d).trans (uncommanded_frame u (ev.map fun s => s.bringIn u d))).dtc id

theorem fitUnits_dtc (write : Bool) (ev : Ev) : (fitUnits write ev).s.dtc = ev.s.dtc :=
  foldl_rel (R := fun a b => b.s.dtc = a.s.dtc) (fun _ => rfl) (fun h k => k.trans h) (fitUnit_dtc write) _ ev

theorem beginCommit_dtc (s : State) : s.beginCommit.dtc = s.dtc := by
  unfold State.beginCommit
  split <;> rfl

/-- A PLANT write leaves the Drying Train Controller fitted to the new group. -/
theorem applyWrite_plant_dtc (v : List Int) (ev : Ev) :
    (applyWrite .plant v ev).s.dtc = ((ev.s.withPlant (plantOf v)).fitTrains).dtc := by
  have committed : (applyWrite .plant v ev).s.dtc = (fitUnits true (plantFigured (plantOf v) ev)).s.dtc :=
    beginCommit_dtc _
  rw [committed, fitUnits_dtc, (plantFigured_told _ _).state]
  rfl

/-- A PLANT write, seen from one train (R61). -/
theorem applyWrite_plant_train (v : List Int) {ev : Ev} {n : Nat} (hn : n < ev.s.dtc.trains.length) :
    (applyWrite .plant v ev).s.train n =
      (ev.s.train n).fit (ev.s.withPlant (plantOf v)) ((ev.s.withPlant (plantOf v)).trainDef n) := by
  rw [State.train, applyWrite_plant_dtc]
  exact fitTrains_train hn

/-! ### Watches under a written PLANT group (R142, R146) -/

theorem Train.permille_eq (d : Option TrainDef) (r : Train) : r.permille d =
    (d.map fun d => (r.adsorbing.map fun w => (r.tower w).loading * 1000 / d.water).getD 0).getD 0 := by
  unfold Train.permille
  cases d with
  | none => rfl
  | some d => cases r.adsorbing <;> rfl

/-- Disarming changes no source, so the sources that have gone are those that had gone before it. -/
theorem disarm_sourceGone (s : State) : s.disarm.sourceGone = s.sourceGone := by
  funext x
  cases x <;> rfl

theorem disarm_watches (s : State) : s.disarm.wnu.watches = s.wnu.watches.map fun w =>
    { w with
      state := if (w.state = .armed ∨ w.state = .fired) ∧ w.defn.any (fun d => s.sourceGone d.source) = true then
          .disarmed
        else w.state } := by
  refine List.map_congr_left fun w _ => ?_
  obtain ⟨defn, state, fired, latch⟩ := w
  cases defn with
  | none => cases state <;> simp
  | some d => cases state <;> cases h : s.sourceGone d.source <;> simp [h]

/-- Settles O29: a PLANT write by what the group and the record say of the train's presence, and the lines of R62 one by
one. -/
theorem trainStateByTable : Obligations.TrainStateByTable := by
  refine ⟨fun ev v n _ hn => ?fitted, fun ev v => ?told, fun d r => ?state⟩
  case fitted =>
    intro d r x unknown idle
    have fitted := applyWrite_plant_train v hn
    rw [withPlant_trainDef] at fitted
    refine ⟨fun there before => ?_, fun there absent => ?_, fun gone => ?_⟩
    · rw [if_pos there, Train.fit_stays _ _ before] at fitted
      exact fitted
    · rw [if_pos there, Train.fit_comes _ _ absent] at fitted
      exact fitted
    · rw [if_neg (Bool.eq_false_iff.1 gone), Train.fit_goes] at fitted
      exact fitted
  case told =>
    intro share told
    have figures : told = refigureLoading ev.s := by
      funext e n
      simp only [told, share, refigureLoading, Train.permille_eq]
    refine ⟨((ev.s.withPlant (plantOf v)).fitTrains).disarm, ?_, (applyWrite_plant_dtc v ev).symm, rfl, rfl, ?_⟩
    · rw [figures]
      rfl
    · rw [disarm_sourceGone]
      exact disarm_watches _
  case state =>
    have counted {st : TrainState} (h : r.state (some d) = st) := Train.counted_of_state h
    refine ⟨rfl, rfl, fun out => ?_, fun h mark => ?_, fun h mark full => ?_, fun h mark room flight => ?_,
      fun h mark room still => ?_⟩
    · exact ⟨Train.state_out out, counted (Train.state_out out)⟩
    · exact ⟨Train.state_offSpec h mark, counted (Train.state_offSpec h mark)⟩
    · exact ⟨Train.state_saturated h mark full, counted (Train.state_saturated h mark full)⟩
    · exact ⟨Train.state_switching h mark room flight, counted (Train.state_switching h mark room flight)⟩
    · exact ⟨Train.state_online h mark room still, counted (Train.state_online h mark room still)⟩

end Sys2Proof.Machine
end

section
/-! PROOFS. Water handed to a train: the factor of its inlet temperature (R64), the charge (R65), and the hand-off (R65,
R66, R78). -/

namespace Sys2Proof.Machine

/-! ### The water factor (R64) -/

/-- The greatest of a start value and the values of a table is one of them, and none of them exceeds it. -/
theorem foldl_max_greatest (l : List (Int × Int)) (m : Int) :
    let g := l.foldl (fun (m : Int) (p : Int × Int) => max m p.2) m
    m ≤ g ∧ (∀ p ∈ l, p.2 ≤ g) ∧ (g = m ∨ ∃ p ∈ l, p.2 = g) := by
  induction l generalizing m with
  | nil => exact ⟨le_rfl, nofun, .inl rfl⟩
  | cons q l ih =>
    obtain ⟨start, bound, reached⟩ := ih (max m q.2)
    refine ⟨(le_max_left _ _).trans start, List.forall_mem_cons.2 ⟨(le_max_right _ _).trans start, bound⟩, ?_⟩
    rcases reached with eq | ⟨p, hp, eq⟩
    · rcases max_choice m q.2 with first | head
      · exact .inl (eq.trans first)
      · exact .inr ⟨q, List.mem_cons_self .., head.symm.trans eq.symm⟩
    · exact .inr ⟨p, List.mem_cons_of_mem _ hp, eq⟩

section
variable {s : State} {d : TrainDef}

theorem waterFactor_known (h : (s.chan d.inletChannel).quality ≠ .lost) :
    s.waterFactor d = (interpolate s.waterTable (s.chan d.inletChannel).value).toNat :=
  if_neg h

/-- On a LOST inlet temperature the factor is the greatest of the table. -/
theorem waterFactor_lost (h : (s.chan d.inletChannel).quality = .lost) (nonneg : ∀ p ∈ s.waterTable, 0 ≤ p.2) :
    (∀ p ∈ s.waterTable, p.2 ≤ s.waterFactor d) ∧
      (s.waterTable ≠ [] → ∃ p ∈ s.waterTable, p.2 = s.waterFactor d) := by
  obtain ⟨start, bound, reached⟩ := foldl_max_greatest s.waterTable 0
  have factor : (s.waterFactor d : Int) = s.waterTable.foldl (fun (m : Int) (p : Int × Int) => max m p.2) 0 := by
    rw [State.waterFactor, if_pos h, Int.toNat_of_nonneg start]
  rw [factor]
  refine ⟨bound, fun filled => ?_⟩
  rcases reached with zero | found
  · obtain ⟨p, hp⟩ := List.exists_mem_of_ne_nil _ filled
    exact ⟨p, hp, le_antisymm (bound p hp) (zero.trans_le (nonneg p hp))⟩
  · exact found

end

/-! ### The charge (R65) -/

theorem Tower.charge_conserves (e f : Nat) {w : Tower} (h : w.loading ≤ 4294967295) :
    (w.charge e f).residue < 10000000 ∧
      ((w.charge e f).loading < 4294967295 →
        (w.charge e f).loading * 10000000 + (w.charge e f).residue = w.loading * 10000000 + w.residue + e * f) ∧
      (w.charge e f).loading ≤ 4294967295 ∧ w.loading ≤ (w.charge e f).loading := by
  simp only [Tower.charge, Config.max32]
  generalize e * f = water
  omega

/-! ### The hand-off (R65, R66, R78) -/

theorem checkSwitch_trainDef (n : Nat) (d : TrainDef) (ev : Ev) : (checkSwitch n d ev).s.trainDef = ev.s.trainDef :=
  trainDef_of_pst (checkSwitch_frame (F := False) (B := False) n d ev).pst

@[simp] theorem netCapacity_s (n : Nat) (f : Ev → Ev) (ev : Ev) : (netCapacity n f ev).s = (f ev).s := rfl

@[simp] theorem netCapacity_launches (n : Nat) (f : Ev → Ev) (ev : Ev) :
    (netCapacity n f ev).launches = (f ev).launches := rfl

@[simp] theorem netCapacity_raised (n : Nat) (f : Ev → Ev) (ev : Ev) :
    (netCapacity n f ev).raised = (f ev).raised := rfl

theorem netCapacity_restep (n : Nat) (f : Ev → Ev) (ev : Ev) : (netCapacity n f ev).restep = true ↔
    ev.restep = true ∨
      (ev.s.train n).counted (ev.s.trainDef n) ≠ ((f ev).s.train n).counted ((f ev).s.trainDef n) := by
  simp [netCapacity]

theorem chargeTower_trainDef (n e : Nat) (d : TrainDef) (w : TowerId) (ev : Ev) :
    (chargeTower n e d w ev).s.trainDef = ev.s.trainDef :=
  (checkSwitch_trainDef _ _ _).trans (changeTrain_trainDef _ _ _)

section
variable {ev : Ev} {n e : Nat} {d : TrainDef}

theorem handOff_absent (hd : ev.s.trainDef n = none) : handOff n e ev = ev := by
  simp only [handOff, hd]

theorem handOff_wet (hd : ev.s.trainDef n = some d) (bed : (ev.s.train n).adsorbing = none) :
    handOff n e ev = raise .wetGas (some n) ev := by
  simp only [handOff, hd, bed]

theorem handOff_charges {w : TowerId} (hd : ev.s.trainDef n = some d) (bed : (ev.s.train n).adsorbing = some w) :
    handOff n e ev = netCapacity n (chargeTower n e d w) ev := by
  simp only [handOff, hd, bed]

end

/-- Settles O30: the hand-off by the train's definition and its ADSORBING tower, the factor by the inlet's quality. -/
theorem waterChargeLosesNothing : Obligations.WaterChargeLosesNothing := by
  refine ⟨fun ev n e => ⟨handOff_absent, fun d hd => ⟨handOff_wet hd, fun w bed => ?charged, waterFactor_known,
    waterFactor_lost⟩⟩, fun e f w h => ?charge⟩
  case charged =>
    intro y
    have defs : (chargeTower n e d w ev).s.trainDef n = some d := by rw [chargeTower_trainDef, hd]
    have net := netCapacity_restep n (chargeTower n e d w) ev
    rw [hd, defs] at net
    rw [handOff_charges hd bed]
    exact ⟨rfl, rfl, rfl, net⟩
  case charge =>
    obtain ⟨residue, conserved, ceiling, rises⟩ := Tower.charge_conserves e f h
    exact ⟨residue, conserved, ceiling, rises, rfl⟩

end Sys2Proof.Machine
end

section
/-! PROOFS. Switches of the towers, the towers' steps and the off-spec dwell (R63, R66 to R70, R72). -/

namespace Sys2Proof.Machine

/-! ### The tower a switch could go to, and the check (R66, R67) -/

section
variable {r : Train} {w : TowerId}

theorem Train.switchTarget_eq_some_iff : r.switchTarget = some w ↔
    r.switch = none ∧ r.adsorbing = some (otherTower w) ∧ (r.tower w).state = .standby := by
  have other : r.adsorbing.map otherTower = some w ↔ r.adsorbing = some (otherTower w) := by
    cases r.adsorbing with
    | none => simp
    | some y => cases y <;> cases w <;> simp [otherTower]
  unfold Train.switchTarget
  cases r.switch with
  | none => simp [Option.filter_eq_some_iff, other]
  | some x => simp

end

section
variable {ev : Ev} {n : Nat} {d : TrainDef} {w : TowerId}

theorem checkSwitch_of_target (h : (ev.s.train n).switchTarget = some w) : checkSwitch n d ev =
    if (ev.s.train n).inService = true ∧
        d.water * d.fraction / 1000 ≤ ((ev.s.train n).tower (otherTower w)).loading then
      beginSwitch n d w ev
    else ev := by
  simp only [checkSwitch, h, Bool.and_eq_true, decide_eq_true_eq]
  rfl

theorem checkSwitch_begins (h : (ev.s.train n).switchTarget = some w) (service : (ev.s.train n).inService = true)
    (reached : d.water * d.fraction / 1000 ≤ ((ev.s.train n).tower (otherTower w)).loading) :
    checkSwitch n d ev = beginSwitch n d w ev :=
  (checkSwitch_of_target h).trans (if_pos ⟨service, reached⟩)

theorem checkSwitch_below (h : (ev.s.train n).switchTarget = some w)
    (below : ((ev.s.train n).tower (otherTower w)).loading < d.water * d.fraction / 1000) :
    checkSwitch n d ev = ev :=
  (checkSwitch_of_target h).trans (if_neg fun k => below.not_ge k.2)

theorem checkSwitch_no_target (h : (ev.s.train n).switchTarget = none) : checkSwitch n d ev = ev := by
  simp only [checkSwitch, h]

theorem checkSwitch_out (h : (ev.s.train n).inService = false) : checkSwitch n d ev = ev := by
  cases target : (ev.s.train n).switchTarget with
  | none => exact checkSwitch_no_target target
  | some w => rw [checkSwitch_of_target target, if_neg (by simp [h])]

end

/-! ### A switch that begins (R67, R68) -/

/-- A switch that completes leaves nothing of its beginning but what it sets itself. -/
theorem Train.completeSwitch_beginSwitch (s : State) (d : TrainDef) (w : TowerId) (r : Train) :
    (r.beginSwitch s d w).completeSwitch s d w = r.completeSwitch s d w := by
  cases w <;> rfl

theorem Train.tower_beginSwitch_feedback (s : State) (d : TrainDef) (w : TowerId) (r : Train) :
    ((r.beginSwitch s d w).tower w).feedback = (r.tower w).feedback := by
  cases w <;> rfl

section
variable {ev : Ev} {n : Nat} {d : TrainDef} {w : TowerId}

theorem beginSwitch_waits (hn : n < ev.s.dtc.trains.length) (shut : ((ev.s.train n).tower w).feedback = false) :
    beginSwitch n d w ev = changeTrain n (·.beginSwitch ev.s d w) ev := by
  refine if_neg ?_
  rw [changeTrain_train _ hn, Train.tower_beginSwitch_feedback, shut]
  exact Bool.false_ne_true

theorem beginSwitch_completes (hn : n < ev.s.dtc.trains.length) (shows : ((ev.s.train n).tower w).feedback = true) :
    beginSwitch n d w ev =
      changeTrain n (·.completeSwitch ev.s d w) (changeTrain n (·.beginSwitch ev.s d w) ev) := by
  refine if_pos ?_
  rw [changeTrain_train _ hn, Train.tower_beginSwitch_feedback, shows]

theorem beginSwitch_waits_train (hn : n < ev.s.dtc.trains.length)
    (shut : ((ev.s.train n).tower w).feedback = false) :
    (beginSwitch n d w ev).s.train n = (ev.s.train n).beginSwitch ev.s d w := by
  rw [beginSwitch_waits hn shut, changeTrain_train _ hn]

theorem beginSwitch_completes_train (hn : n < ev.s.dtc.trains.length)
    (shows : ((ev.s.train n).tower w).feedback = true) :
    (beginSwitch n d w ev).s.train n = (ev.s.train n).completeSwitch ev.s d w := by
  rw [beginSwitch_completes hn shows, changeTrain_train _ (by rwa [changeTrain_length]), changeTrain_train _ hn,
    Train.completeSwitch_beginSwitch]

end

/-! ### A tower's open feedback (R63, R68) -/

/-- The record of a change of a tower's open feedback. -/
def State.withTowerFeedback (s : State) (n : Nat) (w : TowerId) (m : Bool) : State :=
  s.updTrain n fun r => r.updTower w fun z => { z with feedback := m }

section
variable {s : State} {n : Nat} {w : TowerId} {m : Bool}

theorem withTowerFeedback_switch : ((s.withTowerFeedback n w m).train n).switch = (s.train n).switch := by
  rw [State.withTowerFeedback, State.train_updTrain]
  split
  · exact Train.switch_updTower _ _ _
  · rfl

theorem withTowerFeedback_feedback (hn : n < s.dtc.trains.length) :
    (((s.withTowerFeedback n w m).train n).tower w).feedback = m := by
  rw [State.withTowerFeedback, State.train_updTrain_self hn, Train.tower_updTower_self]

/-- No feedback shows open once it is recorded as gone, nor on a train that the part does not have. -/
theorem withTowerFeedback_gone : (((s.withTowerFeedback n w false).train n).tower w).feedback = false := by
  by_cases hn : n < s.dtc.trains.length
  · exact withTowerFeedback_feedback hn
  · have none : (s.withTowerFeedback n w false).train n = {} := by
      rw [State.withTowerFeedback, State.train_updTrain, if_neg fun k => hn k.2]
      exact List.getD_eq_default _ _ (not_lt.1 hn)
    rw [none]
    cases w <;> rfl

theorem exec_towerFeedback_same (h : ((s.train n).tower w).feedback = m) :
    exec (.towerFeedbackChange n w m) s = .next s :=
  congrArg Host.Outcome.next (if_pos (by simp [h]))

theorem exec_towerFeedback_not_running (h : ((s.train n).tower w).feedback ≠ m) (off : s.phase ≠ .running) :
    exec (.towerFeedbackChange n w m) s = .next (s.withTowerFeedback n w m) :=
  congrArg Host.Outcome.next (inputChange_not_running (by simp [h]) off)

theorem exec_towerFeedback_running (h : ((s.train n).tower w).feedback ≠ m) (run : s.phase = .running) :
    exec (.towerFeedbackChange n w m) s = .next (towerFeedback n w (s.withTowerFeedback n w m).ev).finish :=
  congrArg Host.Outcome.next (inputChange_running (by simp [h]) run)

end

section
variable {ev : Ev} {n : Nat} {w : TowerId} {d : TrainDef}

theorem towerFeedback_stays (h : ((ev.s.train n).tower w).feedback = false ∨
    (ev.s.train n).switch.any (·.incoming == w) = false) : towerFeedback n w ev = ev := by
  unfold towerFeedback
  split
  · exact if_neg (by rcases h with h | h <;> simp [h])
  · rfl

theorem towerFeedback_completes {x : Switch} (hd : ev.s.trainDef n = some d)
    (shows : ((ev.s.train n).tower w).feedback = true) (flight : (ev.s.train n).switch = some x)
    (here : x.incoming = w) : towerFeedback n w ev = changeTrain n (·.completeSwitch ev.s d w) ev := by
  simp [towerFeedback, hd, shows, flight, here]

end

/-! ### Switches that complete or fail (R63, R68, R69) -/

theorem Train.failSwitch_flight {r : Train} {x : Switch} (h : r.switch = some x) : r.failSwitch =
    { r with switch := none }.updTower x.incoming fun v => { v with state := .fault, inletOpen := false } := by
  rw [Train.failSwitch, h]

/-- Settles O32: a changed feedback is recorded, and completes the switch in flight to its tower; a passed switch
deadline fails the switch. -/
theorem switchesCompleteOrFail : Obligations.SwitchesCompleteOrFail := by
  intro s n w m d x y
  refine ⟨exec_towerFeedback_same, exec_towerFeedback_not_running, fun changed run => ⟨fun rests => ?_, ?_⟩,
    fun run flight passed => ?_⟩
  · rw [exec_towerFeedback_running changed run, towerFeedback_stays]
    · rfl
    · rcases rests with rfl | elsewhere
      · exact .inl withTowerFeedback_gone
      · exact .inr ((congrArg _ withTowerFeedback_switch).trans elsewhere)
  · rintro rfl hd hn flight here
    exact (exec_towerFeedback_running changed run).trans (congrArg (fun e : Ev => Host.Outcome.next e.finish)
      (towerFeedback_completes hd (withTowerFeedback_feedback hn) (withTowerFeedback_switch.trans flight) here))
  · refine congrArg Host.Outcome.next ((occurs_eq run (by simp [due, flight, passed])).trans ?_)
    exact congrArg Ev.finish (changeTrain_congr (Train.failSwitch_flight flight))

/-! ### The end of a tower's step (R70) -/

section
variable {s : State} {d : TrainDef} {z : Tower}

theorem Tower.stepEnds_regenerating (h : z.state = .regenerating) :
    z.stepEnds s d = { z with state := .cooling, step := some (s.after d.cool) } := by
  rw [Tower.stepEnds, h]

theorem Tower.stepEnds_cooling (h : z.state = .cooling) :
    z.stepEnds s d = { z with state := .standby, loading := 0, residue := 0, step := none } := by
  rw [Tower.stepEnds, h]

end

/-- Two changes of a tower that agree on its record are the same change of the train. -/
theorem Train.updTower_congr {r : Train} {w : TowerId} {f g : Tower → Tower} (h : f (r.tower w) = g (r.tower w)) :
    r.updTower w f = r.updTower w g := by
  cases w
  · exact congrArg (fun z => { r with towerA := z }) h
  · exact congrArg (fun z => { r with towerB := z }) h

section
variable {ev : Ev} {n : Nat} {w : TowerId} {d : TrainDef}

/-- A tower's step ends: the train is checked for a switch where the tower has become STANDBY. -/
theorem stepExpired_eq {f : Tower → Tower} (hn : n < ev.s.dtc.trains.length) (hd : ev.s.trainDef n = some d)
    (ends : ((ev.s.train n).tower w).stepEnds ev.s d = f ((ev.s.train n).tower w)) : stepExpired n w ev =
    if (f ((ev.s.train n).tower w)).state = .standby then checkSwitch n d (changeTrain n (·.updTower w f) ev)
    else changeTrain n (·.updTower w f) ev := by
  have same : changeTrain n (fun r => r.updTower w (Tower.stepEnds ev.s d)) ev = changeTrain n (·.updTower w f) ev :=
    changeTrain_congr (Train.updTower_congr ends)
  simp only [stepExpired, hd, same, changeTrain_train _ hn, Train.tower_updTower_self]

theorem stepExpired_regenerating (hn : n < ev.s.dtc.trains.length) (hd : ev.s.trainDef n = some d)
    (state : ((ev.s.train n).tower w).state = .regenerating) : stepExpired n w ev =
    changeTrain n (fun r => r.updTower w fun z =>
      { z with state := .cooling, step := some (ev.s.after d.cool) }) ev := by
  rw [stepExpired_eq (f := fun z => { z with state := .cooling, step := some (ev.s.after d.cool) }) hn hd
    (Tower.stepEnds_regenerating state)]
  exact if_neg (by simp)

theorem stepExpired_cooling (hn : n < ev.s.dtc.trains.length) (hd : ev.s.trainDef n = some d)
    (state : ((ev.s.train n).tower w).state = .cooling) : stepExpired n w ev =
    checkSwitch n d (changeTrain n (fun r => r.updTower w fun z =>
      { z with state := .standby, loading := 0, residue := 0, step := none }) ev) := by
  rw [stepExpired_eq (f := fun z => { z with state := .standby, loading := 0, residue := 0, step := none }) hn hd
    (Tower.stepEnds_cooling state)]
  exact if_pos rfl

/-- The mark of an off-spec train leaves the tower that a switch could go to as it is. -/
theorem markOffSpec_switchTarget (hn : n < ev.s.dtc.trains.length) :
    ((markOffSpec n ev).s.train n).switchTarget = (ev.s.train n).switchTarget := by
  rw [markOffSpec, ((raise_told _ _ _ _).trains n).train, changeTrain_train _ hn]
  rfl

theorem offSpecExpired_marks (hn : n < ev.s.dtc.trains.length) (hd : ev.s.trainDef n = some d)
    (still : (ev.s.train n).switchTarget = none) : offSpecExpired n ev = markOffSpec n ev := by
  simp only [offSpecExpired, hd, markOffSpec_switchTarget hn, still]

theorem offSpecExpired_switches (hn : n < ev.s.dtc.trains.length) (hd : ev.s.trainDef n = some d)
    (target : (ev.s.train n).switchTarget = some w) : offSpecExpired n ev = beginSwitch n d w (markOffSpec n ev) := by
  simp only [offSpecExpired, hd, markOffSpec_switchTarget hn, target]

end

/-- Settles O33: the check by the tower a switch could go to, each expiry by the state that its tower or train is in. -/
theorem towerStepsAndOffSpecExpire : Obligations.TowerStepsAndOffSpecExpire := by
  refine ⟨fun r => ⟨Train.adsorbing_a, Train.adsorbing_b, Train.adsorbing_none, fun w =>
      Train.switchTarget_eq_some_iff⟩,
    fun ev n d => ⟨fun w => checkSwitch_begins, checkSwitch_no_target, checkSwitch_out, fun w => checkSwitch_below⟩,
    fun s n w d run hd hn => ?expiries⟩
  case expiries =>
    intro marked
    have stepped {f : State → Ev} (passed : due s.clock ((s.train n).tower w).step = true)
        (h : stepExpired n w s.ev = f s) : happens (.towerStepExpiry n w) s f :=
      congrArg Host.Outcome.next ((occurs_eq run passed).trans (congrArg Ev.finish h))
    refine ⟨fun passed state => stepped passed ?_, fun passed state => stepped passed ?_, fun service passed => ?_⟩
    · exact stepExpired_regenerating hn hd state
    · exact stepExpired_cooling hn hd state
    · have expired {f : State → Ev} (h : offSpecExpired n s.ev = f s) : happens (.offSpecExpiry n) s f :=
        congrArg Host.Outcome.next ((occurs_eq run (by simp [service, passed])).trans (congrArg Ev.finish h))
      exact ⟨fun still => expired (offSpecExpired_marks hn hd still),
        fun target => expired (offSpecExpired_switches hn hd target)⟩

end Sys2Proof.Machine
end

section
/-! PROOFS. Trains coming into service (R74), and the requests on the trains (R74 to R77). -/

namespace Sys2Proof.Machine

/-! ### Into service (R74) -/

/-- A tower that begins to adsorb. -/
def Tower.taken (z : Tower) : Tower := { z with state := .adsorbing, inletOpen := true }

theorem Train.intoService_eq (r : Train) : r.intoService =
    if r.towerA.state = .adsorbing ∨ r.towerB.state = .adsorbing then { r with inService := true }
    else if r.towerA.state = .standby then { r with inService := true, towerA := r.towerA.taken }
    else if r.towerB.state = .standby then { r with inService := true, towerB := r.towerB.taken }
    else { r with inService := true } := by
  have some_bed : ({ r with inService := true } : Train).adsorbing.isSome = true ↔
      r.towerA.state = .adsorbing ∨ r.towerB.state = .adsorbing := by
    simp only [Train.adsorbing]
    split
    · simp_all
    · split <;> simp_all
  unfold Train.intoService
  simp only [some_bed]
  rfl

/-- A new dew-point value at a train by the branches of R71 and R73. -/
theorem Train.dewValue_eq (s : State) (d : TrainDef) (v : Int) (r : Train) : r.dewValue s d v =
    if r.inService then
      (if r.offSpec then (if v ≤ d.dewLimit - d.hysteresis then { r with offSpec := false } else r)
      else if v > d.dewLimit then { r with offSpecDeadline := r.offSpecDeadline.or (some (s.after d.dwell)) }
      else { r with offSpecDeadline := none })
    else r := by
  obtain ⟨present, service, mark, deadline, switch, a, b⟩ := r
  cases service with
  | false => rfl
  | true =>
    cases deadline with
    | none => rfl
    | some x =>
      unfold Train.dewValue
      simp

theorem takeDewPoint_eq (n : Nat) (d : TrainDef) (ev : Ev) : takeDewPoint n d ev =
    if (ev.s.chan d.dewChannel).quality = .lost then
      raise .trainOffSpec (some n) (changeTrain n (fun r => { r with offSpec := true, offSpecDeadline := none }) ev)
    else changeTrain n (·.dewValue ev.s d (ev.s.chan d.dewChannel).value) ev := rfl

/-! ### Requests on a present train (4.6) -/

theorem onTrain_present {s : State} {n : Nat} {d : TrainDef} {l : List (Nat × Bool)} {go : TrainDef → Ev × Answer}
    (hn : n < 4) (hd : s.trainDef n = some d) : onTrain s n l go = judged s l (go d) := by
  rw [onTrain, hd, decide_eq_true hn, judged_cons_true]

section
variable {s : State} {n : Nat} {d : TrainDef}

/-! ### TRAIN_ONLINE and TRAIN_OFFLINE (R74, R75) -/

theorem takeTrainOnline_ready (hn : n < 4) (hd : s.trainDef n = some d) (settled : s.settling = false)
    (dew : s.inCheck d.dewChannel = false) (inlet : s.inCheck d.inletChannel = false)
    (bed : (s.train n).hasBed d = true) : takeTrainOnline n s =
    if (s.train n).inService then trainDone n s.ev else trainDone n (intoService n d s.ev) := by
  rw [takeTrainOnline, onTrain_present hn hd, judged_nil, refuseIf_of_false settled,
    refuseIf_of_false (by simp [dew, inlet]), refuseIf_of_false (by simp [bed])]

theorem takeTrainOnline_settling (hn : n < 4) (hd : s.trainDef n = some d) (settling : s.settling = true) :
    takeTrainOnline n s = (s.ev, .refuse .settling) := by
  rw [takeTrainOnline, onTrain_present hn hd, judged_nil, refuseIf_of_true settling]

theorem takeTrainOnline_inCheck (hn : n < 4) (hd : s.trainDef n = some d) (settled : s.settling = false)
    (check : s.inCheck d.dewChannel = true ∨ s.inCheck d.inletChannel = true) :
    takeTrainOnline n s = (s.ev, .refuse .notReady) := by
  rw [takeTrainOnline, onTrain_present hn hd, judged_nil, refuseIf_of_false settled,
    refuseIf_of_true (by simpa using check)]

theorem takeTrainOnline_noBed (hn : n < 4) (hd : s.trainDef n = some d) (settled : s.settling = false)
    (bed : (s.train n).hasBed d = false) : takeTrainOnline n s = (s.ev, .refuse .notReady) := by
  rw [takeTrainOnline, onTrain_present hn hd, judged_nil, refuseIf_of_false settled]
  cases s.inCheck d.dewChannel || s.inCheck d.inletChannel with
  | true => rfl
  | false => rw [refuseIf_false, refuseIf_of_true (by simp [bed])]

/-- No bed to dry with: no tower is STANDBY, and an ADSORBING one is at capacity. -/
theorem Train.hasBed_false {r : Train} (h : ∀ y, (r.tower y).state ≠ .standby ∧
    ((r.tower y).state = .adsorbing → d.water ≤ (r.tower y).loading)) : r.hasBed d = false := by
  have a : r.towerA.state ≠ .standby := (h .a).1
  have b : r.towerB.state ≠ .standby := (h .b).1
  have adsorbing : r.adsorbing.any (fun w => decide ((r.tower w).loading < d.water)) = false := by
    cases bed : r.adsorbing with
    | none => rfl
    | some w => simpa using (h w).2 (Train.adsorbing_state bed)
  simp [Train.hasBed, adsorbing, a, b]

theorem takeTrainOffline_eq (hn : n < 4) (hd : s.trainDef n = some d) : takeTrainOffline n s =
    if (s.train n).inService then trainDone n (changeTrain n Train.outOfService s.ev) else trainDone n s.ev := by
  rw [takeTrainOffline, onTrain_present hn hd, judged_nil]

/-! ### FORCE_SWITCHOVER (R76) -/

theorem takeForceSwitchover_switches {w : TowerId} (hn : n < 4) (hd : s.trainDef n = some d)
    (target : (s.train n).switchTarget = some w) : takeForceSwitchover n s =
    (beginSwitch n d w s.ev, .ok ((beginSwitch n d w s.ev).s.trainReply n ++
      [b1 (towerCode w), optU 2 (((beginSwitch n d w s.ev).s.train n).switch.map fun x =>
        left (beginSwitch n d w s.ev).s.clock x.deadline)])) := by
  obtain ⟨still, _, _⟩ := Train.switchTarget_eq_some_iff.1 target
  rw [takeForceSwitchover, onTrain_present hn hd, judged_nil, refuseIf_of_false (by simp [still])]
  simp only [target]

theorem takeForceSwitchover_busy (hn : n < 4) (hd : s.trainDef n = some d) (flight : (s.train n).switch ≠ none) :
    takeForceSwitchover n s = (s.ev, .refuse .busy) := by
  rw [takeForceSwitchover, onTrain_present hn hd, judged_nil,
    refuseIf_of_true (Option.isSome_iff_ne_none.2 flight)]

theorem takeForceSwitchover_notReady (hn : n < 4) (hd : s.trainDef n = some d) (still : (s.train n).switch = none)
    (target : (s.train n).switchTarget = none) : takeForceSwitchover n s = (s.ev, .refuse .notReady) := by
  rw [takeForceSwitchover, onTrain_present hn hd, judged_nil, refuseIf_of_false (by simp [still])]
  simp only [target]

/-- No switch can be made where there is no ADSORBING tower or the other is not STANDBY (R67). -/
theorem Train.switchTarget_none {r : Train}
    (h : ∀ y, r.adsorbing = some y → (r.tower (otherTower y)).state ≠ .standby) : r.switchTarget = none := by
  cases target : r.switchTarget with
  | none => rfl
  | some w =>
    obtain ⟨_, bed, ready⟩ := Train.switchTarget_eq_some_iff.1 target
    exact absurd ready (by simpa using h _ bed)

/-! ### RESET_TOWER (R77) -/

theorem towerOfCode_lt {k : Nat} {w : TowerId} (h : towerOfCode k = some w) : k < 2 := by
  match k, h with
  | 0, _ => decide
  | 1, _ => decide

theorem takeResetTower_badTower {k : Nat} (hn : n < 4) (hd : s.trainDef n = some d) (hk : 2 ≤ k) :
    takeResetTower n k s = (s.ev, .badField 2) := by
  rw [takeResetTower, onTrain_present hn hd]
  exact judged_first_bad _ _ _ _ hk.not_gt

theorem takeResetTower_eq {k : Nat} {w : TowerId} (hn : n < 4) (hd : s.trainDef n = some d)
    (hw : towerOfCode k = some w) : takeResetTower n k s =
    refuseIf s (((s.train n).tower w).state != .fault) (.refuse .wrongState)
      (trainDone n (changeTrain n (fun r => r.updTower w fun x =>
        { x with state := .regenerating, step := some (s.after d.regen) }) s.ev)) := by
  rw [takeResetTower, onTrain_present hn hd, judged_all (by simp [towerOfCode_lt hw]), hw]

end

/-- Settles O31: the change of a record, the switch and the service each by the rules about its operation, then each
request by the refusals of its rule. -/
theorem trainsGoOnlineOfflineAndSwitch : Obligations.TrainsGoOnlineOfflineAndSwitch := by
  refine ⟨fun ev n f d hn hd => ?change, fun ev n d w hn => ?switch, fun ev n d _ => ?service,
    fun s e t n k d w hn hd => ?requests⟩
  case change =>
    intro x before after
    have restep := changeTrain_restep (f := f) hn hd
    have raised := changeTrain_raised (f := f) hn hd
    have begins : (after.inService && after.full d && !(before.inService && before.full d)) = true ↔
        (after.inService = true ∧ after.full d = true) ∧ ¬(before.inService = true ∧ before.full d = true) := by
      rw [Bool.and_eq_true, Bool.and_eq_true, Bool.not_eq_true', ← Bool.not_eq_true, Bool.and_eq_true]
    refine ⟨changeTrain_train f hn, fun m other => changeTrain_train_other other f ev, fun changes => ?_,
      fun stays => ?_, fun service full fresh => ?_, fun never => ?_⟩
    · exact restep.trans (by simpa using .inr changes)
    · exact restep.trans (by simpa using fun h => absurd stays h)
    · exact raised.trans (if_pos (begins.2 ⟨⟨service, full⟩, fresh⟩))
    · refine raised.trans (if_neg fun k => ?_)
      obtain ⟨holds, fresh⟩ := begins.1 k
      exact never.elim (absurd holds) fresh
  case switch =>
    intro r
    exact ⟨beginSwitch_waits_train hn, beginSwitch_completes_train hn⟩
  case service =>
    intro take beds a b dew c y z
    have hbeds : beds = Train.intoService := (funext Train.intoService_eq).symm
    have hc : c = takeDewPoint n d (switchFullBed n d (changeTrain n Train.intoService ev)) := by
      rw [takeDewPoint_eq, funext (Train.dewValue_eq _ d _), ← hbeds]
      rfl
    have hz : z = netCapacity n
        (fun e => checkSwitch n d (takeDewPoint n d (switchFullBed n d (changeTrain n Train.intoService e)))) ev := rfl
    have hy : y = checkSwitch n d (takeDewPoint n d (switchFullBed n d (changeTrain n Train.intoService ev))) :=
      congrArg (checkSwitch n d) hc
    rw [hz, hy]
    exact ⟨netCapacity_s _ _ _, netCapacity_launches _ _ _, netCapacity_raised _ _ _, netCapacity_restep _ _ _⟩
  case requests =>
    have there (c : Instr) : (s.arrived c).trainDef n = some d := by simpa using hd
    refine ⟨fun h settled dew inlet bed => ⟨fun out => ?_, fun service => ?_⟩,
      fun h => ⟨fun settling => ?_, fun settled check => ?_, fun settled beds => ?_⟩,
      fun h => ⟨fun service => ?_, fun out => ?_⟩,
      fun h still bed ready => ?_,
      fun h => ⟨fun flight => ?_, fun still unready => ?_⟩,
      fun h hk => ?_, fun h hw fault => ?_, fun h hw sound => ?_⟩
    · refine completes_of rfl h ((takeTrainOnline_ready hn (there _) (by simpa using settled) (by simpa using dew)
        (by simpa using inlet) (by simpa using bed)).trans (if_neg (by simp [out])))
    · refine completes_of rfl h ((takeTrainOnline_ready hn (there _) (by simpa using settled) (by simpa using dew)
        (by simpa using inlet) (by simpa using bed)).trans (if_pos (by simpa using service)))
    · exact refuses_of rfl h (takeTrainOnline_settling hn (there _) (by simpa using settling))
    · exact refuses_of rfl h (takeTrainOnline_inCheck hn (there _) (by simpa using settled) (by simpa using check))
    · exact refuses_of rfl h (takeTrainOnline_noBed hn (there _) (by simpa using settled)
        (by simpa using Train.hasBed_false beds))
    · exact completes_of rfl h ((takeTrainOffline_eq hn (there _)).trans (if_pos (by simpa using service)))
    · exact completes_of rfl h ((takeTrainOffline_eq hn (there _)).trans (if_neg (by simp [out])))
    · have target := Train.switchTarget_eq_some_iff.2 ⟨still, bed, ready⟩
      exact ⟨target, completes_of rfl h (takeForceSwitchover_switches hn (there _) (by simpa using target))⟩
    · exact refuses_of rfl h (takeForceSwitchover_busy hn (there _) (by simpa using flight))
    · exact refuses_of rfl h (takeForceSwitchover_notReady hn (there _) (by simpa using still)
        (by simpa using Train.switchTarget_none unready))
    · exact refuses_of rfl h (takeResetTower_badTower hn (there _) hk)
    · refine completes_of rfl h ?_
      rw [takeResetTower_eq hn (there _) hw, refuseIf_of_false (by simp [fault])]
      rfl
    · refine refuses_of rfl h ?_
      rw [takeResetTower_eq hn (there _) hw, refuseIf_of_true (by simpa using sound)]
      rfl

end Sys2Proof.Machine
end

section
/-! PROOFS. The value of a table (R64, R94), a ratcheted right (R94), and an account confirmed on its own (R95). -/

namespace Sys2Proof.Machine

/-! ### The value of a table (R64, R94) -/

section
variable {l : List (Int × Int)} {x p v p' v' : Int}

theorem interpolate_before (h : l.head? = some (p, v)) (before : x < p) : interpolate l x = v := by
  match l, h with
  | [_], rfl => rfl
  | _ :: _ :: _, rfl => exact if_pos before

theorem interpolate_between (here : p ≤ x) (before : x < p') :
    interpolate ((p, v) :: (p', v') :: l) x = v + ((v' - v) * (x - p)).tdiv (p' - p) :=
  (if_neg here.not_gt).trans (if_pos before)

/-- A value from the second point of a rising table on is the value of the table without its first point. -/
theorem interpolate_skips {a b : Int × Int} (rising : (a :: b :: l).Pairwise (fun a b => a.1 < b.1))
    (past : b.1 ≤ x) : interpolate (a :: b :: l) x = interpolate (b :: l) x := by
  have step : a.1 < b.1 := List.rel_of_pairwise_cons rising (List.mem_cons_self ..)
  exact (if_neg (step.le.trans past).not_gt).trans (if_neg past.not_gt)

/-- The first point of a rising table comes no later than any of its points. -/
theorem first_le_of_mem {a q : Int × Int} (rising : (a :: l).Pairwise (fun a b => a.1 < b.1)) (h : q ∈ a :: l) :
    a.1 ≤ q.1 := by
  rcases List.mem_cons.1 h with rfl | h
  · exact le_rfl
  · exact (List.rel_of_pairwise_cons rising h).le

theorem interpolate_after (rising : l.Pairwise (fun a b => a.1 < b.1)) (h : l.getLast? = some (p, v)) (past : p ≤ x) :
    interpolate l x = v := by
  induction l with
  | nil => cases h
  | cons a l ih =>
    cases l with
    | nil =>
      cases h
      rfl
    | cons b l =>
      rw [List.getLast?_cons_cons] at h
      have tail := rising.of_cons
      rw [interpolate_skips rising ((first_le_of_mem tail (List.mem_of_getLast? h)).trans past)]
      exact ih tail h

theorem interpolate_segment (rising : l.Pairwise (fun a b => a.1 < b.1)) {i : Nat} (h : l[i]? = some (p, v))
    (next : l[i + 1]? = some (p', v')) (here : p ≤ x) (before : x < p') :
    interpolate l x = v + ((v' - v) * (x - p)).tdiv (p' - p) := by
  induction i generalizing l with
  | zero =>
    match l, h, next with
    | _ :: _ :: _, rfl, rfl => exact interpolate_between here before
  | succ i ih =>
    match l, h, next with
    | a :: b :: l, h, next =>
      have tail := rising.of_cons
      have reached : b.1 ≤ p := first_le_of_mem tail (List.mem_of_getElem? h)
      rw [interpolate_skips rising (reached.trans here)]
      exact ih tail h next

end

/-! ### A ratcheted right (R94) -/

section
variable (t : List (Int × Int)) (right : Nat) {space : Nat} (p : Int)

theorem ratcheted_without_space : ratcheted (some t) right 0 p = right * (interpolate t 1000).toNat / 1000 := rfl

theorem ratcheted_of_space (h : space ≠ 0) :
    ratcheted (some t) right space p = right * (interpolate t ((p * 1000).tdiv space)).toNat / 1000 := by
  unfold ratcheted
  rw [if_neg h]

end

/-! ### An account confirmed on its own (R95) -/

section
variable {site : Option Site} {a : Account} {n p : Int}

theorem Account.confirm_suspended (h : a.state = .suspended) : a.confirm site n p = (0, .suspended) := if_pos h

theorem Account.confirm_nothing (h : a.state ≠ .suspended) : a.confirm site 0 p = (0, .none) := if_neg h

theorem Account.confirm_injection (h : a.state ≠ .suspended) (hn : 0 < n) :
    let r : Int := ratcheted (site.map Site.injRatchet) a.rin a.space p
    let c := min (min n r) (max 0 (a.space - p))
    a.confirm site n p = (c, if c = n then .none else if c = r then .rate else .space) :=
  (if_neg h).trans (if_pos hn)

theorem Account.confirm_withdrawal (h : a.state ≠ .suspended) (hn : n < 0) :
    let r : Int := ratcheted (site.map Site.wdRatchet) a.rwd a.space p
    let c := min (min (-n) r) (max 0 p)
    a.confirm site n p = (-c, if -c = n then .none else if c = r then .rate else .inventory) :=
  ((if_neg h).trans (if_neg hn.not_gt)).trans (if_pos hn)

/-- What is confirmed has the sign of the nomination and is never more than it. -/
theorem Account.confirm_bounds : (0 ≤ n → 0 ≤ (a.confirm site n p).1 ∧ (a.confirm site n p).1 ≤ n) ∧
    (n ≤ 0 → n ≤ (a.confirm site n p).1 ∧ (a.confirm site n p).1 ≤ 0) := by
  by_cases suspended : a.state = .suspended
  · rw [Account.confirm_suspended suspended]
    exact ⟨fun h => ⟨le_rfl, h⟩, fun h => ⟨h, le_rfl⟩⟩
  · rcases lt_trichotomy n 0 with out | rfl | into
    · rw [Account.confirm_withdrawal suspended out]
      dsimp only
      omega
    · rw [Account.confirm_nothing suspended]
      simp
    · rw [Account.confirm_injection suspended into]
      dsimp only
      omega

end

/-- Settles O37: the table by induction down its points, and the confirmation by the sign of the nomination. -/
theorem confirmationStaysWithinNomination : Obligations.ConfirmationStaysWithinNomination := by
  refine ⟨fun l x rising => ⟨fun p v => interpolate_before, fun p v => interpolate_after rising,
      fun i p v p' v' => interpolate_segment rising⟩,
    fun t right space p => ⟨rfl, ?_, ratcheted_of_space t right p⟩, fun site a n p => ?confirmed⟩
  · rintro rfl
    exact ratcheted_without_space t right p
  case confirmed =>
    intro c why rin rwd
    obtain ⟨upward, downward⟩ := Account.confirm_bounds (site := site) (a := a) (n := n) (p := p)
    refine ⟨fun suspended => ?_, fun live zero => ?_, fun live into => ?_, fun live out => ?_, upward, downward⟩
    · simp only [c, why, Account.confirm_suspended suspended, and_self]
    · simp only [c, why, zero, Account.confirm_nothing live, and_self]
    · simp only [c, why, Account.confirm_injection live into, rin, and_self]
    · simp only [c, why, Account.confirm_withdrawal live out, rwd, Int.neg_neg, and_self]

end Sys2Proof.Machine
end

section
/-! PROOFS. Requests that read the book and the settlement records (R91, R93, R133, R135, R187). -/

namespace Sys2Proof.Machine

/-! ### Requests on an account in range (5.2) -/

theorem onAccount_of_lt {a : Nat} (h : a < 32) (s : State) (l : List (Nat × Bool)) (go : Ev × Answer) :
    onAccount s a l go = judged s l go := by
  rw [onAccount, decide_eq_true h, judged_cons_true]

/-! ### Reads in parts (R187) -/

section
variable {k first count : Nat} {s : State} {go : Ev × Answer}

theorem judged_slotFields (h : 1 ≤ count) (inside : first + count ≤ 48) :
    judged s (slotFields k first count) go = go := by
  have first_lt : first < 48 := by omega
  have count_le : count ≤ 48 := by omega
  exact judged_all (by simp [slotFields, first_lt, count_le, h, inside])

theorem judged_slotFields_first (h : 48 ≤ first) :
    judged s (slotFields k first count) go = (s.ev, .badField k) :=
  judged_first_bad s k _ go h.not_gt

theorem judged_slotFields_count (h : first < 48) (outside : count = 0 ∨ 48 < first + count) :
    judged s (slotFields k first count) go = (s.ev, .badField (k + 1)) := by
  have fails : (decide (1 ≤ count) && decide (count ≤ 48) && decide (first + count ≤ 48)) = false := by
    simp only [Bool.and_eq_false_iff, decide_eq_false_iff_not]
    omega
  rw [slotFields, decide_eq_true h, judged_cons_true, fails, judged_cons_false]

end

theorem takeReadBook_eq {a first count : Nat} (h : a < 32) (s : State) : takeReadBook a first count s =
    judged s (slotFields 2 first count) (answerOnly s ([b1 a, b1 first, b1 (min count 16)] ++
      (List.range' first (min count 16)).flatMap (s.slotReply a))) := by
  rw [takeReadBook, onAccount_of_lt h]
  dsimp only
  rw [slotsAsked, List.length_range']

/-! ### READ_PERIOD (R135, R187) -/

section
variable {number : Nat} {position : Option Nat} {s : State} {r : PeriodRecord}

theorem takeReadPeriod_badPosition (h : 32 ≤ position.getD 0) :
    takeReadPeriod number position s = (s.ev, .badField 2) :=
  judged_first_bad s 2 _ _ h.not_gt

theorem takeReadPeriod_noSuch (h : position.getD 0 < 32) (gone : s.su.ring.find? (·.number == number) = none) :
    takeReadPeriod number position s = (s.ev, .refuse .noSuch) := by
  simp only [takeReadPeriod, decide_eq_true h, judged_cons_true, judged_nil, gone]

theorem takeReadPeriod_found (h : position.getD 0 < 32) (found : s.su.ring.find? (·.number == number) = some r) :
    takeReadPeriod number position s =
      judged s [(2, r.shippers.isEmpty || decide (position.getD 0 < r.shippers.length))]
        (answerOnly s (r.fields (position.getD 0))) := by
  simp only [takeReadPeriod, decide_eq_true h, judged_cons_true, judged_nil, found]

theorem takeReadPeriod_tells (h : position.getD 0 < 32) (found : s.su.ring.find? (·.number == number) = some r)
    (inside : r.shippers = [] ∨ position.getD 0 < r.shippers.length) :
    takeReadPeriod number position s = (s.ev, .ok (r.fields (position.getD 0))) := by
  rw [takeReadPeriod_found h found]
  exact judged_all (by simpa using inside)

theorem takeReadPeriod_outside (found : s.su.ring.find? (·.number == number) = some r)
    (some_shipper : r.shippers ≠ [])
    (outside : r.shippers.length ≤ position.getD 0) :
    takeReadPeriod number position s = (s.ev, .badField 2) := by
  rcases Nat.lt_or_ge (position.getD 0) 32 with h | h
  · have fails : (r.shippers.isEmpty || decide (position.getD 0 < r.shippers.length)) = false := by
      simp [some_shipper, outside]
    rw [takeReadPeriod_found h found, fails, judged_cons_false]
  · exact takeReadPeriod_badPosition h

end

theorem arrived_ring (s : State) (c : Instr) : (s.arrived c).su.ring = s.su.ring := by rw [arrived_su]

/-- Settles O5: each read is judged by its fields, and then answered from the records. -/
theorem bookReadsOnlyTell : Obligations.BookReadsOnlyTell := by
  intro s e t a f n p r
  refine ⟨fun h some_slot inside => ?_, fun h => ⟨fun out => ?_, fun first out => ?_⟩, fun h ha => ?_,
    fun h ha some_slot inside => ?_, fun h ha => ⟨fun out => ?_, fun first out => ?_⟩, fun h => tells_of rfl h rfl,
    fun h found inside hp => ?_, fun h found empty => ?_,
    fun h => ⟨fun out => ?_, fun hp gone => ?_, fun found some_shipper outside => ?_⟩⟩
  · exact tells_of rfl h (judged_slotFields some_slot inside)
  · exact refuses_of rfl h (judged_slotFields_first out)
  · exact refuses_of rfl h (judged_slotFields_count first out)
  · exact tells_of rfl h (onAccount_of_lt ha _ _ _)
  · exact tells_of rfl h ((takeReadBook_eq ha _).trans (judged_slotFields some_slot inside))
  · exact refuses_of rfl h ((takeReadBook_eq ha _).trans (judged_slotFields_first out))
  · exact refuses_of rfl h ((takeReadBook_eq ha _).trans (judged_slotFields_count first out))
  · exact tells_of rfl h (takeReadPeriod_tells hp (by rw [arrived_ring, found]) (.inr inside))
  · exact tells_of rfl h (takeReadPeriod_tells (position := none) (by decide) (by rw [arrived_ring, found])
      (.inl empty))
  · exact refuses_of rfl h (takeReadPeriod_badPosition out)
  · exact refuses_of rfl h (takeReadPeriod_noSuch hp (by rw [arrived_ring, gone]))
  · exact refuses_of rfl h (takeReadPeriod_outside (by rw [arrived_ring, found]) some_shipper outside)

end Sys2Proof.Machine
end

section
/-! PROOFS. Accounts opened, suspended, resumed and closed (R83, R85 to R87). -/

namespace Sys2Proof.Machine

/-! ### Verdicts in ascending order -/

/-- Where the failing verdicts are those of the fields that offend, the least of these is refused. -/
theorem judged_least {l : List (Nat × Bool)} {bad : Nat → Prop} (fails : ∀ k, (k, false) ∈ l ↔ bad k)
    (ascending : (l.map Prod.fst).Pairwise (· < ·)) (small : ∀ k ∈ l.map Prod.fst, k ≤ 255)
    {k : Nat} (h : bad k)
    (first : ∀ j, j < k → ¬bad j) (s : State) (go : Ev × Answer) :
    judged s l go = (s.ev, .no .badField ⟨.field, k⟩) := by
  have here := (fails k).2 h
  have carried : min k 255 = k := Nat.min_eq_left (small k (List.mem_map_of_mem (f := Prod.fst) here))
  rw [judged_firstBad ascending here fun j hj => mt (fails j).1 (first j hj), Answer.badField, carried]

/-- Where no field offends the request goes on. -/
theorem judged_none {l : List (Nat × Bool)} {bad : Nat → Prop} (fails : ∀ k, (k, false) ∈ l ↔ bad k)
    (allowed : ∀ k, ¬bad k) (s : State) (go : Ev × Answer) : judged s l go = go :=
  judged_all ((all_pass_iff l).2 fun k => mt (fails k).1 (allowed k))

/-! ### OPEN_ACCOUNT (R83) -/

section
variable {a code cls space rin rwd : Nat} {s : State}

@[simp] theorem arrived_codeFree (s : State) (c : Instr) : (s.arrived c).codeFree = s.codeFree := by
  funext a code
  simp [State.codeFree, State.isClosed]

theorem codeFree_eq_false_iff : s.codeFree a code = false ↔ code = 0 ∨ 65535 < code ∨
    ∃ b, b < 32 ∧ b ≠ a ∧ (s.account b).state ≠ .closed ∧ (s.account b).code = code := by
  simp only [State.codeFree, State.isClosed, Bool.and_eq_false_iff, bne_eq_false_iff_eq, decide_eq_false_iff_not,
    not_le, Bool.not_eq_false', List.any_eq_true, List.mem_range, Bool.and_eq_true, bne_iff_ne, Bool.not_eq_true',
    beq_eq_false_iff_ne, beq_iff_eq, or_assoc, and_assoc, ne_eq]

theorem classOfCode_isSome_eq_false_iff : (classOfCode cls).isSome = false ↔ 2 ≤ cls :=
  match cls with
  | 0 | 1 => by decide
  | n + 2 => by simp [classOfCode]

/-- The verdicts on the fields of an OPEN_ACCOUNT after its index. -/
def State.openVerdicts (s : State) (a code cls space rin rwd : Nat) : List (Nat × Bool) :=
  [(2, s.codeFree a code), (3, (classOfCode cls).isSome), (4, decide (space ≤ Config.maxInventory)),
    (5, decide (rin ≤ Config.maxRate)), (6, decide (rwd ≤ Config.maxRate))]

/-- Field `i` of an OPEN_ACCOUNT is out of range, or a code that is 0 or held by another account. -/
def State.openOffends (s : State) (a code cls space rin rwd i : Nat) : Prop :=
  (i = 2 ∧ (code = 0 ∨ 65535 < code ∨
    ∃ b, b < 32 ∧ b ≠ a ∧ (s.account b).state ≠ .closed ∧ (s.account b).code = code)) ∨
  (i = 3 ∧ 2 ≤ cls) ∨ (i = 4 ∧ 4000000000 < space) ∨ (i = 5 ∧ 99999999 < rin) ∨ (i = 6 ∧ 99999999 < rwd)

theorem mem_openVerdicts (i : Nat) :
    (i, false) ∈ s.openVerdicts a code cls space rin rwd ↔ s.openOffends a code cls space rin rwd i := by
  simp only [State.openVerdicts, State.openOffends, List.mem_cons, Prod.mk.injEq, List.not_mem_nil, or_false,
    eq_comm (a := false), codeFree_eq_false_iff, classOfCode_isSome_eq_false_iff, decide_eq_false_iff_not, not_le]
  exact Iff.rfl

theorem arrived_openOffends (s : State) (c : Instr) : (s.arrived c).openOffends = s.openOffends := by
  funext
  simp only [State.openOffends, arrived_account]

theorem takeOpenAccount_closed (ha : a < 32) (h : (s.account a).state = .closed) :
    takeOpenAccount a code cls space rin rwd s = judged s (s.openVerdicts a code cls space rin rwd)
      (accountDone a (s.ev.map fun t => t.updAccount a fun _ =>
        { state := .opened, code := code, cls := (classOfCode cls).getD .firm, space := space, rin := rin, rwd := rwd
          mark := true })) := by
  have closed : s.isClosed a = true := by simp [State.isClosed, h]
  rw [takeOpenAccount, onAccount_of_lt ha, judged_nil, closed]
  rfl

theorem takeOpenAccount_wrongState (ha : a < 32) (h : (s.account a).state ≠ .closed) :
    takeOpenAccount a code cls space rin rwd s = (s.ev, .refuse .wrongState) := by
  have live : s.isClosed a = false := by simp [State.isClosed, h]
  rw [takeOpenAccount, onAccount_of_lt ha, judged_nil, live]
  rfl

end

/-! ### SUSPEND_ACCOUNT and RESUME_ACCOUNT (R85, R86) -/

section
variable {a : Nat} {s : State}

theorem takeSuspendAccount_opened (ha : a < 32) (h : (s.account a).state = .opened) :
    takeSuspendAccount a s = accountDone a (changeAccountState a .suspended s) := by
  simp only [takeSuspendAccount, onAccount_of_lt ha, judged_nil, h]

theorem takeSuspendAccount_suspended (ha : a < 32) (h : (s.account a).state = .suspended) :
    takeSuspendAccount a s = accountDone a s.ev := by
  simp only [takeSuspendAccount, onAccount_of_lt ha, judged_nil, h]

theorem takeSuspendAccount_closed (ha : a < 32) (h : (s.account a).state = .closed) :
    takeSuspendAccount a s = (s.ev, .refuse .wrongState) := by
  simp only [takeSuspendAccount, onAccount_of_lt ha, judged_nil, h]

theorem takeResumeAccount_suspended (ha : a < 32) (h : (s.account a).state = .suspended) :
    takeResumeAccount a s = accountDone a (changeAccountState a .opened s) := by
  simp only [takeResumeAccount, onAccount_of_lt ha, judged_nil, h]

theorem takeResumeAccount_opened (ha : a < 32) (h : (s.account a).state = .opened) :
    takeResumeAccount a s = accountDone a s.ev := by
  simp only [takeResumeAccount, onAccount_of_lt ha, judged_nil, h]

theorem takeResumeAccount_closed (ha : a < 32) (h : (s.account a).state = .closed) :
    takeResumeAccount a s = (s.ev, .refuse .wrongState) := by
  simp only [takeResumeAccount, onAccount_of_lt ha, judged_nil, h]

/-! ### CLOSE_ACCOUNT (R87) -/

theorem cannotClose_closed (h : (s.account a).state = .closed) : s.cannotClose a = some ⟨.condition, 6⟩ := if_pos h

theorem cannotClose_inventory (h : (s.account a).state ≠ .closed) (k : (s.account a).inventory ≠ 0) :
    s.cannotClose a = some ⟨.condition, 7⟩ := (if_neg h).trans (if_pos k)

theorem cannotClose_slots (h : (s.account a).state ≠ .closed) (k : (s.account a).inventory = 0) :
    s.cannotClose a = ((List.range' s.acb.running (48 - s.acb.running)).find? fun j =>
      ((s.account a).slot j).c != 0).map fun j => ⟨.slot, j⟩ := (if_neg h).trans (if_neg (not_not.2 k))

theorem cannotClose_slot (h : (s.account a).state ≠ .closed) (k : (s.account a).inventory = 0) {j : Nat}
    (low : s.acb.running ≤ j) (high : j < 48) (confirmed : ((s.account a).slot j).c ≠ 0)
    (first : ∀ i, s.acb.running ≤ i → i < j → ((s.account a).slot i).c = 0) :
    s.cannotClose a = some ⟨.slot, j⟩ := by
  have found : ((List.range' s.acb.running (48 - s.acb.running)).find? fun i => ((s.account a).slot i).c != 0) =
      some j := by
    rw [List.find?_range'_eq_some, List.mem_range'_1]
    exact ⟨by simpa using confirmed, ⟨low, by omega⟩, fun i low before => by simp [first i low before]⟩
  rw [cannotClose_slots h k, found]
  rfl

theorem cannotClose_none (h : (s.account a).state ≠ .closed) (k : (s.account a).inventory = 0)
    (empty : ∀ j, s.acb.running ≤ j → j < 48 → ((s.account a).slot j).c = 0) : s.cannotClose a = none := by
  have nothing : ((List.range' s.acb.running (48 - s.acb.running)).find? fun i => ((s.account a).slot i).c != 0) =
      none := by
    rw [List.find?_eq_none]
    intro j hj
    obtain ⟨low, high⟩ := List.mem_range'_1.1 hj
    simp [empty j low (by omega)]
  rw [cannotClose_slots h k, nothing]
  rfl

theorem takeCloseAccount_refused (ha : a < 32) {d : Detail} (h : s.cannotClose a = some d) :
    takeCloseAccount a s = (s.ev, .no .wrongState d) := by
  simp only [takeCloseAccount, onAccount_of_lt ha, judged_nil, h]

theorem takeCloseAccount_closes (ha : a < 32) (h : s.cannotClose a = none) : takeCloseAccount a s =
    accountDone a (s.ev.map fun t => (t.updAccount a fun r =>
      { r with
        state := .closed, code := 0, space := 0, rin := 0, rwd := 0, fuel := 0, book := emptyBook
        mark := true }).disarm) := by
  simp only [takeCloseAccount, onAccount_of_lt ha, judged_nil, h]

@[simp] theorem arrived_cannotClose (s : State) (c : Instr) : (s.arrived c).cannotClose = s.cannotClose := by
  funext a
  simp [State.cannotClose]

end

/-- Settles O34: the requests by the account's state, and their refusals by the first field or condition that fails. -/
theorem accountsOpenSuspendAndClose : Obligations.AccountsOpenSuspendAndClose := by
  intro s e t a code cls space rin rwd k ha
  refine ⟨fun h closed free kind hs hi hw => ?opens, fun h => ?openRefused,
    fun h => ⟨fun st => ?_, fun st => ?_, fun st => ?_⟩, fun h => ⟨fun st => ?_, fun st => ?_, fun st => ?_⟩,
    fun h => ⟨fun st => ?_, fun st held => ?_, fun st held j low high confirmed first => ?_,
      fun st held empty => ?_⟩⟩
  case opens =>
    have pass : ((s.arrived (.openAccount t a code cls space rin rwd)).openVerdicts a code cls space rin rwd).all
        Prod.snd = true := by
      simp [State.openVerdicts, free, kind, Config.maxInventory, Config.maxRate, hs, hi, hw]
    refine completes_of rfl h ((takeOpenAccount_closed ha (by simpa using closed)).trans ((judged_all pass).trans ?_))
    rw [kind]
    rfl
  case openRefused =>
    intro bad
    refine ⟨fun busy => ?_, fun closed i hi first => ?_⟩
    · exact refuses_of rfl h (takeOpenAccount_wrongState ha (by simpa using busy))
    · refine refuses_of rfl h ((takeOpenAccount_closed ha (by simpa using closed)).trans
        (judged_least mem_openVerdicts (by simp [State.openVerdicts]) (by simp [State.openVerdicts]) ?_ ?_ _ _))
      · rw [arrived_openOffends]
        exact hi
      · rw [arrived_openOffends]
        exact first
  · exact completes_of rfl h (takeSuspendAccount_opened ha (by simpa using st))
  · exact completes_of rfl h (takeSuspendAccount_suspended ha (by simpa using st))
  · exact refuses_of rfl h (takeSuspendAccount_closed ha (by simpa using st))
  · exact completes_of rfl h (takeResumeAccount_suspended ha (by simpa using st))
  · exact completes_of rfl h (takeResumeAccount_opened ha (by simpa using st))
  · exact refuses_of rfl h (takeResumeAccount_closed ha (by simpa using st))
  · exact refuses_of rfl h (takeCloseAccount_refused ha (by rw [arrived_cannotClose, cannotClose_closed st]))
  · exact refuses_of rfl h (takeCloseAccount_refused ha (by rw [arrived_cannotClose, cannotClose_inventory st held]))
  · exact refuses_of rfl h (takeCloseAccount_refused ha
      (by rw [arrived_cannotClose, cannotClose_slot st held low high confirmed first]))
  · exact completes_of rfl h (takeCloseAccount_closes ha (by rw [arrived_cannotClose, cannotClose_none st held empty]))

end Sys2Proof.Machine
end

section
/-! PROOFS. The book readied, inventories loaded and transferred, and rights set (R81, R84, R88, R89). -/

namespace Sys2Proof.Machine

section
variable {a b q space rin rwd : Nat} {s : State}

theorem isClosed_eq_false (h : (s.account a).state ≠ .closed) : s.isClosed a = false := by simp [State.isClosed, h]

/-! ### ACCOUNTS_READY (R81, R139) -/

theorem takeAccountsReady_unset (h : s.mu.set = false) : takeAccountsReady s = (s.ev, .refuse .clockUnset) := by
  rw [takeAccountsReady, h]
  rfl

theorem takeAccountsReady_loaded (h : s.mu.set = true) (k : s.acb.loaded = true) :
    takeAccountsReady s = (s.ev, .ok s.bookReply) := by
  simp only [takeAccountsReady, h, k, Bool.not_true, refuseIf_false, if_true, State.ev_s]

theorem takeAccountsReady_unloaded (h : s.mu.set = true) (k : s.acb.loaded = false) : takeAccountsReady s =
    (reconfirm s.acb.running s.loadBook.ev, .ok (reconfirm s.acb.running s.loadBook.ev).s.bookReply) := by
  simp only [takeAccountsReady, h, k, Bool.not_true, refuseIf_false, if_false, Bool.false_eq_true]

/-! ### LOAD_INVENTORY (R84) -/

theorem takeLoadInventory_badQuantity (ha : a < 32) (h : 4000000000 < q) :
    takeLoadInventory a q s = (s.ev, .badField 2) := by
  have large : ¬q ≤ Config.maxInventory := h.not_ge
  rw [takeLoadInventory, onAccount_of_lt ha, judged_first_bad _ _ _ _ large]

theorem takeLoadInventory_eq (ha : a < 32) (h : q ≤ 4000000000) : takeLoadInventory a q s =
    refuseIf s (s.acb.loaded || s.isClosed a) (.refuse .wrongState)
      (refuseIf s ((s.account a).space < q) (.refuse .noSpace)
        (accountDone a (reconfirm s.acb.running (setInventory a q (s.mark a).ev)))) := by
  have allowed : q ≤ Config.maxInventory := h
  rw [takeLoadInventory, onAccount_of_lt ha, decide_eq_true allowed, judged_cons_true, judged_nil]

theorem takeLoadInventory_wrongState (ha : a < 32) (h : q ≤ 4000000000)
    (k : s.acb.loaded = true ∨ (s.account a).state = .closed) :
    takeLoadInventory a q s = (s.ev, .refuse .wrongState) := by
  have wrong : (s.acb.loaded || s.isClosed a) = true := by simpa [State.isClosed] using k
  rw [takeLoadInventory_eq ha h, wrong, refuseIf_true]

theorem takeLoadInventory_fits (ha : a < 32) (h : q ≤ 4000000000) (unloaded : s.acb.loaded = false)
    (live : (s.account a).state ≠ .closed) : takeLoadInventory a q s =
      refuseIf s ((s.account a).space < q) (.refuse .noSpace)
        (accountDone a (reconfirm s.acb.running (setInventory a q (s.mark a).ev))) := by
  rw [takeLoadInventory_eq ha h, unloaded, isClosed_eq_false live, Bool.or_self, refuseIf_false]

/-! ### SET_RIGHTS (R88) -/

/-- The verdicts on the fields of a SET_RIGHTS after its index. -/
def rightsVerdicts (space rin rwd : Nat) : List (Nat × Bool) :=
  [(2, decide (space ≤ Config.maxInventory)), (3, decide (rin ≤ Config.maxRate)),
   (4, decide (rwd ≤ Config.maxRate))]

/-- Field `i` of a SET_RIGHTS is out of range. -/
def rightsOffend (space rin rwd i : Nat) : Prop :=
  (i = 2 ∧ 4000000000 < space) ∨ (i = 3 ∧ 99999999 < rin) ∨ (i = 4 ∧ 99999999 < rwd)

theorem mem_rightsVerdicts (i : Nat) : (i, false) ∈ rightsVerdicts space rin rwd ↔
    rightsOffend space rin rwd i := by
  simp only [rightsVerdicts, rightsOffend, List.mem_cons, Prod.mk.injEq, List.not_mem_nil, or_false,
    eq_comm (a := false), decide_eq_false_iff_not, not_le]
  exact Iff.rfl

/-- A space right is below the inventory now, or at the hour's end (R88). -/
def State.tooSmall (s : State) (a space : Nat) : Prop :=
  (space : Int) < (s.account a).inventory ∨ (space : Int) < (s.account a).inventory + s.runningC a

theorem takeSetRights_closed (ha : a < 32) (h : (s.account a).state = .closed) :
    takeSetRights a space rin rwd s = (s.ev, .refuse .wrongState) := by
  have closed : s.isClosed a = true := by simp [State.isClosed, h]
  rw [takeSetRights, onAccount_of_lt ha, judged_nil, closed, refuseIf_true]

theorem takeSetRights_live (ha : a < 32) (h : (s.account a).state ≠ .closed) : takeSetRights a space rin rwd s =
    judged s (rightsVerdicts space rin rwd)
      (refuseIf s ((space : Int) < (s.account a).inventory || (space : Int) < (s.account a).inventory + s.runningC a)
        (.refuse .noSpace)
        (accountDone a (reconfirm s.firstOpen (s.updAccount a fun r =>
          { r with space := space, rin := rin, rwd := rwd, mark := true }).ev))) := by
  rw [takeSetRights, onAccount_of_lt ha, judged_nil, isClosed_eq_false h, refuseIf_false]
  rfl

theorem takeSetRights_offends (ha : a < 32) (h : (s.account a).state ≠ .closed) {i : Nat}
    (bad : rightsOffend space rin rwd i) (first : ∀ j, j < i → ¬rightsOffend space rin rwd j) :
    takeSetRights a space rin rwd s = (s.ev, .no .badField ⟨.field, i⟩) := by
  rw [takeSetRights_live ha h]
  exact judged_least mem_rightsVerdicts (by simp [rightsVerdicts]) (by simp [rightsVerdicts]) bad first _ _

theorem takeSetRights_noSpace (ha : a < 32) (h : (s.account a).state ≠ .closed)
    (fields : ∀ i, ¬rightsOffend space rin rwd i) (small : s.tooSmall a space) :
    takeSetRights a space rin rwd s = (s.ev, .refuse .noSpace) := by
  have lacks : (decide ((space : Int) < (s.account a).inventory) ||
      decide ((space : Int) < (s.account a).inventory + s.runningC a)) = true := by
    simpa [State.tooSmall] using small
  rw [takeSetRights_live ha h, judged_none mem_rightsVerdicts fields, lacks, refuseIf_true]

theorem takeSetRights_sets (ha : a < 32) (h : (s.account a).state ≠ .closed)
    (fields : ∀ i, ¬rightsOffend space rin rwd i) (fits : ¬s.tooSmall a space) : takeSetRights a space rin rwd s =
    accountDone a (reconfirm s.firstOpen (s.updAccount a fun r =>
      { r with space := space, rin := rin, rwd := rwd, mark := true }).ev) := by
  have room : (decide ((space : Int) < (s.account a).inventory) ||
      decide ((space : Int) < (s.account a).inventory + s.runningC a)) = false := by
    simpa [State.tooSmall] using fits
  rw [takeSetRights_live ha h, judged_none mem_rightsVerdicts fields, room, refuseIf_false]

@[simp] theorem arrived_runningC (s : State) (c : Instr) : (s.arrived c).runningC = s.runningC := by
  funext a
  simp [State.runningC]

@[simp] theorem arrived_tooSmall (s : State) (c : Instr) : (s.arrived c).tooSmall = s.tooSmall := by
  funext a space
  simp [State.tooSmall]

/-! ### TRANSFER (R89) -/

theorem takeTransfer_badDestination (ha : a < 32) (h : 32 ≤ b ∨ b = a) :
    takeTransfer a b q s = (s.ev, .badField 2) := by
  have wrong : (decide (b < 32) && b != a) = false := by
    rwa [Bool.and_eq_false_iff, decide_eq_false_iff_not, not_lt, bne_eq_false_iff_eq]
  rw [takeTransfer, decide_eq_true ha, judged_cons_true, wrong, judged_cons_false]

theorem takeTransfer_badQuantity (ha : a < 32) (hb : b < 32) (other : b ≠ a) (h : q = 0 ∨ 4000000000 < q) :
    takeTransfer a b q s = (s.ev, .badField 3) := by
  have out : ¬(1 ≤ q ∧ q ≤ Config.maxInventory) := by
    simp only [Config.maxInventory]
    omega
  have wrong : (decide (1 ≤ q) && decide (q ≤ Config.maxInventory)) = false := by
    rw [← Bool.decide_and, decide_eq_false out]
  simp only [takeTransfer, decide_eq_true ha, decide_eq_true hb, bne_iff_ne.2 other, Bool.and_self, judged_cons_true,
    wrong, judged_cons_false]

theorem takeTransfer_eq (ha : a < 32) (hb : b < 32) (other : b ≠ a) (low : 1 ≤ q) (high : q ≤ 4000000000) :
    takeTransfer a b q s =
      refuseIf s ((s.account a).state != .opened || (s.account b).state != .opened) (.refuse .wrongState)
        (refuseIf s (s.cannotGive a q) (.refuse .insufficient)
          (refuseIf s (s.cannotTake b q) (.refuse .noSpace)
            (reconfirm s.firstOpen (moveInventory a b q s),
              .ok ((reconfirm s.firstOpen (moveInventory a b q s)).s.accountReply a ++
                (reconfirm s.firstOpen (moveInventory a b q s)).s.accountReply b)))) := by
  have high' : q ≤ Config.maxInventory := high
  exact judged_all (by simp [ha, hb, other, low, high'])

theorem takeTransfer_wrongState (ha : a < 32) (hb : b < 32) (other : b ≠ a) (low : 1 ≤ q) (high : q ≤ 4000000000)
    (h : (s.account a).state ≠ .opened ∨ (s.account b).state ≠ .opened) :
    takeTransfer a b q s = (s.ev, .refuse .wrongState) := by
  have wrong : ((s.account a).state != .opened || (s.account b).state != .opened) = true := by simpa using h
  rw [takeTransfer_eq ha hb other low high, wrong, refuseIf_true]

theorem takeTransfer_opened (ha : a < 32) (hb : b < 32) (other : b ≠ a) (low : 1 ≤ q) (high : q ≤ 4000000000)
    (source : (s.account a).state = .opened) (dest : (s.account b).state = .opened) : takeTransfer a b q s =
      refuseIf s (s.cannotGive a q) (.refuse .insufficient)
        (refuseIf s (s.cannotTake b q) (.refuse .noSpace)
          (reconfirm s.firstOpen (moveInventory a b q s),
            .ok ((reconfirm s.firstOpen (moveInventory a b q s)).s.accountReply a ++
              (reconfirm s.firstOpen (moveInventory a b q s)).s.accountReply b))) := by
  rw [takeTransfer_eq ha hb other low high, source, dest]
  rfl

@[simp] theorem arrived_cannotGive (s : State) (c : Instr) : (s.arrived c).cannotGive = s.cannotGive := by
  funext a q
  simp [State.cannotGive]

@[simp] theorem arrived_cannotTake (s : State) (c : Instr) : (s.arrived c).cannotTake = s.cannotTake := by
  funext a q
  simp [State.cannotTake]

end

/-- Settles O35: each request goes down its refusals in their order, and then does what its rule says. -/
theorem bookIsReadiedAndInventoriesMove : Obligations.BookIsReadiedAndInventoriesMove := by
  intro s e t a b q space rin rwd ha
  refine ⟨fun h => ⟨fun unset => ?_, fun clockSet loaded => ?_, fun clockSet unloaded => ?_⟩,
    fun h hq unloaded live fits => ?loads,
    fun h => ⟨fun large => ?_, fun hq wrong => ?_, fun hq unloaded live small => ?_⟩,
    fun h live hs hi hw now later => ?sets, fun h => ?rightsRefused, fun h => ⟨fun dest => ?_, fun hb other hq => ?_,
      fun hb other low high => ⟨fun wrong => ?_, fun source dest => ?transferRefused⟩⟩,
    fun h hb other low high source dest gives fits => ?moves⟩
  · exact refuses_of rfl h (takeAccountsReady_unset (by simpa using unset))
  · exact completes_of rfl h (takeAccountsReady_loaded (by simpa using clockSet) (by simpa using loaded))
  · exact completes_of rfl h (takeAccountsReady_unloaded (by simpa using clockSet) (by simpa using unloaded))
  case loads =>
    refine completes_of rfl h ((takeLoadInventory_fits ha hq (by simpa using unloaded) (by simpa using live)).trans ?_)
    rw [arrived_account, decide_eq_false fits.not_gt]
    rfl
  · exact refuses_of rfl h (takeLoadInventory_badQuantity ha large)
  · exact refuses_of rfl h (takeLoadInventory_wrongState ha hq (by simpa using wrong))
  · refine refuses_of rfl h ((takeLoadInventory_fits ha hq (by simpa using unloaded) (by simpa using live)).trans ?_)
    rw [arrived_account, decide_eq_true small]
    rfl
  case sets =>
    have fields (i : Nat) : ¬rightsOffend space rin rwd i := by
      rw [rightsOffend]
      omega
    have fits : ¬s.tooSmall a space := not_or.2 ⟨now.not_gt, later.not_gt⟩
    exact completes_of rfl h (takeSetRights_sets ha (by simpa using live) fields (by rwa [arrived_tooSmall]))
  case rightsRefused =>
    intro bad
    refine ⟨fun closed => ?_, fun live => ⟨fun i hi first => ?_, fun fields small => ?_⟩⟩
    · exact refuses_of rfl h (takeSetRights_closed ha (by simpa using closed))
    · exact refuses_of rfl h (takeSetRights_offends ha (by simpa using live) hi first)
    · exact refuses_of rfl h (takeSetRights_noSpace ha (by simpa using live) fields (by rwa [arrived_tooSmall]))
  · exact refuses_of rfl h (takeTransfer_badDestination ha dest)
  · exact refuses_of rfl h (takeTransfer_badQuantity ha hb other hq)
  · exact refuses_of rfl h (takeTransfer_wrongState ha hb other low high (by simpa using wrong))
  case transferRefused =>
    intro promised
    have opened : takeTransfer a b q (s.arrived (.transfer t a b q)) = _ :=
      takeTransfer_opened ha hb other low high (by simpa using source) (by simpa using dest)
    rw [arrived_cannotGive, arrived_cannotTake] at opened
    refine ⟨fun lacks => ?_, fun gives full => ?_⟩
    · have cannot : s.cannotGive a q = true := decide_eq_true lacks
      exact refuses_of rfl h (opened.trans (by rw [cannot, refuseIf_true]; rfl))
    · have can : s.cannotGive a q = false := decide_eq_false gives.not_gt
      have cannot : s.cannotTake b q = true := decide_eq_true full
      exact refuses_of rfl h (opened.trans (by rw [can, refuseIf_false, cannot, refuseIf_true]; rfl))
  case moves =>
    have give : s.cannotGive a q = false := decide_eq_false gives.not_gt
    have take : s.cannotTake b q = false := decide_eq_false fits.not_gt
    refine completes_of rfl h ((takeTransfer_opened ha hb other low high (by simpa using source)
      (by simpa using dest)).trans ?_)
    rw [arrived_cannotGive, arrived_cannotTake, give, take, refuseIf_false, refuseIf_false, moveInventory,
      arrived_account]
    rfl

end Sys2Proof.Machine
end

section
/-! PROOFS. Nominations and capacities (R90 to R92), and a SITE group that reaches the book (R91, R99, R101, R102). -/

namespace Sys2Proof.Machine

/-! ### NOMINATE (R90) -/

section
variable {a k inj wd : Nat} {n : Int} {s : State}

/-- The verdicts on the fields of a NOMINATE. -/
def nominateVerdicts (a k : Nat) (n : Int) : List (Nat × Bool) :=
  [(1, decide (a < 32)), (2, decide (k < 48)), (3, decide (n.natAbs ≤ Config.maxRate))]

/-- Field `i` of a NOMINATE is out of range. -/
def nominateOffends (a k : Nat) (n : Int) (i : Nat) : Prop :=
  (i = 1 ∧ 32 ≤ a) ∨ (i = 2 ∧ 48 ≤ k) ∨ (i = 3 ∧ 99999999 < n.natAbs)

theorem mem_nominateVerdicts (i : Nat) : (i, false) ∈ nominateVerdicts a k n ↔ nominateOffends a k n i := by
  simp only [nominateVerdicts, nominateOffends, List.mem_cons, Prod.mk.injEq, List.not_mem_nil, or_false,
    eq_comm (a := false), decide_eq_false_iff_not, not_le, not_lt]
  exact Iff.rfl

theorem takeNominate_unset (h : s.mu.set = false) : takeNominate a k n s = (s.ev, .refuse .clockUnset) := by
  rw [takeNominate, h]
  rfl

theorem takeNominate_set (h : s.mu.set = true) : takeNominate a k n s = judged s (nominateVerdicts a k n)
    (refuseIf s ((s.account a).state != .opened) (.refuse .wrongState)
      (refuseIf s (k < s.acb.running + s.leadTime) (.refuse .tooLate)
        (reconfirm k (s.nominated a k n).ev,
          .ok [b1 a, b1 k, i4 n, i4 (((reconfirm k (s.nominated a k n).ev).s.account a).slot k).c,
            b1 (((reconfirm k (s.nominated a k n).ev).s.account a).slot k).reason.code]))) := by
  rw [takeNominate, h]
  rfl

theorem takeNominate_offends (h : s.mu.set = true) {i : Nat} (bad : nominateOffends a k n i)
    (first : ∀ j, j < i → ¬nominateOffends a k n j) :
    takeNominate a k n s = (s.ev, .no .badField ⟨.field, i⟩) := by
  rw [takeNominate_set h]
  exact judged_least mem_nominateVerdicts (by simp [nominateVerdicts]) (by simp [nominateVerdicts]) bad first _ _

theorem takeNominate_wrongState (h : s.mu.set = true) (fields : ∀ i, ¬nominateOffends a k n i)
    (live : (s.account a).state ≠ .opened) : takeNominate a k n s = (s.ev, .refuse .wrongState) := by
  rw [takeNominate_set h, judged_none mem_nominateVerdicts fields, bne_iff_ne.2 live, refuseIf_true]

theorem takeNominate_opened (h : s.mu.set = true) (fields : ∀ i, ¬nominateOffends a k n i)
    (live : (s.account a).state = .opened) : takeNominate a k n s =
      refuseIf s (k < s.acb.running + s.leadTime) (.refuse .tooLate)
        (reconfirm k (s.nominated a k n).ev,
          .ok [b1 a, b1 k, i4 n, i4 (((reconfirm k (s.nominated a k n).ev).s.account a).slot k).c,
            b1 (((reconfirm k (s.nominated a k n).ev).s.account a).slot k).reason.code]) := by
  rw [takeNominate_set h, judged_none mem_nominateVerdicts fields, live]
  rfl

/-! ### DECLARE_CAPACITY (R91) -/

/-- The verdicts on the fields of a DECLARE_CAPACITY. -/
def declareVerdicts (k inj wd : Nat) : List (Nat × Bool) :=
  [(1, decide (k < 48)), (2, decide (inj ≤ Config.maxRate)), (3, decide (wd ≤ Config.maxRate))]

/-- Field `i` of a DECLARE_CAPACITY is out of range. -/
def declareOffends (k inj wd i : Nat) : Prop :=
  (i = 1 ∧ 48 ≤ k) ∨ (i = 2 ∧ 99999999 < inj) ∨ (i = 3 ∧ 99999999 < wd)

theorem mem_declareVerdicts (i : Nat) : (i, false) ∈ declareVerdicts k inj wd ↔ declareOffends k inj wd i := by
  simp only [declareVerdicts, declareOffends, List.mem_cons, Prod.mk.injEq, List.not_mem_nil, or_false,
    eq_comm (a := false), decide_eq_false_iff_not, not_le, not_lt]
  exact Iff.rfl

/-- A capacity slot takes declared values (R91). -/
def State.declared (s : State) (k inj wd : Nat) : State :=
  { s with acb := { s.acb with caps := s.acb.caps.modify k fun _ => { inj := inj, wd := wd, declared := true } } }

theorem takeDeclareCapacity_unset (h : s.mu.set = false) :
    takeDeclareCapacity k inj wd s = (s.ev, .refuse .clockUnset) := by
  rw [takeDeclareCapacity, h]
  rfl

theorem takeDeclareCapacity_set (h : s.mu.set = true) : takeDeclareCapacity k inj wd s =
    judged s (declareVerdicts k inj wd) (refuseIf s (k ≤ s.acb.running) (.refuse .tooLate)
      (reconfirm k (s.declared k inj wd).ev,
        .ok [b1 k, b4 inj, b4 wd, i8 ((reconfirm k (s.declared k inj wd).ev).s.netConfirmed k)])) := by
  rw [takeDeclareCapacity, h]
  rfl

theorem takeDeclareCapacity_offends (h : s.mu.set = true) {i : Nat} (bad : declareOffends k inj wd i)
    (first : ∀ j, j < i → ¬declareOffends k inj wd j) :
    takeDeclareCapacity k inj wd s = (s.ev, .no .badField ⟨.field, i⟩) := by
  rw [takeDeclareCapacity_set h]
  exact judged_least mem_declareVerdicts (by simp [declareVerdicts]) (by simp [declareVerdicts]) bad first _ _

theorem takeDeclareCapacity_allowed (h : s.mu.set = true) (fields : ∀ i, ¬declareOffends k inj wd i) :
    takeDeclareCapacity k inj wd s = refuseIf s (k ≤ s.acb.running) (.refuse .tooLate)
      (reconfirm k (s.declared k inj wd).ev,
        .ok [b1 k, b4 inj, b4 wd, i8 ((reconfirm k (s.declared k inj wd).ev).s.netConfirmed k)]) := by
  rw [takeDeclareCapacity_set h, judged_none mem_declareVerdicts fields]

end

/-! ### A SITE group reaches the book (R101) -/

/-- The start hour differs from that of the group before under an UNLOADED book, by the start hour the book is brought
to (log entry 28). -/
def State.hourShifts (s : State) (old : Option Site) : Prop :=
  (old.map Site.startHour).getD 6 ≠ s.startHour ∧ s.acb.loaded = false

/-- The book as a SITE group finds it once its start hour has been followed (R101). -/
def State.broughtToHour (s : State) (old : Option Site) : State :=
  if (((old.map Site.startHour).getD Config.startHourInvalid != s.startHour) && !s.acb.loaded) = true
    then s.newStartHour
  else s

theorem newStartHour_eq (s : State) : s.newStartHour = { s with acb :=
    { s.acb with
      running := if s.mu.set then slotOfClock s.startHour s.clock else s.acb.running
      accounts := s.acb.accounts.map Account.emptied
      caps := List.replicate 48 s.nominal } } := by
  unfold State.newStartHour
  dsimp only
  split <;> rfl

section
variable {s : State} {old : Option Site}

theorem shifts_iff :
    (((old.map Site.startHour).getD Config.startHourInvalid != s.startHour) && !s.acb.loaded) = true ↔
    s.hourShifts old := by
  simp only [Bool.and_eq_true, bne_iff_ne, Bool.not_eq_true', State.hourShifts, Config.startHourInvalid]

theorem broughtToHour_shifts (h : s.hourShifts old) : s.broughtToHour old = s.newStartHour := if_pos (shifts_iff.2 h)

theorem broughtToHour_stays (h : ¬s.hourShifts old) : s.broughtToHour old = s := if_neg (mt shifts_iff.1 h)

theorem refreshCaps_eq (s : State) : s.refreshCaps = { s with acb :=
    { s.acb with caps := s.acb.caps.mapIdx fun k c =>
        if c.declared = true ∨ (s.site ≠ none ∧ k < s.firstOpen) then c else s.nominal } } := by
  have same (k : Nat) (c : CapSlot) : (c.declared || (s.site.isSome && decide (k < s.firstOpen))) = true ↔
      c.declared = true ∨ (s.site ≠ none ∧ k < s.firstOpen) := by
    simp only [Bool.or_eq_true, Bool.and_eq_true, decide_eq_true_eq, Option.isSome_iff_ne_none]
  simp only [State.refreshCaps, same]

/-- The capacities of a list of slots. -/
def capValues (l : List CapSlot) : List (Nat × Nat) := l.map fun c => (c.inj, c.wd)

/-- What a SITE group changes of the book calls for a re-confirmation (R99, R102). -/
def State.siteReaches (s : State) (old : Option Site) (load : Bool) : Prop :=
  (load = true ∧ capValues (s.broughtToHour old).refreshCaps.acb.caps ≠ capValues s.acb.caps) ∨
  (load = false ∧ ((old.map Site.nomInj).getD 0 ≠ s.nomInj ∨ (old.map Site.nomWd).getD 0 ≠ s.nomWd ∨
    old.map Site.injRatchet ≠ s.site.map Site.injRatchet ∨ old.map Site.wdRatchet ≠ s.site.map Site.wdRatchet ∨
    s.hourShifts old))

/-- Both ratchet tables are the same just when each is. -/
theorem ratchets_eq_iff (x y : Option Site) :
    x.map (fun o => (o.injRatchet, o.wdRatchet)) = y.map (fun o => (o.injRatchet, o.wdRatchet)) ↔
      x.map Site.injRatchet = y.map Site.injRatchet ∧ x.map Site.wdRatchet = y.map Site.wdRatchet := by
  cases x <;> cases y <;> simp

/-- The model's test of `State.siteReaches`. -/
def State.siteReachesTest (s : State) (old : Option Site) (load : Bool) : Bool :=
  (if load then capValues (s.broughtToHour old).refreshCaps.acb.caps != capValues s.acb.caps
    else (old.map Site.nomInj).getD 0 != s.nomInj || (old.map Site.nomWd).getD 0 != s.nomWd) ||
  (!load && old.map (fun o => (o.injRatchet, o.wdRatchet)) != s.site.map (fun o => (o.injRatchet, o.wdRatchet))) ||
  (!load && ((old.map Site.startHour).getD Config.startHourInvalid != s.startHour && !s.acb.loaded))

theorem siteReachesTest_iff (load : Bool) : s.siteReachesTest old load = true ↔ s.siteReaches old load := by
  cases load with
  | true => simp [State.siteReachesTest, State.siteReaches]
  | false =>
    simp only [State.siteReachesTest, State.siteReaches, Bool.false_eq_true, if_false, Bool.not_false, Bool.true_and,
      Bool.or_eq_true, bne_iff_ne, ne_eq, ratchets_eq_iff, shifts_iff, false_and, false_or, true_and, not_and_or,
      or_assoc]

/-- The event once the book has been brought to the hour and its capacities refreshed. -/
def Ev.siteBook (ev : Ev) (old : Option Site) : Ev := { ev with s := (ev.s.broughtToHour old).refreshCaps }

theorem siteToBook_eq (old : Option Site) (load : Bool) (ev : Ev) : siteToBook old load ev =
    if ev.s.siteReachesTest old load then reconfirm (ev.siteBook old).s.firstOpen (ev.siteBook old)
    else ev.siteBook old := rfl

end

/-- Settles O36: the book is brought to the hour and its capacities refreshed, by the model's own steps; the requests go
down their refusals in their order. -/
theorem nominationsAndCapacitiesTaken : Obligations.NominationsAndCapacitiesTaken := by
  refine ⟨fun old load ev => ?site, fun s e t a k inj wd n => ⟨fun h clockSet ha hk hn live => ?nominates,
    fun h clockSet hk hi hw => ?declares, fun h => ?nominateRefused, fun h => ?declareRefused, fun h => ?_⟩⟩
  case site =>
    intro hour clock nominal emptied b first caps values reached y
    have brought : ev.s.broughtToHour old = { ev.s with acb := b } := by
      by_cases shifts : ev.s.hourShifts old
      · have followed : b = emptied := if_pos shifts
        rw [broughtToHour_shifts shifts, newStartHour_eq, followed]
        rfl
      · have kept : b = ev.s.acb := if_neg shifts
        rw [broughtToHour_stays shifts, kept]
    have refreshed : ev.siteBook old = y := by
      rw [Ev.siteBook, refreshCaps_eq, brought]
      rfl
    have test : ev.s.siteReachesTest old load = true ↔ reached := by
      have slots : (ev.s.broughtToHour old).refreshCaps.acb.caps = caps :=
        congrArg (fun u : Ev => u.s.acb.caps) refreshed
      rw [siteReachesTest_iff, State.siteReaches, slots]
      exact Iff.rfl
    rw [siteToBook_eq, refreshed]
    exact ⟨fun h => if_pos (test.2 h), fun h => if_neg (mt test.1 h)⟩
  case nominates =>
    have fields (i : Nat) : ¬nominateOffends a k n i := by
      rw [nominateOffends]
      omega
    have opened : takeNominate a k n (s.arrived (.nominate t a k n)) = _ :=
      takeNominate_opened (by simpa using clockSet) fields (by simpa using live)
    rw [arrived_acb, arrived_leadTime] at opened
    refine ⟨fun early => ?_, fun late => ?_⟩
    · exact completes_of rfl h (opened.trans (by rw [decide_eq_false early.not_gt, refuseIf_false]; rfl))
    · exact refuses_of rfl h (opened.trans (by rw [decide_eq_true late, refuseIf_true]; rfl))
  case declares =>
    have fields (i : Nat) : ¬declareOffends k inj wd i := by
      rw [declareOffends]
      omega
    have allowed : takeDeclareCapacity k inj wd (s.arrived (.declareCapacity t k inj wd)) = _ :=
      takeDeclareCapacity_allowed (by simpa using clockSet) fields
    rw [arrived_acb] at allowed
    refine ⟨fun early => ?_, fun late => ?_⟩
    · exact completes_of rfl h (allowed.trans (by rw [decide_eq_false early.not_ge, refuseIf_false]; rfl))
    · exact refuses_of rfl h (allowed.trans (by rw [decide_eq_true late, refuseIf_true]; rfl))
  case nominateRefused =>
    intro bad
    refine ⟨fun unset => ?_, fun clockSet => ⟨fun i hi first => ?_, fun fields live => ?_⟩⟩
    · exact refuses_of rfl h (takeNominate_unset (by simpa using unset))
    · exact refuses_of rfl h (takeNominate_offends (by simpa using clockSet) hi first)
    · exact refuses_of rfl h (takeNominate_wrongState (by simpa using clockSet) fields (by simpa using live))
  case declareRefused =>
    intro bad
    refine ⟨fun unset => ?_, fun clockSet i hi first => ?_⟩
    · exact refuses_of rfl h (takeDeclareCapacity_unset (by simpa using unset))
    · exact refuses_of rfl h (takeDeclareCapacity_offends (by simpa using clockSet) hi first)
  · exact completes_of rfl h (by rw [takeReadChanged, arrived_account]; rfl)

end Sys2Proof.Machine
end

section
/-! PROOFS. Proportional reduction (R96): the units left over go to the largest remainders, and the shares sum to the
total. -/

namespace Sys2Proof.Machine

/-! ### Ranks in a strict order -/

/-- How many of the first `n` indices come before an index. -/
def rank (before : Nat → Nat → Bool) (n i : Nat) : Nat := (List.range n).countP fun j => before j i

section
variable {before : Nat → Nat → Bool} {n : Nat}

theorem rank_eq_card (i : Nat) : rank before n i = ((Finset.range n).filter fun j => before j i = true).card := by
  rw [rank, List.countP_eq_length_filter, ← List.toFinset_card_of_nodup (List.nodup_range.filter _)]
  congr 1
  ext j
  simp

theorem rank_lt_rank (irrefl : ∀ i, before i i = false)
    (trans : ∀ {i j k}, before i j = true → before j k = true → before i k = true) {i j : Nat} (hi : i < n)
    (h : before i j = true) : rank before n i < rank before n j := by
  rw [rank_eq_card, rank_eq_card]
  refine Finset.card_lt_card (Finset.ssubset_iff_of_subset ?_ |>.2 ⟨i, ?_, ?_⟩)
  · intro k hk
    simp only [Finset.mem_filter] at hk ⊢
    exact ⟨hk.1, trans hk.2 h⟩
  · simp [hi, h]
  · simp [irrefl]

theorem rank_lt (irrefl : ∀ i, before i i = false) {i : Nat} (hi : i < n) : rank before n i < n := by
  rw [rank_eq_card]
  calc _ < (Finset.range n).card := Finset.card_lt_card
        (Finset.filter_ssubset.2 ⟨i, Finset.mem_range.2 hi, by simp [irrefl]⟩)
    _ = n := Finset.card_range n

/-- In a strict order of the first `n` indices the ranks below `m` are taken by `m` indices. -/
theorem card_rank_lt (irrefl : ∀ i, before i i = false)
    (trans : ∀ {i j k}, before i j = true → before j k = true → before i k = true)
    (total : ∀ i j, i ≠ j → before i j = true ∨ before j i = true) {m : Nat} (hm : m ≤ n) :
    ((Finset.range n).filter fun i => rank before n i < m).card = m := by
  have inj : Set.InjOn (rank before n) (Finset.range n) := by
    intro i hi j hj same
    by_contra ne
    rcases total i j ne with h | h
    · exact (rank_lt_rank irrefl trans (Finset.mem_range.1 hi) h).ne same
    · exact (rank_lt_rank irrefl trans (Finset.mem_range.1 hj) h).ne' same
  have onto : (Finset.range n).image (rank before n) = Finset.range n := by
    refine Finset.eq_of_subset_of_card_le ?_ (Finset.card_image_of_injOn inj).ge
    intro k hk
    obtain ⟨i, hi, rfl⟩ := Finset.mem_image.1 hk
    exact Finset.mem_range.2 (rank_lt irrefl (Finset.mem_range.1 hi))
  have picked : ((Finset.range n).filter fun i => rank before n i < m).image (rank before n) = Finset.range m := by
    ext k
    constructor
    · intro hk
      obtain ⟨i, hi, rfl⟩ := Finset.mem_image.1 hk
      exact Finset.mem_range.2 (Finset.mem_filter.1 hi).2
    · intro hk
      have low : k < m := Finset.mem_range.1 hk
      obtain ⟨i, hi, rfl⟩ := Finset.mem_image.1 (onto.symm ▸ Finset.mem_range.2 (low.trans_le hm))
      exact Finset.mem_image_of_mem _ (Finset.mem_filter.2 ⟨hi, low⟩)
  rw [← Finset.card_image_of_injOn (inj.mono (Finset.coe_subset.2 (Finset.filter_subset _ _))),
    picked, Finset.card_range]

end

/-! ### Sums -/

theorem sumNat_eq_sum (l : List Nat) : sumNat l = l.sum := List.sum_eq_foldl.symm

theorem sum_eq_sum_getD {M : Type} [AddCommMonoid M] (l : List M) :
    l.sum = ∑ i ∈ Finset.range l.length, l.getD i 0 := by
  induction l with
  | nil => rfl
  | cons x l ih => rw [List.length_cons, Finset.sum_range_succ', List.sum_cons, ih, add_comm]; rfl

theorem sumNat_eq_sum_getD (l : List Nat) : sumNat l = ∑ i ∈ Finset.range l.length, l.getD i 0 :=
  (sumNat_eq_sum l).trans (sum_eq_sum_getD l)

/-! ### The parts and the remainders (R96) -/

/-- The truncated part of a share. -/
def sharePart (q : Nat) (w : List Nat) (i : Nat) : Nat := q * w.getD i 0 / sumNat w

/-- The remainder of a share. -/
def shareRem (q : Nat) (w : List Nat) (i : Nat) : Nat := q * w.getD i 0 % sumNat w

/-- Which of two parties comes first for a unit left over: the larger remainder, the lower index among equals. -/
def unitFirst (q : Nat) (w : List Nat) (j i : Nat) : Bool :=
  decide (shareRem q w i < shareRem q w j) || (shareRem q w j == shareRem q w i && decide (j < i))

/-- The units left over when every party has its part. -/
def unitsLeft (q : Nat) (w : List Nat) : Nat := q - ∑ i ∈ Finset.range w.length, sharePart q w i

section
variable {q : Nat} {w : List Nat}

theorem unitFirst_iff {i j : Nat} : unitFirst q w j i = true ↔
    shareRem q w i < shareRem q w j ∨ (shareRem q w j = shareRem q w i ∧ j < i) := by
  simp [unitFirst]

theorem unitFirst_irrefl (i : Nat) : unitFirst q w i i = false := by
  simp [unitFirst]

theorem unitFirst_trans {i j k : Nat} (h : unitFirst q w i j = true) (h' : unitFirst q w j k = true) :
    unitFirst q w i k = true := by
  rw [unitFirst_iff] at *
  omega

theorem unitFirst_total (i j : Nat) (h : i ≠ j) : unitFirst q w i j = true ∨ unitFirst q w j i = true := by
  rw [unitFirst_iff, unitFirst_iff]
  omega

theorem getD_map_mulDiv (i : Nat) : (w.map fun x => q * x / sumNat w).getD i 0 = sharePart q w i :=
  getD_map_of_fixed w i (by simp)

theorem getD_map_mulMod (i : Nat) : (w.map fun x => q * x % sumNat w).getD i 0 = shareRem q w i :=
  getD_map_of_fixed w i (by simp)

theorem getD_proportional {i : Nat} (h : i < w.length) : (proportional q w).getD i 0 = sharePart q w i +
    if rank (unitFirst q w) w.length i < unitsLeft q w ∧ shareRem q w i ≠ 0 then 1 else 0 := by
  have parts : sumNat (w.map fun x => q * x / sumNat w) = ∑ i ∈ Finset.range w.length, sharePart q w i := by
    rw [sumNat_eq_sum_getD, List.length_map]
    exact Finset.sum_congr rfl fun i _ => getD_map_mulDiv i
  simp only [proportional, getD_map_mulDiv, getD_map_mulMod, parts]
  rw [List.getD_eq_getElem _ _ (by simpa using h), List.getElem_map, List.getElem_range]
  rfl

theorem getD_proportional_outside {i : Nat} (h : w.length ≤ i) : (proportional q w).getD i 0 = 0 :=
  List.getD_eq_default _ _ (by simpa using h)

/-- The parts and the remainders make up the products. -/
theorem sum_parts_and_rems : sumNat w * (∑ i ∈ Finset.range w.length, sharePart q w i) +
    ∑ i ∈ Finset.range w.length, shareRem q w i = q * sumNat w := by
  calc _ = ∑ i ∈ Finset.range w.length, q * w.getD i 0 := by
        rw [Finset.mul_sum, ← Finset.sum_add_distrib]
        exact Finset.sum_congr rfl fun i _ => Nat.div_add_mod _ _
    _ = q * sumNat w := by rw [← Finset.mul_sum, ← sumNat_eq_sum_getD]

theorem sum_parts_le : ∑ i ∈ Finset.range w.length, sharePart q w i ≤ q := by
  rcases Nat.eq_zero_or_pos (sumNat w) with zero | pos
  · simp [sharePart, zero]
  · refine Nat.le_of_mul_le_mul_left ?_ pos
    rw [mul_comm _ q, ← sum_parts_and_rems (q := q)]
    exact Nat.le_add_right _ _

/-- No more units are left over than parties have a remainder. -/
theorem unitsLeft_le (h : q ≤ sumNat w) :
    unitsLeft q w ≤ ((Finset.range w.length).filter fun i => shareRem q w i ≠ 0).card := by
  rcases Nat.eq_zero_or_pos (sumNat w) with zero | pos
  · have nothing : q = 0 := by omega
    simp [unitsLeft, nothing]
  · refine Nat.le_of_mul_le_mul_left ?_ pos
    have rems : sumNat w * unitsLeft q w = ∑ i ∈ Finset.range w.length, shareRem q w i := by
      rw [unitsLeft, Nat.mul_sub, mul_comm _ q, ← sum_parts_and_rems (q := q), Nat.add_sub_cancel_left]
    calc _ = ∑ i ∈ (Finset.range w.length).filter fun i => shareRem q w i ≠ 0, shareRem q w i := by
          rw [rems, Finset.sum_filter_ne_zero]
      _ ≤ ((Finset.range w.length).filter fun i => shareRem q w i ≠ 0).card • sumNat w :=
          Finset.sum_le_card_nsmul _ _ _ fun i _ => (Nat.mod_lt _ pos).le
      _ = _ := by rw [smul_eq_mul, mul_comm]

/-- Every unit left over goes to a party with a remainder. -/
theorem shareRem_ne_zero_of_rank (h : q ≤ sumNat w) {i : Nat}
    (ranked : rank (unitFirst q w) w.length i < unitsLeft q w) : shareRem q w i ≠ 0 := by
  intro zero
  refine ranked.not_ge ((unitsLeft_le h).trans ?_)
  rw [rank_eq_card]
  refine Finset.card_le_card fun j hj => ?_
  obtain ⟨inside, nonzero⟩ := Finset.mem_filter.1 hj
  exact Finset.mem_filter.2 ⟨inside, unitFirst_iff.2 (.inl (by omega))⟩

/-- The shares sum to the total. -/
theorem sumNat_proportional (h : q ≤ sumNat w) : sumNat (proportional q w) = q := by
  have share (i : Nat) (hi : i ∈ Finset.range w.length) : (proportional q w).getD i 0 =
      sharePart q w i + if rank (unitFirst q w) w.length i < unitsLeft q w then 1 else 0 := by
    rw [getD_proportional (Finset.mem_range.1 hi)]
    simp only [and_iff_left_of_imp (shareRem_ne_zero_of_rank h)]
  have few : unitsLeft q w ≤ w.length :=
    (unitsLeft_le h).trans ((Finset.card_filter_le _ _).trans (Finset.card_range _).le)
  rw [sumNat_eq_sum_getD, length_proportional, Finset.sum_congr rfl share, Finset.sum_add_distrib,
    ← Finset.card_filter, card_rank_lt unitFirst_irrefl unitFirst_trans unitFirst_total few, unitsLeft,
    Nat.add_sub_cancel' sum_parts_le]

/-- A share is its part, or one unit more where there is a remainder. -/
theorem proportional_part_or_more {i : Nat} (h : i < w.length) :
    (proportional q w).getD i 0 = sharePart q w i ∨
      ((proportional q w).getD i 0 = sharePart q w i + 1 ∧ shareRem q w i ≠ 0) := by
  rw [getD_proportional h]
  split
  case isTrue more => exact .inr ⟨rfl, more.2⟩
  case isFalse => exact .inl rfl

theorem sharePart_le (h : q ≤ sumNat w) (i : Nat) : sharePart q w i ≤ w.getD i 0 :=
  Nat.div_le_of_le_mul (Nat.mul_le_mul_right _ h)

theorem sharePart_lt (h : q ≤ sumNat w) {i : Nat} (rem : shareRem q w i ≠ 0) : sharePart q w i < w.getD i 0 := by
  have product : sumNat w * sharePart q w i + shareRem q w i = q * w.getD i 0 := Nat.div_add_mod _ _
  have bound : q * w.getD i 0 ≤ sumNat w * w.getD i 0 := Nat.mul_le_mul_right _ h
  exact Nat.lt_of_mul_lt_mul_left (a := sumNat w) (by omega)

/-- No share exceeds its weight. -/
theorem proportional_le (h : q ≤ sumNat w) (i : Nat) : (proportional q w).getD i 0 ≤ w.getD i 0 := by
  rcases Nat.lt_or_ge i w.length with inside | outside
  · rcases proportional_part_or_more (q := q) inside with part | ⟨more, rem⟩
    · exact part.trans_le (sharePart_le h i)
    · exact more.trans_le (sharePart_lt h rem)
  · rw [getD_proportional_outside outside]
    exact Nat.zero_le _

/-- A party that gets no further unit comes after every party that gets one. -/
theorem unit_goes_first {i j : Nat} (hi : i < w.length) (hj : j < w.length)
    (less : (proportional q w).getD i 0 = sharePart q w i) (more : (proportional q w).getD j 0 = sharePart q w j + 1) :
    shareRem q w i < shareRem q w j ∨ (shareRem q w i = shareRem q w j ∧ j < i) := by
  rw [getD_proportional hj] at more
  have ranked : rank (unitFirst q w) w.length j < unitsLeft q w ∧ shareRem q w j ≠ 0 := by
    by_contra unranked
    rw [if_neg unranked] at more
    omega
  by_contra later
  have differ : i ≠ j := by
    rintro rfl
    rw [getD_proportional hj, if_pos ranked] at less
    omega
  have before : unitFirst q w i j = true := unitFirst_iff.2 (by omega)
  have rank_i := (rank_lt_rank unitFirst_irrefl unitFirst_trans hi before).trans ranked.1
  have rem_i : shareRem q w i ≠ 0 := by
    have := ranked.2
    omega
  rw [getD_proportional hi, if_pos ⟨rank_i, rem_i⟩] at less
  omega

end

/-- Settles O38: the ranks by remainder are a permutation of the parties, so that as many parties get a unit as are
left over. -/
theorem proportionalReductionSharesTotal : Obligations.ProportionalReductionSharesTotal := by
  intro q w pos h share part rem
  refine ⟨length_proportional q w, sumNat_proportional h, fun i hi => proportional_part_or_more hi,
    fun i j hi hj less more => unit_goes_first hi hj less more, proportional_le h, fun hq hw x hx => ?_⟩
  calc q * x ≤ 32 * 99999999 * 99999999 := Nat.mul_le_mul hq (hw x hx)
    _ < 2 ^ 63 := by decide

end Sys2Proof.Machine
end

section
/-! PROOFS. The station pass (R97): what an excess takes from each confirmation, by tier, and the net it leaves. -/

namespace Sys2Proof.Machine

/-! ### Lists read at an index -/

theorem getD_zipWith {α β γ : Type} {f : α → β → γ} {l : List α} {l' : List β} (len : l.length = l'.length)
    {d : α}
    {e : β} {z : γ} (h : f d e = z) (i : Nat) : (List.zipWith f l l').getD i z = f (l.getD i d) (l'.getD i e) := by
  rcases Nat.lt_or_ge i l.length with inside | outside
  · have inside' := len ▸ inside
    simp [List.getD_eq_getElem?_getD, inside, inside']
  · have outside' := len ▸ outside
    simp [List.getD_eq_getElem?_getD, outside, outside', h]

theorem getD_map_fst (cs : List (Int × Reason)) (i : Nat) :
    (cs.map Prod.fst).getD i 0 = (cs.getD i (0, .none)).1 :=
  List.getD_map cs (0, .none) Prod.fst

theorem sumInt_eq_sum_getD (l : List Int) : sumInt l = ∑ i ∈ Finset.range l.length, l.getD i 0 :=
  List.sum_eq_foldl.symm.trans (sum_eq_sum_getD l)

/-! ### Shares by tier (R97) -/

section
variable {x : Nat} {i f : List Nat}

theorem tierShares_enough (h : x ≤ sumNat i) : tierShares x i f = proportional x i := if_pos h

theorem tierShares_short (h : ¬x ≤ sumNat i) :
    tierShares x i f = List.zipWith (· + ·) i (proportional (x - sumNat i) f) := if_neg h

theorem getD_tierShares_short (len : i.length = f.length) (h : ¬x ≤ sumNat i) (n : Nat) :
    (tierShares x i f).getD n 0 = i.getD n 0 + (proportional (x - sumNat i) f).getD n 0 := by
  rw [tierShares_short h]
  exact getD_zipWith (d := 0) (e := 0) (len.trans (length_proportional _ _).symm) (Nat.zero_add 0) n

theorem sumNat_tierShares (len : i.length = f.length) (h : x ≤ sumNat i + sumNat f) :
    sumNat (tierShares x i f) = x := by
  by_cases enough : x ≤ sumNat i
  · rw [tierShares_enough enough, sumNat_proportional enough]
  · have rest := sumNat_proportional (q := x - sumNat i) (w := f) (by omega)
    rw [sumNat_eq_sum_getD, length_proportional, ← len] at rest
    rw [sumNat_eq_sum_getD, length_tierShares _ _ _ len,
      Finset.sum_congr rfl fun n _ => getD_tierShares_short len enough n, Finset.sum_add_distrib, rest,
      ← sumNat_eq_sum_getD]
    omega

theorem getD_tierShares_le (len : i.length = f.length) (h : x ≤ sumNat i + sumNat f) (n : Nat) :
    (tierShares x i f).getD n 0 ≤ i.getD n 0 + f.getD n 0 := by
  by_cases enough : x ≤ sumNat i
  · rw [tierShares_enough enough]
    exact (proportional_le enough n).trans (Nat.le_add_right _ _)
  · rw [getD_tierShares_short len enough]
    exact Nat.add_le_add_left (proportional_le (by omega) n) _

end

/-! ### Weights of a side -/

/-- The weights of one class on one side in the station pass. -/
def passWeights (sign : Int) (k : AccountClass) (classes : List AccountClass) (cs : List (Int × Reason)) : List Nat :=
  List.zipWith (fun cl c => if cl = k then (sign * c.1).toNat else 0) classes cs

section
variable {sign : Int} {k : AccountClass} {classes : List AccountClass} {cs : List (Int × Reason)}

theorem length_passWeights (len : classes.length = cs.length) : (passWeights sign k classes cs).length = cs.length := by
  simp [passWeights, len]

theorem getD_passWeights (len : classes.length = cs.length) {cl : AccountClass} {i : Nat} (h : classes[i]? = some cl) :
    (passWeights sign k classes cs).getD i 0 = if cl = k then (sign * (cs.getD i (0, .none)).1).toNat else 0 := by
  rw [passWeights, getD_zipWith len (d := cl) (e := (0, .none)) (by simp), List.getD_eq_getElem?_getD, h,
    Option.getD_some]

/-- Every account of a side is of one class or the other. -/
theorem passWeights_add (len : classes.length = cs.length) {i : Nat} (h : i < cs.length) :
    (passWeights sign .interruptible classes cs).getD i 0 + (passWeights sign .firm classes cs).getD i 0 =
      (sign * (cs.getD i (0, .none)).1).toNat := by
  have here : classes[i]? = some classes[i] := List.getElem?_eq_getElem (len ▸ h)
  rw [getD_passWeights len here, getD_passWeights len here]
  cases classes[i] <;> simp

theorem getD_passWeights_outside (len : classes.length = cs.length) {i : Nat} (h : cs.length ≤ i) :
    (passWeights sign k classes cs).getD i 0 = 0 :=
  List.getD_eq_default _ _ (by rwa [length_passWeights len])

/-- A side holds at least the net of its sign. -/
theorem net_le_passWeights (len : classes.length = cs.length) : sign * sumInt (cs.map Prod.fst) ≤
    (sumNat (passWeights sign .interruptible classes cs) + sumNat (passWeights sign .firm classes cs) : Nat) := by
  rw [sumInt_eq_sum_getD, sumNat_eq_sum_getD, sumNat_eq_sum_getD, length_passWeights len, length_passWeights len,
    ← Finset.sum_add_distrib, List.length_map, Finset.mul_sum, Nat.cast_sum]
  refine Finset.sum_le_sum fun i hi => ?_
  rw [passWeights_add len (Finset.mem_range.1 hi), getD_map_fst]
  exact Int.self_le_toNat _

/-! ### What an excess takes (R97) -/

/-- What one account gives of an excess on the side of `sign`: `q` units of its confirmation, where `enough` says that
the INTERRUPTIBLE accounts can give the whole. -/
structure Gives (sign : Int) (cl : Option AccountClass) (enough : Prop) (q : Nat) (c c' : Int × Reason) : Prop where
  kept : q = 0 → c' = c
  taken : q ≠ 0 → c' = (c.1 - sign * q, .station)
  most : q ≤ (sign * c.1).toNat
  firm : cl = some .firm → enough → q = 0
  whole : cl = some .interruptible → ¬enough → q = (sign * c.1).toNat

/-- The shares of an excess that the station pass takes. -/
def passShares (sign : Int) (x : Nat) (classes : List AccountClass) (cs : List (Int × Reason)) : List Nat :=
  tierShares x (passWeights sign .interruptible classes cs) (passWeights sign .firm classes cs)

variable {x : Nat}

theorem length_passShares (len : classes.length = cs.length) : (passShares sign x classes cs).length = cs.length := by
  rw [passShares, length_tierShares _ _ _ (by rw [length_passWeights len, length_passWeights len]),
    length_passWeights len]

theorem takeExcess_eq : takeExcess sign x classes cs = List.zipWith
    (fun (c : Int × Reason) (q : Nat) => if q = 0 then c else (c.1 - sign * q, .station)) cs
    (passShares sign x classes cs) := rfl

theorem takeExcess_gives (len : classes.length = cs.length)
    (h : x ≤ sumNat (passWeights sign .interruptible classes cs) + sumNat (passWeights sign .firm classes cs))
    (i : Nat) : Gives sign classes[i]? (x ≤ sumNat (passWeights sign .interruptible classes cs))
      ((passShares sign x classes cs).getD i 0) (cs.getD i (0, .none))
      ((takeExcess sign x classes cs).getD i (0, .none)) := by
  have lens : (passWeights sign .interruptible classes cs).length = (passWeights sign .firm classes cs).length := by
    rw [length_passWeights len, length_passWeights len]
  have here : (takeExcess sign x classes cs).getD i (0, .none) =
      if (passShares sign x classes cs).getD i 0 = 0 then cs.getD i (0, .none)
      else ((cs.getD i (0, .none)).1 - sign * ((passShares sign x classes cs).getD i 0 : Nat), .station) :=
    getD_zipWith (length_passShares len).symm (if_pos rfl) i
  refine ⟨fun zero => here.trans (if_pos zero), fun more => here.trans (if_neg more), ?most, fun cl enough => ?firm,
    fun cl short => ?whole⟩
  case most =>
    refine (getD_tierShares_le lens h i).trans ?_
    rcases Nat.lt_or_ge i cs.length with inside | outside
    · exact (passWeights_add len inside).le
    · rw [getD_passWeights_outside len outside, getD_passWeights_outside len outside]
      exact Nat.zero_le _
  case firm =>
    have nothing := getD_passWeights (sign := sign) (k := .interruptible) len cl
    rw [if_neg (by decide)] at nothing
    rw [passShares, tierShares_enough enough]
    exact Nat.le_zero.1 ((proportional_le enough i).trans nothing.le)
  case whole =>
    have all := getD_passWeights (sign := sign) (k := .interruptible) len cl
    have nothing := getD_passWeights (sign := sign) (k := .firm) len cl
    rw [if_pos rfl] at all
    rw [if_neg (by decide)] at nothing
    have nothing := nothing ▸ proportional_le (q := x - sumNat (passWeights sign .interruptible classes cs))
      (w := passWeights sign .firm classes cs) (by omega) i
    rw [passShares, getD_tierShares_short lens short, all, Nat.le_zero.1 nothing, Nat.add_zero]

theorem sumInt_takeExcess (len : classes.length = cs.length)
    (h : x ≤ sumNat (passWeights sign .interruptible classes cs) + sumNat (passWeights sign .firm classes cs)) :
    sumInt ((takeExcess sign x classes cs).map Prod.fst) = sumInt (cs.map Prod.fst) - sign * x := by
  have lens : (passWeights sign .interruptible classes cs).length = (passWeights sign .firm classes cs).length := by
    rw [length_passWeights len, length_passWeights len]
  have here (i : Nat) : ((takeExcess sign x classes cs).map Prod.fst).getD i 0 =
      (cs.map Prod.fst).getD i 0 - sign * ((passShares sign x classes cs).getD i 0 : Nat) := by
    have gives := takeExcess_gives len h i
    rw [getD_map_fst, getD_map_fst]
    by_cases zero : (passShares sign x classes cs).getD i 0 = 0
    · rw [gives.kept zero, zero, Nat.cast_zero, mul_zero, sub_zero]
    · rw [gives.taken zero]
  have total := sumNat_tierShares lens h
  rw [← passShares, sumNat_eq_sum_getD, length_passShares len] at total
  rw [sumInt_eq_sum_getD, List.length_map, length_takeExcess _ _ _ _ len, Finset.sum_congr rfl fun i _ => here i,
    Finset.sum_sub_distrib, ← Finset.mul_sum, ← Nat.cast_sum, total, sumInt_eq_sum_getD, List.length_map]

end

/-! ### What one account's giving leaves of its confirmation -/

section
variable {sign : Int} {cl : Option AccountClass} {enough : Prop} {q : Nat} {c c' : Int × Reason}

theorem Gives.toward (h : Gives sign cl enough q c c') (side : sign = 1 ∨ sign = -1) :
    (0 ≤ c'.1 ∧ c'.1 ≤ c.1) ∨ (c.1 ≤ c'.1 ∧ c'.1 ≤ 0) := by
  by_cases zero : q = 0
  · rw [h.kept zero]
    omega
  · have most := h.most
    rw [h.taken zero]
    rcases side with rfl | rfl <;> dsimp only <;> omega

theorem Gives.changed_iff (h : Gives sign cl enough q c c') (side : sign = 1 ∨ sign = -1) :
    c'.1 ≠ c.1 ↔ q ≠ 0 := by
  constructor
  · intro changed zero
    exact changed (by rw [h.kept zero])
  · intro more
    rw [h.taken more]
    rcases side with rfl | rfl <;> dsimp only <;> omega

theorem Gives.station (h : Gives sign cl enough q c c') (side : sign = 1 ∨ sign = -1) (changed : c'.1 ≠ c.1) :
    c'.2 = .station := by
  rw [h.taken ((h.changed_iff side).1 changed)]

theorem Gives.same (h : Gives sign cl enough q c c') (side : sign = 1 ∨ sign = -1) (same : c'.1 = c.1) : c' = c :=
  h.kept (not_not.1 (mt (h.changed_iff side).2 (not_not.2 same)))

theorem Gives.against (h : Gives sign cl enough q c c') (other : sign * c.1 ≤ 0) : c'.1 = c.1 := by
  have most := h.most
  rw [h.kept (by omega)]

theorem Gives.firm_kept (h : Gives sign cl enough q c c') (firm : cl = some .firm) (k : enough) : c'.1 = c.1 := by
  rw [h.kept (h.firm firm k)]

theorem Gives.interruptible_whole (h : Gives sign cl enough q c c') (k : cl = some .interruptible) (short : ¬enough)
    (side : sign = 1 ∨ sign = -1) (on : 0 < sign * c.1) : c'.1 = 0 := by
  have whole := h.whole k short
  rw [h.taken (by omega)]
  rcases side with rfl | rfl <;> dsimp only <;> omega

end

/-! ### The pass (R97) -/

/-- What the INTERRUPTIBLE accounts of a side have confirmed. -/
def interruptibleSide (sign : Int) (classes : List AccountClass) (cs : List (Int × Reason)) : Int :=
  sumInt (List.zipWith (fun (k : AccountClass) (x : Int × Reason) =>
    if k = .interruptible then max 0 (sign * x.1) else 0) classes cs)

section
variable {cap : CapSlot} {classes : List AccountClass} {cs : List (Int × Reason)}

theorem interruptibleSide_eq (sign : Int) (classes : List AccountClass) (cs : List (Int × Reason)) :
    interruptibleSide sign classes cs = (sumNat (passWeights sign .interruptible classes cs) : Nat) := by
  have weights : List.zipWith (fun (k : AccountClass) (x : Int × Reason) =>
      if k = .interruptible then max 0 (sign * x.1) else 0) classes cs =
      (passWeights sign .interruptible classes cs).map Nat.cast := by
    rw [passWeights, List.map_zipWith]
    congr 1
    funext k x
    split
    · rw [Int.toNat_eq_max, max_comm]
    · rfl
  rw [interruptibleSide, weights, sumNat_eq_sum, sumInt, ← List.sum_eq_foldl, Nat.cast_list_sum]

theorem stationPass_inject (h : sumInt (cs.map Prod.fst) > cap.inj) :
    stationPass cap classes cs = takeExcess 1 (sumInt (cs.map Prod.fst) - cap.inj).toNat classes cs := if_pos h

theorem stationPass_withdraw (h : -sumInt (cs.map Prod.fst) > cap.wd) :
    stationPass cap classes cs = takeExcess (-1) (-sumInt (cs.map Prod.fst) - cap.wd).toNat classes cs :=
  (if_neg (by omega)).trans (if_pos h)

theorem stationPass_within (low : -(cap.wd : Int) ≤ sumInt (cs.map Prod.fst))
    (high : sumInt (cs.map Prod.fst) ≤ cap.inj) : stationPass cap classes cs = cs :=
  (if_neg (by omega)).trans (if_neg (by omega))

/-- An excess of injection is taken from the injections, and leaves the capacity. -/
theorem stationPass_inject_gives (len : classes.length = cs.length) (h : cap.inj < sumInt (cs.map Prod.fst)) :
    sumInt ((stationPass cap classes cs).map Prod.fst) = cap.inj ∧
    ∀ i, ∃ q, Gives 1 classes[i]? (sumInt (cs.map Prod.fst) - cap.inj ≤ interruptibleSide 1 classes cs) q
      (cs.getD i (0, .none)) ((stationPass cap classes cs).getD i (0, .none)) := by
  have net := net_le_passWeights (sign := 1) len
  have enough : (sumInt (cs.map Prod.fst) - cap.inj).toNat ≤
      sumNat (passWeights 1 .interruptible classes cs) + sumNat (passWeights 1 .firm classes cs) := by omega
  have same : (sumInt (cs.map Prod.fst) - cap.inj).toNat ≤ sumNat (passWeights 1 .interruptible classes cs) ↔
      sumInt (cs.map Prod.fst) - cap.inj ≤ interruptibleSide 1 classes cs := by
    rw [interruptibleSide_eq]
    omega
  rw [stationPass_inject h]
  refine ⟨?_, fun i => ⟨_, by rw [← same]; exact takeExcess_gives len enough i⟩⟩
  rw [sumInt_takeExcess len enough]
  omega

/-- An excess of withdrawal is taken from the withdrawals, and leaves the capacity. -/
theorem stationPass_withdraw_gives (len : classes.length = cs.length) (h : sumInt (cs.map Prod.fst) < -(cap.wd : Int)) :
    sumInt ((stationPass cap classes cs).map Prod.fst) = -(cap.wd : Int) ∧
    ∀ i, ∃ q, Gives (-1) classes[i]? (-sumInt (cs.map Prod.fst) - cap.wd ≤ interruptibleSide (-1) classes cs) q
      (cs.getD i (0, .none)) ((stationPass cap classes cs).getD i (0, .none)) := by
  have net := net_le_passWeights (sign := -1) len
  have enough : (-sumInt (cs.map Prod.fst) - cap.wd).toNat ≤
      sumNat (passWeights (-1) .interruptible classes cs) + sumNat (passWeights (-1) .firm classes cs) := by omega
  have same : (-sumInt (cs.map Prod.fst) - cap.wd).toNat ≤ sumNat (passWeights (-1) .interruptible classes cs) ↔
      -sumInt (cs.map Prod.fst) - cap.wd ≤ interruptibleSide (-1) classes cs := by
    rw [interruptibleSide_eq]
    omega
  rw [stationPass_withdraw (by omega)]
  refine ⟨?_, fun i => ⟨_, by rw [← same]; exact takeExcess_gives len enough i⟩⟩
  rw [sumInt_takeExcess len enough]
  omega

end

/-- The law of the station pass (R97), as O39 states it. -/
def StationPassLaw (cap : CapSlot) (classes : List AccountClass) (cs : List (Int × Reason)) : Prop :=
  let out := stationPass cap classes cs
  let c (i : Nat) : Int := (cs.getD i (0, .none)).1
  let c' (i : Nat) : Int := (out.getD i (0, .none)).1
  let net : Int := sumInt (cs.map Prod.fst)
  out.length = cs.length ∧
  sumInt (out.map Prod.fst) = max (-(cap.wd : Int)) (min net cap.inj) ∧
  (∀ i, (0 ≤ c' i ∧ c' i ≤ c i) ∨ (c i ≤ c' i ∧ c' i ≤ 0)) ∧
  (∀ i, c' i ≠ c i → (out.getD i (0, .none)).2 = .station) ∧
  (∀ i, c' i = c i → out.getD i (0, .none) = cs.getD i (0, .none)) ∧
  (-(cap.wd : Int) ≤ net → net ≤ cap.inj → out = cs) ∧
  (cap.inj < net → ∀ i, c i ≤ 0 → c' i = c i) ∧
  (net < -(cap.wd : Int) → ∀ i, 0 ≤ c i → c' i = c i) ∧
  (net - cap.inj ≤ interruptibleSide 1 classes cs → -net - cap.wd ≤ interruptibleSide (-1) classes cs →
    ∀ i, classes[i]? = some .firm → c' i = c i) ∧
  (∀ i j, classes[i]? = some .firm → c' i ≠ c i → classes[j]? = some .interruptible →
    (0 < c i → 0 < c j → c' j = 0) ∧ (c i < 0 → c j < 0 → c' j = 0))

section
variable {cap : CapSlot} {classes : List AccountClass} {cs : List (Int × Reason)}

theorem stationPassLaw_inject (len : classes.length = cs.length) (h : cap.inj < sumInt (cs.map Prod.fst)) :
    StationPassLaw cap classes cs := by
  obtain ⟨total, gives⟩ := stationPass_inject_gives len h
  choose q gives using gives
  have side : (1 : Int) = 1 ∨ (1 : Int) = -1 := .inl rfl
  dsimp only [StationPassLaw]
  refine ⟨length_stationPass _ _ _ len, by omega, fun i => (gives i).toward side, fun i => (gives i).station side,
    fun i => (gives i).same side, fun _ high => absurd h high.not_gt, fun _ i away => (gives i).against (by omega),
    fun low => by omega, fun enough _ i firm => (gives i).firm_kept firm enough,
    fun i j firm changed inter => ⟨fun on on' => ?_, fun off _ => ?_⟩⟩
  · exact (gives j).interruptible_whole inter (fun enough => changed ((gives i).firm_kept firm enough)) side (by omega)
  · exact absurd ((gives i).against (by omega)) changed

theorem stationPassLaw_withdraw (len : classes.length = cs.length) (h : sumInt (cs.map Prod.fst) < -(cap.wd : Int)) :
    StationPassLaw cap classes cs := by
  obtain ⟨total, gives⟩ := stationPass_withdraw_gives len h
  choose q gives using gives
  have side : (-1 : Int) = 1 ∨ (-1 : Int) = -1 := .inr rfl
  dsimp only [StationPassLaw]
  refine ⟨length_stationPass _ _ _ len, by omega, fun i => (gives i).toward side, fun i => (gives i).station side,
    fun i => (gives i).same side, fun low => absurd h low.not_gt, fun high => by omega,
    fun _ i away => (gives i).against (by omega), fun _ enough i firm => (gives i).firm_kept firm enough,
    fun i j firm changed inter => ⟨fun off _ => ?_, fun on on' => ?_⟩⟩
  · exact absurd ((gives i).against (by omega)) changed
  · exact (gives j).interruptible_whole inter (fun enough => changed ((gives i).firm_kept firm enough)) side (by omega)

theorem stationPassLaw_within (low : -(cap.wd : Int) ≤ sumInt (cs.map Prod.fst))
    (high : sumInt (cs.map Prod.fst) ≤ cap.inj) : StationPassLaw cap classes cs := by
  have same : stationPass cap classes cs = cs := stationPass_within low high
  dsimp only [StationPassLaw]
  rw [same]
  exact ⟨rfl, by omega, fun i => by omega, fun i changed => absurd rfl changed, fun i _ => rfl, fun _ _ => rfl,
    fun _ i _ => rfl, fun _ i _ => rfl, fun _ _ i _ => rfl, fun i j _ changed => absurd rfl changed⟩

theorem stationPass_law (len : classes.length = cs.length) : StationPassLaw cap classes cs := by
  rcases lt_or_ge (cap.inj : Int) (sumInt (cs.map Prod.fst)) with above | high
  · exact stationPassLaw_inject len above
  · rcases lt_or_ge (sumInt (cs.map Prod.fst)) (-(cap.wd : Int)) with below | low
    · exact stationPassLaw_withdraw len below
    · exact stationPassLaw_within low high

end

end Sys2Proof.Machine
end

section
/-! PROOFS. Re-confirmation, slot by slot (R98), the marks and the CURTAILMENT events it leaves (R92). -/

namespace Sys2Proof.Machine

/-! ### Lists that agree in what is read of them -/

theorem map_congr_getD {α β : Type} {f : α → β} {l l' : List α} (len : l.length = l'.length) (d : α)
    (h : ∀ i, f (l.getD i d) = f (l'.getD i d)) : l.map f = l'.map f := by
  refine List.ext_getElem (by simpa using len) fun i inside inside' => ?_
  simp only [List.length_map] at inside inside'
  have here := h i
  rw [List.getD_eq_getElem _ _ inside, List.getD_eq_getElem _ _ inside'] at here
  simpa using here

theorem zipWith_congr_getD {α β γ : Type} {f : α → β → γ} {l l' : List α} (len : l.length = l'.length)
    (d : α)
    (h : ∀ i x, f (l.getD i d) x = f (l'.getD i d) x) (r : List β) : List.zipWith f l r = List.zipWith f l' r := by
  refine List.ext_getElem (by simp [len]) fun i inside inside' => ?_
  simp only [List.length_zipWith, lt_inf_iff] at inside inside'
  have here := h i r[i]
  rw [List.getD_eq_getElem _ _ inside.1, List.getD_eq_getElem _ _ inside'.1] at here
  simpa using here

/-! ### One slot (R98) -/

/-- An account with slot `k` of its book confirmed at `c`. -/
def Account.booked (k : Nat) (c : Int × Reason) (a : Account) : Account :=
  { a with book := a.book.modify k fun x => { x with c := c.1, reason := c.2 } }

theorem Account.slot_default (k : Nat) : ({} : Account).slot k = {} := by
  rw [Account.slot, List.getD_eq_getElem?_getD, List.getElem?_getD_replicate_default_eq]

theorem Account.booked_default (k : Nat) : ({} : Account).booked k (0, .none) = {} := by
  have same : (List.replicate 48 ({} : Slot)).modify k (fun x => { x with c := 0, reason := .none }) =
      (List.replicate 48 ({} : Slot)).modify k id :=
    modify_congr _ _ _ _ {} (by
      rw [show (List.replicate 48 ({} : Slot)).getD k {} = {} from Account.slot_default k]
      rfl)
  rw [List.modify_id] at same
  exact congrArg (fun l => ({ book := l } : Account)) same

theorem Account.slot_booked (a : Account) (k : Nat) (c : Int × Reason) (j : Nat) : (a.booked k c).slot j =
    if k = j ∧ j < a.book.length then { a.slot j with c := c.1, reason := c.2 } else a.slot j :=
  getD_modify _ _ _ _ _

/-- What a slot's confirmations come to, by the accounts and their projections: each on its own, then the station
pass. -/
def State.slotOutcome (s : State) (k : Nat) (accounts : List Account) (p : List Int) : List (Int × Reason) :=
  stationPass (s.capSlot k) (accounts.map Account.cls)
    (List.zipWith (fun (a : Account) x => a.confirm s.site (a.slot k).n x) accounts p)

theorem confirmSlot_eq (s : State) (st : List Account × List Int) (k : Nat) : s.confirmSlot st k =
    (List.zipWith (fun a c => a.booked k c) st.1 (s.slotOutcome k st.1 st.2),
      List.zipWith (fun p (c : Int × Reason) => p + c.1) st.2 (s.slotOutcome k st.1 st.2)) := rfl

theorem length_slotOutcome {s : State} {k : Nat} {accounts : List Account} {p : List Int}
    (len : accounts.length = p.length) : (s.slotOutcome k accounts p).length = accounts.length := by
  rw [State.slotOutcome, length_stationPass _ _ _ (by simp [len])]
  simp [len]

/-! ### The slots from one on -/

/-- `b` is account `a` with the `m` slots from `h` on confirmed at `out`. -/
structure Account.Rebooked (h m : Nat) (out : Nat → Int × Reason) (a b : Account) : Prop where
  rest : b = { a with book := b.book } := by rfl
  size : b.book.length = a.book.length := by rfl
  outside : ∀ k, k < h ∨ h + m ≤ k → b.slot k = a.slot k
  inside : ∀ k, h ≤ k → k < h + m → k < a.book.length →
    b.slot k = { a.slot k with c := (out k).1, reason := (out k).2 }

theorem Account.Rebooked.begin (h : Nat) (out : Nat → Int × Reason) (a : Account) :
    Account.Rebooked h 0 out a a where
  outside := fun _ _ => rfl
  inside := fun k low high => absurd high low.not_gt

theorem Account.Rebooked.next {h m : Nat} {out : Nat → Int × Reason} {a b : Account}
    (r : Account.Rebooked h m out a b) :
    Account.Rebooked h (m + 1) out a (b.booked (h + m) (out (h + m))) where
  rest := by
    have rest := r.rest
    rw [rest]
    rfl
  size := (List.length_modify _ _ _).trans r.size
  outside := fun k away => by
    rw [Account.slot_booked, if_neg (by omega), r.outside k (by omega)]
  inside := fun k low high within => by
    rw [Account.slot_booked]
    by_cases here : h + m = k
    · rw [if_pos ⟨here, r.size ▸ within⟩, r.outside k (by omega), here]
    · rw [if_neg fun both => here both.1, r.inside k low (by omega) within]

/-- An account whose book alone differs is confirmed alike. -/
theorem Account.Rebooked.confirm {h m : Nat} {out : Nat → Int × Reason} {a b : Account}
    (r : Account.Rebooked h m out a b) (site : Option Site) (n p : Int) : b.confirm site n p = a.confirm site n p := by
  rw [r.rest]
  rfl

section
variable (s : State) (h : Nat)

/-- Accounts and projections when the first `m` slots from `h` on have been confirmed anew. -/
def State.confirmedUpTo (m : Nat) : List Account × List Int :=
  (List.range' h m).foldl s.confirmSlot
    (s.acb.accounts, s.acb.accounts.map fun a => a.projection s.acb.running h)

/-- The projections with which a slot of a re-confirmation begins. -/
def State.projectionsAt (k : Nat) : List Int := (s.confirmedUpTo h (k - h)).2

/-- What a re-confirmation from slot `h` brings to slot `k`. -/
def State.outcomeAt (k : Nat) : List (Int × Reason) := s.slotOutcome k s.acb.accounts (s.projectionsAt h k)

theorem confirmedUpTo_zero : s.confirmedUpTo h 0 =
    (s.acb.accounts, s.acb.accounts.map fun a => a.projection s.acb.running h) := rfl

theorem confirmedUpTo_succ (m : Nat) :
    s.confirmedUpTo h (m + 1) = s.confirmSlot (s.confirmedUpTo h m) (h + m) := by
  rw [State.confirmedUpTo, List.range'_concat, List.foldl_append, one_mul]
  rfl

theorem confirmed_eq : s.confirmed h = (s.confirmedUpTo h (48 - h)).1 := rfl

theorem length_confirmedUpTo (m : Nat) : (s.confirmedUpTo h m).1.length = s.acb.accounts.length ∧
    (s.confirmedUpTo h m).2.length = s.acb.accounts.length := by
  induction m with
  | zero => simp [confirmedUpTo_zero]
  | succ m ih =>
    obtain ⟨accounts, projections⟩ := ih
    rw [confirmedUpTo_succ]
    have kept := length_confirmSlot s (s.confirmedUpTo h m) (h + m) (accounts.trans projections.symm)
    exact ⟨kept.1.trans accounts, kept.2.trans accounts⟩

/-- The projections of a slot, and the books as they were, are all that its confirmations depend on. -/
theorem slotOutcome_rebooked {k : Nat} {p : List Int} {l : List Account} {m : Nat} {out : Nat → Nat → Int × Reason}
    (len : l.length = s.acb.accounts.length)
    (same : ∀ a, Account.Rebooked h m (out a) (s.account a) (l.getD a {})) (later : h + m ≤ k) :
    s.slotOutcome k l p = s.slotOutcome k s.acb.accounts p := by
  have classes : l.map Account.cls = s.acb.accounts.map Account.cls :=
    map_congr_getD len {} fun a => by rw [(same a).rest]; rfl
  have own : List.zipWith (fun (a : Account) x => a.confirm s.site (a.slot k).n x) l p =
      List.zipWith (fun (a : Account) x => a.confirm s.site (a.slot k).n x) s.acb.accounts p :=
    zipWith_congr_getD len {} (fun a x => by rw [(same a).confirm, (same a).outside k (.inr later)]; rfl) p
  rw [State.slotOutcome, classes, own, State.slotOutcome]

/-- After `m` slots every account is as it was, but for these slots, which hold what the re-confirmation brings. -/
theorem confirmedUpTo_rebooked (m a : Nat) : Account.Rebooked h m (fun k => (s.outcomeAt h k).getD a (0, .none))
    (s.account a) ((s.confirmedUpTo h m).1.getD a {}) := by
  induction m generalizing a with
  | zero => exact .begin _ _ _
  | succ m ih =>
    obtain ⟨accounts, projections⟩ := length_confirmedUpTo s h m
    have outcome : s.slotOutcome (h + m) (s.confirmedUpTo h m).1 (s.confirmedUpTo h m).2 = s.outcomeAt h (h + m) := by
      rw [slotOutcome_rebooked s h accounts ih le_rfl, State.outcomeAt, State.projectionsAt, Nat.add_sub_cancel_left]
    have len : (s.confirmedUpTo h m).1.length = (s.outcomeAt h (h + m)).length := by
      rw [← outcome, length_slotOutcome (accounts.trans projections.symm)]
    have here : (s.confirmedUpTo h (m + 1)).1.getD a {} =
        ((s.confirmedUpTo h m).1.getD a {}).booked (h + m) ((s.outcomeAt h (h + m)).getD a (0, .none)) := by
      rw [confirmedUpTo_succ, confirmSlot_eq, outcome]
      exact getD_zipWith len (Account.booked_default _) a
    rw [here]
    exact (ih a).next

/-- The projections go on by what the slot before has brought. -/
theorem projectionsAt_succ {k : Nat} (low : h ≤ k) : s.projectionsAt h (k + 1) =
    List.zipWith (fun x (c : Int × Reason) => x + c.1) (s.projectionsAt h k) (s.outcomeAt h k) := by
  have step : k + 1 - h = k - h + 1 := by omega
  have slot : h + (k - h) = k := by omega
  rw [State.projectionsAt, step, confirmedUpTo_succ, confirmSlot_eq, slot, State.outcomeAt,
    slotOutcome_rebooked s h (length_confirmedUpTo s h (k - h)).1 (confirmedUpTo_rebooked s h (k - h)) slot.le]
  rfl

end

/-! ### Marks and events (R92) -/

/-- The lowest slot of account `a` that a re-confirmation from slot `h` changes. -/
def State.changedSlot (s : State) (h a : Nat) : Option Nat := firstChange (s.account a) ((s.confirmed h).getD a {})

/-- The accounts that a re-confirmation leaves, with their marks. -/
def State.remarked (s : State) (h : Nat) : List Account :=
  (s.confirmed h).mapIdx fun a r =>
    if (changedAccounts s.acb.accounts (s.confirmed h)).contains a then { r with mark := true } else r

theorem reconfirm_eq (h : Nat) (ev : Ev) : reconfirm h ev = raiseCurtailments ev.s.acb.accounts (ev.s.confirmed h)
    { ev with s := { ev.s with acb := { ev.s.acb with accounts := ev.s.remarked h } } } := rfl

theorem reconfirm_acb (h : Nat) (ev : Ev) :
    (reconfirm h ev).s.acb = { ev.s.acb with accounts := ev.s.remarked h } := by
  rw [reconfirm_eq]
  exact (raiseCurtailments_frame (F := False) (G := False) (B := False) _ _ _).acb id

theorem changedAccounts_contains (s : State) (h a : Nat) :
    (changedAccounts s.acb.accounts (s.confirmed h)).contains a = (decide (a < 32) && (s.changedSlot h a).isSome) := by
  rw [Bool.eq_iff_iff, List.contains_iff_mem, changedAccounts, List.mem_filter, List.mem_range, Bool.and_eq_true,
    decide_eq_true_eq]
  exact Iff.rfl

theorem firstChange_self (r : Account) : firstChange r r = none := by
  rw [firstChange, List.find?_eq_none]
  simp

theorem reconfirm_account (h : Nat) (ev : Ev) (a : Nat) : (reconfirm h ev).s.account a =
    { (ev.s.confirmed h).getD a {} with
      mark := ((ev.s.confirmed h).getD a {}).mark || (decide (a < 32) && (ev.s.changedSlot h a).isSome) } := by
  rw [State.account, reconfirm_acb]
  rcases Nat.lt_or_ge a (ev.s.confirmed h).length with inside | outside
  · have here : (ev.s.remarked h).getD a {} =
        if (decide (a < 32) && (ev.s.changedSlot h a).isSome) = true then
          { (ev.s.confirmed h).getD a {} with mark := true } else (ev.s.confirmed h).getD a {} := by
      rw [List.getD_eq_getElem _ _ (by simpa [State.remarked] using inside), ← changedAccounts_contains,
        List.getD_eq_getElem _ _ inside]
      exact List.getElem_mapIdx
    rw [here]
    cases decide (a < 32) && (ev.s.changedSlot h a).isSome
    · rw [Bool.or_false]
      rfl
    · rw [Bool.or_true]
      rfl
  · have before : ev.s.account a = {} := List.getD_eq_default _ _ (length_confirmed ev.s h ▸ outside)
    have after : (ev.s.confirmed h).getD a {} = {} := List.getD_eq_default _ _ outside
    have marked : (ev.s.remarked h).getD a {} = {} :=
      List.getD_eq_default _ _ (by simpa [State.remarked] using outside)
    rw [marked, State.changedSlot, before, after, firstChange_self, Option.isSome_none, Bool.and_false]
    rfl

/-- The CURTAILMENT of one account, where a slot of it has changed. -/
def curtail (change : Nat → Option Nat) (ev : Ev) (a : Nat) : Ev :=
  match change a with
  | some k => raise .curtailment (some a) ev (.slot k)
  | none => ev

theorem raiseCurtailments_eq (before after : List Account) (ev : Ev) : raiseCurtailments before after ev =
    (List.range 32).foldl (curtail fun a => firstChange (before.getD a {}) (after.getD a {})) ev := rfl

theorem curtail_raised (change : Nat → Option Nat) (ev : Ev) (a : Nat) : (curtail change ev a).raised =
    ev.raised ++ ((change a).map fun k => (⟨.curtailment, some a, .slot k⟩ : Occurrence)).toList := by
  unfold curtail
  cases change a with
  | none => exact (List.append_nil _).symm
  | some k => exact (raise_tripsOnly _ _ _ _).raised

theorem foldl_curtail_raised (change : Nat → Option Nat) (l : List Nat) (ev : Ev) :
    (l.foldl (curtail change) ev).raised =
    ev.raised ++ l.filterMap fun a => (change a).map fun k => ⟨.curtailment, some a, .slot k⟩ := by
  induction l generalizing ev with
  | nil => exact (List.append_nil _).symm
  | cons a l ih =>
    rw [List.foldl_cons, ih, curtail_raised, List.filterMap_cons, List.append_assoc]
    cases change a <;> rfl

theorem reconfirm_raised (h : Nat) (ev : Ev) : (reconfirm h ev).raised = ev.raised ++
    (List.range 32).filterMap fun a => (ev.s.changedSlot h a).map fun k => ⟨.curtailment, some a, .slot k⟩ := by
  rw [reconfirm_eq, raiseCurtailments_eq, foldl_curtail_raised]
  rfl

/-- A re-confirmation leaves of an account all but its book and its mark. -/
theorem reconfirm_account_rest (h : Nat) (ev : Ev) (a : Nat) : (reconfirm h ev).s.account a =
    { ev.s.account a with
      book := ((ev.s.confirmed h).getD a {}).book
      mark := (ev.s.account a).mark || (decide (a < 32) && (ev.s.changedSlot h a).isSome) } := by
  have rest := (confirmedUpTo_rebooked ev.s h (48 - h) a).rest
  rw [reconfirm_account, confirmed_eq, rest]

theorem reconfirm_slot (h : Nat) (ev : Ev) (a k : Nat) :
    ((reconfirm h ev).s.account a).slot k = ((ev.s.confirmed h).getD a {}).slot k := by
  rw [reconfirm_account]
  rfl

/-- Settles O39: an excess is taken account by account, and the slots of a re-confirmation by induction on their
number. -/
theorem stationPassHoldsNetToCapacity : Obligations.StationPassHoldsNetToCapacity := by
  refine ⟨fun cap classes cs len => stationPass_law len, fun ev h _ top size books => ?_⟩
  intro old y changed
  have changed_eq (a : Nat) : changed a = old.changedSlot h a := by
    simp only [changed, y, reconfirm_slot]
    rfl
  have rebooked (a : Nat) := confirmedUpTo_rebooked old h (48 - h) a
  have acb : y.s.acb = { old.acb with accounts := old.remarked h } := reconfirm_acb h ev
  refine ⟨by rw [acb], ?size, fun a ha => ?rest, fun a k _ hk => ?before, ⟨old.projectionsAt h, ?start,
    fun k low high => ⟨projectionsAt_succ old h low, fun a ha => ?inside⟩⟩, ?raised⟩
  case size =>
    rw [acb]
    exact (List.length_mapIdx ..).trans ((length_confirmed old h).trans size)
  case rest =>
    have rest := reconfirm_account_rest h ev a
    rw [decide_eq_true ha, Bool.true_and] at rest
    simp only [changed_eq, y, rest]
    rfl
  case before => exact (reconfirm_slot h ev a k).trans ((rebooked a).outside k (.inl hk))
  case start =>
    rw [State.projectionsAt, Nat.sub_self]
    rfl
  case inside =>
    have within : k < (old.account a).book.length := by
      have inside : a < old.acb.accounts.length := size ▸ ha
      have member : old.account a ∈ old.acb.accounts := by
        rw [State.account, List.getD_eq_getElem _ _ inside]
        exact List.getElem_mem inside
      rw [books _ member]
      exact high
    exact (reconfirm_slot h ev a k).trans ((rebooked a).inside k low (by omega) within)
  case raised =>
    simp only [changed_eq]
    exact reconfirm_raised h ev

end Sys2Proof.Machine
end

section
/-! PROOFS. OBA_ADJUST (R132), a live boundary at the Settlement Unit (R122, R123, R139), and the requests that a close
holds back (R124, R179, R183). -/

namespace Sys2Proof.Machine

/-! ### OBA_ADJUST (R132) -/

section
variable {a : Nat} {q : Int} {s : State}

/-- The event of an OBA_ADJUST that is done. -/
def State.obaAdjusted (s : State) (a : Nat) (q : Int) : Ev :=
  raiseObaLimit (reconfirm s.firstOpen
    (setBalance (s.su.balance - q) (setInventory a ((s.account a).inventory + q) s.ev)))

theorem takeObaAdjust_badQuantity (ha : a < 32) (h : q = 0 ∨ 4000000000 < q.natAbs) :
    takeObaAdjust a q s = (s.ev, .badField 2) := by
  have out : ¬(1 ≤ q.natAbs ∧ q.natAbs ≤ Config.maxInventory) := by
    simp only [Config.maxInventory]
    omega
  have wrong : (decide (1 ≤ q.natAbs) && decide (q.natAbs ≤ Config.maxInventory)) = false := by
    rw [← Bool.decide_and, decide_eq_false out]
  rw [takeObaAdjust, onAccount_of_lt ha, wrong, judged_cons_false]

theorem takeObaAdjust_eq (ha : a < 32) (nonzero : q ≠ 0) (h : q.natAbs ≤ 4000000000) : takeObaAdjust a q s =
    refuseIf s ((s.account a).state != .opened) (.refuse .wrongState)
      (refuseIf s (q < 0 && s.cannotGive a q.natAbs) (.refuse .insufficient)
        (refuseIf s (q > 0 && s.cannotTake a q.natAbs) (.refuse .noSpace)
          (s.obaAdjusted a q,
            .ok [⟨4, ((s.obaAdjusted a q).s.account a).inventory⟩, i8 (s.obaAdjusted a q).s.su.balance]))) := by
  have low : 1 ≤ q.natAbs := Int.natAbs_pos.2 nonzero
  have high : q.natAbs ≤ Config.maxInventory := h
  rw [takeObaAdjust, onAccount_of_lt ha]
  exact judged_all (by simp [low, high])

theorem takeObaAdjust_wrongState (ha : a < 32) (nonzero : q ≠ 0) (h : q.natAbs ≤ 4000000000)
    (live : (s.account a).state ≠ .opened) : takeObaAdjust a q s = (s.ev, .refuse .wrongState) := by
  rw [takeObaAdjust_eq ha nonzero h, bne_iff_ne.2 live, refuseIf_true]

theorem takeObaAdjust_opened (ha : a < 32) (nonzero : q ≠ 0) (h : q.natAbs ≤ 4000000000)
    (live : (s.account a).state = .opened) : takeObaAdjust a q s =
      refuseIf s (q < 0 && s.cannotGive a q.natAbs) (.refuse .insufficient)
        (refuseIf s (q > 0 && s.cannotTake a q.natAbs) (.refuse .noSpace)
          (s.obaAdjusted a q,
            .ok [⟨4, ((s.obaAdjusted a q).s.account a).inventory⟩, i8 (s.obaAdjusted a q).s.su.balance])) := by
  rw [takeObaAdjust_eq ha nonzero h, live]
  rfl

theorem lacks_iff : (decide (q < 0) && s.cannotGive a q.natAbs) = true ↔
    q < 0 ∧ (s.account a).inventory + q < max 0 (-((s.account a).slot s.acb.running).c) := by
  rw [Bool.and_eq_true, decide_eq_true_iff]
  refine and_congr_right fun out => ?_
  rw [State.cannotGive, decide_eq_true_iff, Int.ofNat_natAbs_of_nonpos out.le, sub_neg_eq_add]
  rfl

theorem overfills_iff : (decide (q > 0) && s.cannotTake a q.natAbs) = true ↔
    0 < q ∧ (s.account a).space < (s.account a).inventory + q + max 0 ((s.account a).slot s.acb.running).c := by
  rw [Bool.and_eq_true, decide_eq_true_iff]
  refine and_congr_right fun into => ?_
  rw [State.cannotTake, decide_eq_true_iff, Int.natAbs_of_nonneg into.le]
  rfl

theorem takeObaAdjust_insufficient (ha : a < 32) (nonzero : q ≠ 0) (h : q.natAbs ≤ 4000000000)
    (live : (s.account a).state = .opened) (out : q < 0)
    (lacks : (s.account a).inventory + q < max 0 (-((s.account a).slot s.acb.running).c)) :
    takeObaAdjust a q s = (s.ev, .refuse .insufficient) := by
  rw [takeObaAdjust_opened ha nonzero h live, lacks_iff.2 ⟨out, lacks⟩, refuseIf_true]

theorem takeObaAdjust_noSpace (ha : a < 32) (nonzero : q ≠ 0) (h : q.natAbs ≤ 4000000000)
    (live : (s.account a).state = .opened) (into : 0 < q)
    (full : (s.account a).space < (s.account a).inventory + q + max 0 ((s.account a).slot s.acb.running).c) :
    takeObaAdjust a q s = (s.ev, .refuse .noSpace) := by
  have gives : ¬(decide (q < 0) && s.cannotGive a q.natAbs) = true := mt lacks_iff.1 fun both => both.1.not_gt into
  rw [takeObaAdjust_opened ha nonzero h live, Bool.eq_false_iff.2 gives, overfills_iff.2 ⟨into, full⟩,
    refuseIf_false, refuseIf_true]

theorem takeObaAdjust_moves (ha : a < 32) (nonzero : q ≠ 0) (h : q.natAbs ≤ 4000000000)
    (live : (s.account a).state = .opened)
    (gives : q < 0 → max 0 (-((s.account a).slot s.acb.running).c) ≤ (s.account a).inventory + q)
    (fits : 0 < q → (s.account a).inventory + q + max 0 ((s.account a).slot s.acb.running).c ≤ (s.account a).space) :
    takeObaAdjust a q s = (s.obaAdjusted a q,
      .ok [⟨4, ((s.obaAdjusted a q).s.account a).inventory⟩, i8 (s.obaAdjusted a q).s.su.balance]) := by
  have enough : ¬(decide (q < 0) && s.cannotGive a q.natAbs) = true :=
    mt lacks_iff.1 fun both => (gives both.1).not_gt both.2
  have room : ¬(decide (q > 0) && s.cannotTake a q.natAbs) = true :=
    mt overfills_iff.1 fun both => (fits both.1).not_gt both.2
  rw [takeObaAdjust_opened ha nonzero h live, Bool.eq_false_iff.2 enough, Bool.eq_false_iff.2 room, refuseIf_false,
    refuseIf_false]

end

/-! ### A live boundary (R122, R123, R139) -/

theorem keepResidues_acc (s : State) (r : Nat) : (s.keepResidues.run r).acc =
    if r = 6 ∨ s.runDir r ≠ .unused then (s.run r).acc % 10000 else (s.run r).acc := by
  have fixed : (if s.snapped r then ({ acc := ({} : Run).acc % 10000 } : Run) else {}) = {} := by
    split <;> rfl
  have snapped : s.snapped r = true ↔ r = 6 ∨ s.runDir r ≠ .unused := by
    simp [State.snapped]
  have here : s.keepResidues.run r = if s.snapped r then { s.run r with acc := (s.run r).acc % 10000 } else s.run r :=
    getD_mapIdx_of_fixed fixed s.mu.runs
  rw [here, apply_ite Run.acc]
  simp only [snapped]

section
variable {s : State} {start clk : Clk}

theorem nextClose_nil (h : s.su.due = []) : s.nextClose = { s with su := { s.su with current := none } } := by
  simp only [State.nextClose, h]

theorem nextClose_cons {d : Due} {rest : List Due} (h : s.su.due = d :: rest) : s.nextClose =
    { s with su := { s.su with current := some { due := d, slot := s.acb.running }, due := rest } } := by
  simp only [State.nextClose, h]

/-- The period that ends at a live boundary, as it is entered for closing (R122, R123). -/
def State.enteredDue (s : State) (start : Clk) : Due :=
  { number := s.su.lastNumber + 1, start := start, snapshot := some s.meterSnapshot }

theorem enterPeriod_metered (h : s.su.openStart = some start) : s.enterPeriod clk true = { s.keepResidues with
    su := { s.su with
      lastNumber := s.su.lastNumber + 1, openStart := some clk, due := s.su.due ++ [s.enteredDue start] } } := by
  rw [State.enterPeriod, h]
  rfl

theorem suBoundary_busy {c : Close} {day : Bool} (loaded : s.acb.loaded = true) (h : s.su.openStart = some start)
    (busy : s.su.current = some c) : suBoundary clk day s.ev =
      ({ s.keepResidues with su := { s.su with
          lastNumber := s.su.lastNumber + 1, openStart := some clk, due := s.su.due ++ [s.enteredDue start] } } :
        State).ev.hand true := by
  have flight : (s.enterPeriod clk true).inFlight = true := by
    rw [enterPeriod_metered h, State.inFlight]
    simp [busy]
  refine (if_pos loaded).trans ?_
  rw [closeBegin, State.ev_s, if_pos flight, enterPeriod_metered h]
  rfl

theorem suBoundary_idle {day : Bool} (loaded : s.acb.loaded = true) (h : s.su.openStart = some start)
    (idle : s.su.current = none) : suBoundary clk day s.ev = (s.enterPeriod clk true).nextClose.ev.hand true := by
  have free : ¬(s.enterPeriod clk true).inFlight = true := by
    rw [enterPeriod_metered h, State.inFlight]
    simp [idle]
  refine (if_pos loaded).trans ?_
  rw [closeBegin, State.ev_s, if_neg free]
  rfl

theorem suBoundary_unloaded {day : Bool} (unloaded : s.acb.loaded = false) : ∃ z : State,
    suBoundary clk day s.ev = reconfirm z.acb.running z.ev ∧ z.mu = s.keepResidues.mu ∧
      z.su = { s.su with openStart := some clk } ∧ z.acb = (s.advanceBook day).acb := by
  refine ⟨({ s.keepResidues with su := { s.su with openStart := some clk } } : State).advanceBook day, ?_, ?_⟩
  · rw [suBoundary, if_neg (by simp [unloaded])]
    rfl
  · cases day <;> exact ⟨rfl, rfl, rfl⟩

theorem nextClose_mu (s : State) : s.nextClose.mu = s.mu := by
  unfold State.nextClose
  split <;> rfl

theorem nextClose_acb (s : State) : s.nextClose.acb = s.acb := by
  unfold State.nextClose
  split <;> rfl

/-- A live boundary under a LOADED book leaves the book, and of the measurement the residues (R122, R123). -/
theorem suBoundary_loaded {day : Bool} (loaded : s.acb.loaded = true) (h : s.su.openStart = some start) :
    (suBoundary clk day s.ev).restep = true ∧ (suBoundary clk day s.ev).s.acb = s.acb ∧
      (suBoundary clk day s.ev).s.mu = s.keepResidues.mu := by
  cases current : s.su.current with
  | none =>
    rw [suBoundary_idle loaded h current, Ev.hand_s, State.ev_s, nextClose_acb, nextClose_mu, enterPeriod_metered h]
    exact ⟨rfl, rfl, rfl⟩
  | some c =>
    rw [suBoundary_busy loaded h current]
    exact ⟨rfl, rfl, rfl⟩

end

theorem reconfirm_mu (h : Nat) (ev : Ev) : (reconfirm h ev).s.mu = ev.s.mu :=
  (reconfirm_frame (F := False) (G := False) h ev).mu id

/-! ### Requests that a close holds back (R124, R179, R183) -/

theorem closeTaking_serves {c : Instr} {take : State → Ev × Answer} (h : closeTaking c = some take) (s : State) :
    c.bookOnly = true ∧ exec c s = .next (serve c take s) := by
  cases c <;> simp only [closeTaking, Option.some.injEq, reduceCtorEq] at h <;> subst h <;> exact ⟨rfl, rfl⟩

theorem closeTaking_none {c : Instr} (h : closeTaking c = none) : c.bookOnly = false := by
  cases c <;> simp only [closeTaking, reduceCtorEq] at h <;> rfl

theorem QEntry.untaken_iff (e : QEntry) : e.untaken = true ↔ e.state = .inTurn ∨ e.state = .waitingClose := by
  unfold QEntry.untaken
  cases e.state <;> simp

theorem held_iff (s : State) (x : QEntry) : (x.untaken && s.heldByClose x) = true ↔
    (x.state = .waitingClose ∧ s.su.current ≠ none) ∨
      (x.state = .inTurn ∧ s.waitsForClose x.request = true) := by
  rw [Bool.and_eq_true, QEntry.untaken_iff, State.heldByClose, State.inFlight]
  cases x.state <;> simp [Option.isSome_iff_ne_none]

theorem mem_heldEntries {s : State} {e : QEntry} : e ∈ s.heldEntries ↔
    e ∈ s.slu.queue ∧ (e.state = .inTurn ∨ e.state = .waitingClose) ∧
      ∃ x ∈ s.slu.queue, x.block = e.block ∧ x.arrival ≤ e.arrival ∧
        ((x.state = .waitingClose ∧ s.su.current ≠ none) ∨
          (x.state = .inTurn ∧ s.waitsForClose x.request = true)) := by
  simp only [State.heldEntries, List.mem_filter, Bool.and_eq_true (e.untaken), QEntry.untaken_iff e, List.any_eq_true]
  refine and_congr_right fun _ => and_congr_right fun _ => exists_congr fun x => and_congr_right fun _ => ?_
  rw [Bool.and_eq_true, Bool.and_eq_true, held_iff, beq_iff_eq, decide_eq_true_iff]
  tauto

section
variable {s : State} {e : QEntry} {take : State → Ev × Answer}

theorem takeHeld_answers (h : closeTaking e.request = some take) (idle : s.su.current = none)
    (turn : s.inTurn e = true) {ev : Ev} {body : List Fld} (k : take s = (ev, .ok body)) :
    takeHeld s e = s.answered e ev body := by
  rw [takeHeld_takes h (by simp [State.inFlight, idle]) turn, takeEntry, k]
  rfl

theorem takeHeld_refuses (h : closeTaking e.request = some take) (idle : s.su.current = none)
    (turn : s.inTurn e = true) {ev : Ev} {st : Status} {d : Detail} (k : take s = (ev, .no st d)) :
    takeHeld s e = (s.noteTaking ev.finish e.arrival).formReply e st d [] := by
  rw [takeHeld_takes h (by simp [State.inFlight, idle]) turn, takeEntry, k]

theorem takeHeld_not_in_turn (h : closeTaking e.request = some take) (turn : s.inTurn e = false) :
    takeHeld s e = s := by
  simp [takeHeld, h, tryEntry, turn]

theorem takeWaiting_idle (idle : s.su.current = none) (k : s.slu.resetPending = false) (held : List QEntry) :
    s.takeWaiting held = held.foldl takeHeld s := by
  simp [State.takeWaiting, State.inFlight, idle, k]

end

end Sys2Proof.Machine
end

section
/-! PROOFS. The completion of a close (R125): the posting (R131), the record (R134, R135), the running slot (R82, R100),
the skip (R138) and the next close due, seen in the book and in the settlement records they leave. -/

namespace Sys2Proof.Machine

/-! ### What every member of a changed list keeps -/

section
variable {α β : Type} {f : α → α} {g : α → β}

theorem getD_map_keeps (h : ∀ x, g (f x) = g x) (l : List α) (i : Nat) (d : α) :
    g ((l.map f).getD i d) = g (l.getD i d) := by
  rw [List.getD_eq_getElem?_getD, List.getElem?_map, List.getD_eq_getElem?_getD]
  cases l[i]? with
  | none => rfl
  | some x => exact h x

theorem getD_map_sets {z : β} (h : ∀ x, g (f x) = z) {d : α} (default : g d = z) (l : List α) (i : Nat) :
    g ((l.map f).getD i d) = z := by
  rw [List.getD_eq_getElem?_getD, List.getElem?_map]
  cases l[i]? with
  | none => exact default
  | some x => exact h x

end

/-! ### The posting (R131) -/

theorem setBalance_su (b : Int) (ev : Ev) : (setBalance b ev).s.su = { ev.s.su with balance := b } := by
  unfold setBalance
  split
  case isTrue same => rw [← same]
  case isFalse => exact (newWatchValue_frame (F := False) (G := False) (B := False) _ _ (ev.map _)).su id

theorem setBalance_acb (b : Int) (ev : Ev) : (setBalance b ev).s.acb = ev.s.acb := by
  unfold setBalance
  split
  · rfl
  · exact (newWatchValue_frame (F := False) (G := False) (B := False) _ _ (ev.map _)).acb id

theorem inventoryWatches_frame {F G B : Prop} (before : List Account) (ev : Ev) :
    Frame F G B ev.s (inventoryWatches before ev).s :=
  foldl_frame _ (fun _ _ => ite_frame (.refl _) (newWatchValue_frame _ _ _)) _ ev

theorem postClose_su (r : Settled) (ev : Ev) : (postClose r ev).s.su =
    { ev.s.su with balance := ev.s.su.balance + r.obaAlloc - r.obaFuel } :=
  ((inventoryWatches_frame (F := False) (G := False) (B := False) _ _).su id).trans (setBalance_su _ _)

theorem postClose_acb (r : Settled) (ev : Ev) : (postClose r ev).s.acb =
    { ev.s.acb with accounts := ev.s.acb.accounts.mapIdx r.post } :=
  ((inventoryWatches_frame (F := False) (G := False) (B := False) _ _).acb id).trans (setBalance_acb _ _)

theorem postClose_frame {F G : Prop} (r : Settled) (ev : Ev) : Frame F G True ev.s (postClose r ev).s :=
  Frame.trans (t := (ev.map fun s => { s with acb := { s.acb with accounts := s.acb.accounts.mapIdx r.post } }).s) {}
    ((setBalance_frame _ _).trans (inventoryWatches_frame _ _))

/-! ### The record and the running slot (R82, R100, R134, R135) -/

theorem addRecord_eq (ring : List PeriodRecord) (r : PeriodRecord) :
    addRecord ring r = (ring ++ [r]).drop (ring.length + 1 - 24) := by
  rw [addRecord, List.length_append]
  rfl

/-- A period record into the ring of the settlement records (R135). -/
def State.withRecord (s : State) (r : PeriodRecord) : State :=
  { s with su := { s.su with ring := (s.su.ring ++ [r]).drop (s.su.ring.length + 1 - 24) } }

theorem postPeriod_eq (c : Close) (ev : Ev) : postPeriod c ev = (postClose (ev.s.settled c) ev).map fun y =>
    (y.withRecord ((ev.s.settled c).toRecord c)).advanceBook (ev.s.endsDay c.due.start) := by
  simp only [postPeriod, addRecord_eq]
  rfl

theorem advanceBook_su (s : State) (day : Bool) : (s.advanceBook day).su = s.su := by
  cases day <;> rfl

theorem advanceBook_frame {F G : Prop} (s : State) (day : Bool) : Frame F G True s (s.advanceBook day) := by
  cases day <;> exact {}

theorem advanceBook_running (s : State) (day : Bool) :
    (s.advanceBook day).acb.running = if day then 0 else min (s.acb.running + 1) 23 := by
  cases day <;> rfl

/-- An account after the day roll (R100). -/
def Account.rolled (a : Account) : Account := { a with book := a.book.drop 24 ++ List.replicate 24 {}, fuel := 0 }

theorem advanceBook_inventory (s : State) (day : Bool) (a : Nat) :
    ((s.advanceBook day).account a).inventory = (s.account a).inventory := by
  cases day
  · rfl
  · exact getD_map_keeps (f := Account.rolled) (g := Account.inventory) (fun _ => rfl) _ a {}

theorem advanceBook_fuel (s : State) (day : Bool) (a : Nat) :
    ((s.advanceBook day).account a).fuel = if day then 0 else (s.account a).fuel := by
  cases day
  · rfl
  · exact getD_map_sets (f := Account.rolled) (g := Account.fuel) (d := {}) (fun _ => rfl) rfl _ a

section
variable (c : Close) (ev : Ev)

theorem postPeriod_su : (postPeriod c ev).s.su = { ev.s.su with
    balance := ev.s.su.balance + (ev.s.settled c).obaAlloc - (ev.s.settled c).obaFuel
    ring := (ev.s.su.ring ++ [(ev.s.settled c).toRecord c]).drop (ev.s.su.ring.length + 1 - 24) } := by
  rw [postPeriod_eq, Ev.map_s, advanceBook_su, State.withRecord, postClose_su]

theorem postPeriod_running : (postPeriod c ev).s.acb.running =
    if ev.s.endsDay c.due.start then 0 else min (ev.s.acb.running + 1) 23 := by
  rw [postPeriod_eq, Ev.map_s, advanceBook_running, State.withRecord, postClose_acb]

theorem postClose_account {a : Nat} (h : a < ev.s.acb.accounts.length) (r : Settled) :
    (postClose r ev).s.account a = r.post a (ev.s.account a) := by
  rw [State.account, postClose_acb, State.account, List.getD_eq_getElem _ _ h]
  simp [h]

theorem postPeriod_inventory {a : Nat} (h : a < ev.s.acb.accounts.length) :
    ((postPeriod c ev).s.account a).inventory = (ev.s.account a).inventory + (ev.s.settled c).a.getD a 0 -
      (ev.s.settled c).fuel.getD a 0 := by
  rw [postPeriod_eq, Ev.map_s, advanceBook_inventory]
  exact congrArg Account.inventory (postClose_account ev h _)

theorem postPeriod_fuel {a : Nat} (h : a < ev.s.acb.accounts.length) : ((postPeriod c ev).s.account a).fuel =
    if ev.s.endsDay c.due.start then 0
    else min ((ev.s.account a).fuel + (ev.s.settled c).fuel.getD a 0) 4000000000 := by
  rw [postPeriod_eq, Ev.map_s, advanceBook_fuel]
  exact congrArg (fun r : Account => if ev.s.endsDay c.due.start then 0 else r.fuel) (postClose_account ev h _)

theorem postPeriod_frame {F G : Prop} : Frame F G True ev.s (postPeriod c ev).s := by
  rw [postPeriod_eq]
  exact (postClose_frame _ ev).trans (Frame.trans (t := (postClose (ev.s.settled c) ev).s.withRecord _) {}
    (advanceBook_frame _ _))

end

/-! ### The skip (R138) -/

section
variable (ev : Ev)

theorem skip_su : (skip ev).s.su =
    { ev.s.su with lastNumber := ev.s.su.lastNumber + ev.s.su.skipped, skipped := 0 } := skipBook_su _

/-- An account after a skip (R138). -/
def Account.skipped (a : Account) : Account :=
  { a.emptied with fuel := 0, mark := a.emptied.mark || a.emptied.state != .closed }

theorem skip_acb : (skip ev).s.acb = { ev.s.acb with
    running := slotOfClock ev.s.startHour ev.s.clock
    accounts := ev.s.acb.accounts.map Account.skipped
    caps := List.replicate 48 ev.s.nominal } := by
  refine ((raiseCurtailments_frame (F := False) (G := False) (B := False) _ _ { ev with s := _ }).acb id).trans ?_
  exact congrArg (fun l : List Account => ({ ev.s.acb with
    running := slotOfClock ev.s.startHour ev.s.clock
    accounts := l
    caps := List.replicate 48 ev.s.nominal } : Acb)) List.map_map

theorem skip_frame {F G : Prop} : Frame F G True ev.s (skip ev).s := by
  unfold skip skipBook
  exact Frame.trans (t := _) {} (raiseCurtailments_frame _ _ { ev with s := _ })

theorem skip_inventory (a : Nat) : ((skip ev).s.account a).inventory = (ev.s.account a).inventory := by
  rw [State.account, skip_acb]
  exact getD_map_keeps (f := Account.skipped) (g := Account.inventory) (fun _ => rfl) _ a {}

theorem skip_fuel (a : Nat) : ((skip ev).s.account a).fuel = 0 := by
  rw [State.account, skip_acb]
  exact getD_map_sets (f := Account.skipped) (g := Account.fuel) (d := {}) (fun _ => rfl) rfl _ a

theorem skip_slot (a k : Nat) : ((skip ev).s.account a).slot k = {} := by
  rw [State.account, skip_acb]
  exact getD_map_sets (f := Account.skipped) (g := fun r => Account.slot r k) (d := {})
    (fun _ => Account.slot_default k) (Account.slot_default k) _ a

/-! ### Steps 6 to 9 of R125 -/

/-- The re-confirmation of a completion, and the skip where one is due (R125 steps 6 and 7). -/
def reopened : Ev :=
  let ev1 := reconfirm ev.s.acb.running ev
  if ev1.s.su.due.isEmpty && ev1.s.su.skipped != 0 then skip ev1 else ev1

theorem openPeriod_eq : openPeriod ev = fplStep .restep ((reopened ev).map State.nextClose) := rfl

theorem openPeriod_acb : (openPeriod ev).s.acb = (reopened ev).s.acb :=
  ((fplStep_frame (G := False) (B := False) .restep _).acb id).trans (nextClose_acb _)

theorem openPeriod_su : (openPeriod ev).s.su = (reopened ev).s.nextClose.su :=
  (fplStep_frame (G := False) (B := False) .restep _).su id

variable {ev}

theorem reopened_skips (h : ev.s.su.due = [] ∧ ev.s.su.skipped ≠ 0) :
    reopened ev = skip (reconfirm ev.s.acb.running ev) :=
  if_pos (by rw [reconfirm_su]; simp [h.1, h.2])

theorem reopened_stays (h : ¬(ev.s.su.due = [] ∧ ev.s.su.skipped ≠ 0)) :
    reopened ev = reconfirm ev.s.acb.running ev :=
  if_neg (by rw [reconfirm_su]; simpa using h)

theorem reopened_inventory (ev : Ev) (a : Nat) :
    ((reopened ev).s.account a).inventory = (ev.s.account a).inventory := by
  by_cases h : ev.s.su.due = [] ∧ ev.s.su.skipped ≠ 0
  · rw [reopened_skips h, skip_inventory, reconfirm_account_rest]
  · rw [reopened_stays h, reconfirm_account_rest]

theorem reopened_frame {F G : Prop} (ev : Ev) : Frame F G True ev.s (reopened ev).s :=
  ite_frame ((reconfirm_frame _ ev).trans (skip_frame _)) (reconfirm_frame _ ev)

theorem nextClose_frame {F G : Prop} (s : State) : Frame F G True s s.nextClose := by
  unfold State.nextClose
  split <;> exact {}

theorem openPeriod_frame {G : Prop} (ev : Ev) : Frame True G True ev.s (openPeriod ev).s :=
  ((reopened_frame ev).trans (map_frame _ _ nextClose_frame)).trans (fplStep_frame _ _)

end

/-! ### The whole completion (R125) -/

/-- A completion up to OBA_LIMIT: PERIOD_CLOSED, and DAY_ROLLED where the day rolls. -/
def closeRolled (c : Close) (ev : Ev) : Ev :=
  let r := (ev.s.settled c).toRecord c
  let ev1 := raise .periodClosed none (openPeriod (postPeriod c ev)) (.closed r.number r.case)
  if ev.s.endsDay c.due.start then raise .dayRolled none ev1 else ev1

section
variable (c : Close) (ev : Ev)

theorem completeClose_eq : completeClose c ev = raiseObaLimit (closeRolled c ev) := rfl

theorem closeRolled_told {F G B : Prop} :
    Frame F G B (openPeriod (postPeriod c ev)).s (closeRolled c ev).s :=
  ite_frame ((raise_frame _ _ _).trans (raise_frame _ _ _)) (raise_frame _ _ _)

theorem completeClose_told {F G B : Prop} :
    Frame F G B (openPeriod (postPeriod c ev)).s (completeClose c ev).s :=
  (closeRolled_told c ev).trans (ite_frame (raise_frame _ _ _) (.refl _))

theorem completeClose_frame {G : Prop} : Frame True G True ev.s (completeClose c ev).s :=
  ((postPeriod_frame c ev).trans (openPeriod_frame _)).trans (completeClose_told c ev)

theorem closeRolled_obaLimit : (closeRolled c ev).s.obaLimit = ev.s.obaLimit := by
  have pst : (closeRolled c ev).s.pst = ev.s.pst :=
    (((postPeriod_frame (F := True) (G := False) c ev).trans (openPeriod_frame _)).trans (closeRolled_told c ev)).pst
  rw [State.obaLimit, State.site, pst]
  rfl

theorem completeClose_finish_acb : (completeClose c ev).finish.acb = (reopened (postPeriod c ev)).s.acb :=
  (((completeClose_told c ev).trans (finish_frame (G := False) (B := False) _)).acb id).trans (openPeriod_acb _)

theorem completeClose_finish_su : (completeClose c ev).finish.su = (reopened (postPeriod c ev)).s.nextClose.su :=
  (((completeClose_told c ev).trans (finish_frame (G := False) (B := False) _)).su id).trans (openPeriod_su _)

theorem completeClose_finish_account :
    (completeClose c ev).finish.account = (reopened (postPeriod c ev)).s.account := by
  funext a
  rw [State.account, completeClose_finish_acb]
  rfl

theorem idle_iff (r : Settled) (c : Close) : r.idle c = true ↔
    (∀ x ∈ r.cs, x = 0) ∧ c.energyIn = 0 ∧ c.energyOut = 0 ∧ c.fuel = 0 := by
  simp [Settled.idle, and_assoc]

end

end Sys2Proof.Machine
end

section
/-! PROOFS. What the completion of a close leaves, with a skip and without, and O45. -/

namespace Sys2Proof.Machine

theorem nextClose_su (s : State) : s.nextClose.su = { s.su with
    current := s.su.due.head?.map fun d => { due := d, slot := s.acb.running }
    due := s.su.due.tail } := by
  cases h : s.su.due with
  | nil => simp only [nextClose_nil h, h, List.head?_nil, Option.map_none, List.tail_nil]
  | cons d rest => rw [nextClose_cons h]; rfl

/-! ### What a completion leaves (R125) -/

/-- The completion of a close takes a skip (R138). -/
def State.skips (s : State) : Prop := s.su.due = [] ∧ s.su.skipped ≠ 0

section
variable (s : State) (c : Close)

/-- The balance that a completion posts (R131). -/
def State.postedBalance : Int := s.su.balance + (s.settled c).obaAlloc - (s.settled c).obaFuel

/-- The ring that a completion leaves (R135). -/
def State.postedRing : List PeriodRecord :=
  (s.su.ring ++ [(s.settled c).toRecord c]).drop (s.su.ring.length + 1 - 24)

theorem postPeriod_ev_su : (postPeriod c s.ev).s.su =
    { s.su with balance := s.postedBalance c, ring := s.postedRing c } := postPeriod_su c s.ev

theorem reopened_of_skips (h : s.skips) : reopened (postPeriod c s.ev) =
    skip (reconfirm (postPeriod c s.ev).s.acb.running (postPeriod c s.ev)) :=
  reopened_skips (by rw [postPeriod_ev_su]; exact h)

theorem reopened_of_no_skip (h : ¬s.skips) : reopened (postPeriod c s.ev) =
    reconfirm (postPeriod c s.ev).s.acb.running (postPeriod c s.ev) :=
  reopened_stays (by rw [postPeriod_ev_su]; exact h)

theorem completed_su_of_skips (h : s.skips) : (completeClose c s.ev).finish.su = { s.su with
    balance := s.postedBalance c, ring := s.postedRing c, lastNumber := s.su.lastNumber + s.su.skipped
    skipped := 0, current := none, due := [] } := by
  rw [completeClose_finish_su, nextClose_su, reopened_of_skips s c h, skip_su, reconfirm_su, postPeriod_ev_su, h.1]
  rfl

theorem completed_su_of_no_skip (h : ¬s.skips) : (completeClose c s.ev).finish.su = { s.su with
    balance := s.postedBalance c, ring := s.postedRing c
    current := s.su.due.head?.map fun d => { due := d, slot := (completeClose c s.ev).finish.acb.running }
    due := s.su.due.tail } := by
  rw [completeClose_finish_su, completeClose_finish_acb, nextClose_su, reopened_of_no_skip s c h, reconfirm_su,
    postPeriod_ev_su]

theorem completed_running_of_skips (h : s.skips) :
    (completeClose c s.ev).finish.acb.running = slotOfClock s.startHour s.clock := by
  have frame : Frame True False True s (reconfirm (postPeriod c s.ev).s.acb.running (postPeriod c s.ev)).s :=
    (postPeriod_frame c s.ev).trans (reconfirm_frame _ _)
  rw [completeClose_finish_acb, reopened_of_skips s c h, skip_acb]
  simp only [State.startHour, State.site, State.clock, frame.pst, frame.mu id]

theorem completed_running_of_no_skip (h : ¬s.skips) : (completeClose c s.ev).finish.acb.running =
    if s.endsDay c.due.start then 0 else min (s.acb.running + 1) 23 := by
  rw [completeClose_finish_acb, reopened_of_no_skip s c h, reconfirm_acb]
  exact postPeriod_running c s.ev

theorem completed_slot_of_skips (h : s.skips) (a k : Nat) :
    ((completeClose c s.ev).finish.account a).slot k = {} := by
  rw [completeClose_finish_account, reopened_of_skips s c h, skip_slot]

theorem completed_inventory {a : Nat} (h : a < s.acb.accounts.length) :
    ((completeClose c s.ev).finish.account a).inventory =
      (s.account a).inventory + (s.settled c).a.getD a 0 - (s.settled c).fuel.getD a 0 := by
  rw [completeClose_finish_account, reopened_inventory]
  exact postPeriod_inventory c s.ev h

theorem completed_fuel_of_skips (h : s.skips) (a : Nat) : ((completeClose c s.ev).finish.account a).fuel = 0 := by
  rw [completeClose_finish_account, reopened_of_skips s c h, skip_fuel]

theorem completed_fuel_of_no_skip (h : ¬s.skips) {a : Nat} (inside : a < s.acb.accounts.length) :
    ((completeClose c s.ev).finish.account a).fuel = if s.endsDay c.due.start then 0
      else min ((s.account a).fuel + (s.settled c).fuel.getD a 0) 4000000000 := by
  rw [completeClose_finish_account, reopened_of_no_skip s c h, reconfirm_account_rest]
  exact postPeriod_fuel c s.ev inside

/-- Whether it skips or not, a completion posts the balance, adds the record and leaves the open period's start. -/
theorem completed_ledger : (completeClose c s.ev).finish.su.ring = s.postedRing c ∧
    (completeClose c s.ev).finish.su.balance = s.postedBalance c ∧
    (completeClose c s.ev).finish.su.openStart = s.su.openStart := by
  by_cases h : s.skips
  · rw [completed_su_of_skips s c h]
    exact ⟨rfl, rfl, rfl⟩
  · rw [completed_su_of_no_skip s c h]
    exact ⟨rfl, rfl, rfl⟩

theorem completed_frame : Frame True False True s (completeClose c s.ev).finish :=
  (completeClose_frame c s.ev).trans (finish_frame _)

/-- A completion is its posting, its opening of the next period and its events, OBA_LIMIT last (R125). -/
theorem completeClose_ev_eq : completeClose c s.ev =
    if s.obaLimit < (closeRolled c s.ev).s.su.balance.natAbs then
      raise .obaLimit none (closeRolled c s.ev) (.balance (closeRolled c s.ev).s.su.balance)
    else closeRolled c s.ev := by
  rw [completeClose_eq, raiseObaLimit, closeRolled_obaLimit]
  rfl

theorem exec_closeComplete (run : s.phase = .running) (h : s.su.current = some c) :
    exec .closeComplete s = .next ((completeClose c s.ev).finish.takeWaiting s.heldEntries) := by
  simp only [exec, execCloseComplete, run, h]

theorem exec_closeComplete_none (h : s.su.current = none) : exec .closeComplete s = .next s := by
  simp only [exec, execCloseComplete, h]
  cases s.phase <;> rfl

end

/-- Settles O45: each event by what its own operations leave, in the order of R125. -/
theorem settlementEventsApply : Obligations.SettlementEventsApply := by
  refine ⟨fun s e t a q => ⟨fun h ha nonzero small live gives fits => ?moves,
      fun h ha => ⟨fun out => ?quantity, fun nonzero small => ⟨fun dead => ?state, fun live out lacks => ?lacks,
        fun live into full => ?full⟩⟩, exec_closeComplete_none s⟩,
    fun s clk start day opened => ?boundary, fun s => ⟨rfl, rfl⟩, fun s e held c take => ?waiting,
    fun s c run current => ?completion⟩
  case moves =>
    exact completes_of rfl h (by
      rw [takeObaAdjust_moves ha nonzero small (by simpa using live) (by simpa using gives) (by simpa using fits),
        State.obaAdjusted, arrived_account]
      rfl)
  case quantity => exact refuses_of rfl h (takeObaAdjust_badQuantity ha out)
  case state => exact refuses_of rfl h (takeObaAdjust_wrongState ha nonzero small (by simpa using dead))
  case lacks =>
    exact refuses_of rfl h (takeObaAdjust_insufficient ha nonzero small (by simpa using live) out
      (by simpa using lacks))
  case full =>
    exact refuses_of rfl h (takeObaAdjust_noSpace ha nonzero small (by simpa using live) into (by simpa using full))
  case boundary =>
    intro ev x entered
    cases loaded : s.acb.loaded with
    | true =>
      obtain ⟨restep, acb, mu⟩ := suBoundary_loaded (clk := clk) (day := day) loaded opened
      refine ⟨fun r => ?_, fun _ => ⟨restep, acb, fun idle empty => ?_, fun c busy => ?_⟩, nofun⟩
      · exact (congrArg Run.acc (run_of_mu mu r)).trans (keepResidues_acc s r)
      · simp only [x, ev, suBoundary_idle loaded opened idle, Ev.hand_s, State.ev_s, nextClose_su,
          enterPeriod_metered opened, empty]
        rfl
      · simp only [x, ev, suBoundary_busy loaded opened busy]
        rfl
    | false =>
      obtain ⟨z, eq, mu, su, acb⟩ := suBoundary_unloaded (s := s) (clk := clk) (day := day) loaded
      have after_mu : x.mu = z.mu := by simp only [x, ev, eq, reconfirm_mu, State.ev_s]
      have after_su : x.su = z.su := by simp only [x, ev, eq, reconfirm_su, State.ev_s]
      refine ⟨fun r => ?_, nofun, fun _ => ⟨after_su.trans su, z, eq, after_mu.symm, after_su.symm, acb⟩⟩
      exact (congrArg Run.acc (run_of_mu (after_mu.trans mu) r)).trans (keepResidues_acc s r)
  case waiting =>
    intro untaken
    exact ⟨fun h => closeTaking_serves h s, closeTaking_none, List.filter_sublist, mem_heldEntries,
      fun h => takeWaiting_waits (by simpa [State.inFlight, Option.isSome_iff_ne_none] using h) held,
      fun idle k => takeWaiting_idle idle k held,
      fun idle h => ⟨fun ev body turn k => takeHeld_answers h idle turn k,
        fun ev st d turn k => takeHeld_refuses h idle turn k, fun turn => takeHeld_not_in_turn h turn⟩⟩
  case completion =>
    intro t day figure burnt r idle skips
    have frame := completed_frame s c
    obtain ⟨ring, balance, openStart⟩ := completed_ledger s c
    refine ⟨exec_closeComplete s c run current, fun empty => ?alone, (s.settled c).toRecord c,
      ⟨rfl, rfl, rfl, rfl, rfl, rfl, rfl, rfl, rfl, rfl, rfl, fun h => if_pos ((idle_iff r c).2 h),
        fun h => if_neg (mt (idle_iff r c).1 h), rfl⟩, ?chain, ring, balance, openStart, frame.mu id, frame.dtc id,
      frame.pst, fun a inside => ⟨completed_inventory s c inside, ?fuel⟩, fun stays => ?stays,
      fun skipped => ?skipped⟩
    case alone =>
      refine (exec_closeComplete s c run current).trans ?_
      rw [empty, takeWaiting_nil]
    case chain =>
      rw [completeClose_ev_eq, closeRolled, postPeriod_eq]
      rfl
    case fuel =>
      by_cases h : s.skips
      · rw [if_pos (.inr h)]
        exact completed_fuel_of_skips s c h a
      · have only_day : day = true ∨ skips ↔ day = true := or_iff_left h
        simp only [only_day]
        exact completed_fuel_of_no_skip s c h inside
    case stays =>
      have su := completed_su_of_no_skip s c stays
      refine ⟨(congrArg Su.lastNumber su).trans rfl, (congrArg Su.skipped su).trans rfl,
        completed_running_of_no_skip s c stays,
        fun empty => ?_, fun d rest more => ?_⟩
      · rw [empty] at su
        exact ⟨congrArg Su.current su, congrArg Su.due su⟩
      · rw [more] at su
        exact ⟨congrArg Su.current su, congrArg Su.due su⟩
    case skipped =>
      have su := completed_su_of_skips s c skipped
      exact ⟨congrArg Su.lastNumber su, congrArg Su.skipped su, congrArg Su.current su, congrArg Su.due su,
        completed_running_of_skips s c skipped, completed_slot_of_skips s c skipped⟩

end Sys2Proof.Machine
end

section
/-! PROOFS. The planner enabled, held and stepped by its interval (R105 to R107). -/

namespace Sys2Proof.Machine

/-! ### Requests judged alike whatever the link's record holds -/

section
variable {c : Instr} {s : State} {e : QEntry} {take : State → Ev × Answer} (x : exec c s = .next (serve c take s))
  (h : takes c s e = true)
include x h

theorem refuses_of_always {st : Status} {d : Detail}
    (k : ∀ q, take { s with slu := q } = (({ s with slu := q } : State).ev, .no st d)) : refuses c s e st d :=
  x.trans (congrArg _ (serve_refuses_always h k))

theorem completes_of_always {f : State → Ev} {body : State → List Fld}
    (k : ∀ q, take { s with slu := q } = (f { s with slu := q }, .ok (body (f { s with slu := q }).s))) :
    completes c s e f body := by
  obtain ⟨q, arrived⟩ := arrived_eq s c
  exact completes_of x h (by rw [arrived]; exact k q)

theorem tells_of_always {body : State → List Fld}
    (k : ∀ q, take { s with slu := q } = (({ s with slu := q } : State).ev, .ok (body { s with slu := q }))) :
    tells c s e body := by
  obtain ⟨q, arrived⟩ := arrived_eq s c
  exact tells_of x h (by rw [arrived]; exact k q)

end

/-! ### DISPATCH_ENABLE, refusal by refusal (R105) -/

section
variable {s : State}

theorem takeDispatchEnable_active (h : s.fpl.active = true) :
    takeDispatchEnable s = (s.ev, .ok s.dispatchReply) := if_pos h

/-- On a HELD planner the refusals are tried in the order of R105's table. -/
theorem takeDispatchEnable_held (h : s.fpl.active = false) : takeDispatchEnable s =
    refuseIf s s.settling (.refuse .settling) (refuseIf s s.tru.tripped (.refuse .tripped)
      (refuseIf s (!s.mu.set) (.refuse .clockUnset) (refuseIf s (!s.acb.loaded) (.refuse .unloaded)
        (s.invalidGroup.elim
          (activeStep .enable (s.setActive true).ev, .ok (activeStep .enable (s.setActive true).ev).s.dispatchReply)
          fun g => (s.ev, .no .wrongState ⟨.group, g.code⟩))))) := by
  refine (if_neg (Bool.eq_false_iff.1 h)).trans ?_
  cases s.invalidGroup <;> rfl

theorem takeDispatchEnable_settling (h : s.fpl.active = false) (settling : s.settling = true) :
    takeDispatchEnable s = (s.ev, .refuse .settling) := by
  simp [takeDispatchEnable_held h, settling]

variable (h : s.fpl.active = false) (settled : s.settling = false)
include h settled

theorem takeDispatchEnable_tripped (tripped : s.tru.tripped = true) :
    takeDispatchEnable s = (s.ev, .refuse .tripped) := by
  simp [takeDispatchEnable_held h, settled, tripped]

variable (normal : s.tru.tripped = false)
include normal

theorem takeDispatchEnable_clockUnset (unset : s.mu.set = false) :
    takeDispatchEnable s = (s.ev, .refuse .clockUnset) := by
  simp [takeDispatchEnable_held h, settled, normal, unset]

variable (set : s.mu.set = true)
include set

theorem takeDispatchEnable_unloaded (unloaded : s.acb.loaded = false) :
    takeDispatchEnable s = (s.ev, .refuse .unloaded) := by
  simp [takeDispatchEnable_held h, settled, normal, set, unloaded]

variable (loaded : s.acb.loaded = true)
include loaded

theorem takeDispatchEnable_invalid {g : Group} (invalid : s.invalidGroup = some g) :
    takeDispatchEnable s = (s.ev, .no .wrongState ⟨.group, g.code⟩) := by
  simp [takeDispatchEnable_held h, settled, normal, set, loaded, invalid]

theorem takeDispatchEnable_enables (valid : s.invalidGroup = none) : takeDispatchEnable s =
    (activeStep .enable (s.setActive true).ev, .ok (activeStep .enable (s.setActive true).ev).s.dispatchReply) := by
  simp [takeDispatchEnable_held h, settled, normal, set, loaded, valid]

end

/-! ### The first INVALID group -/

section
variable {s : State}

theorem invalidGroup_site (site : s.pst.site.live = none) : s.invalidGroup = some .site := by
  simp [State.invalidGroup, State.groupValid, site]

theorem invalidGroup_caverns (site : s.pst.site.live ≠ none) (caverns : s.pst.caverns.live = none) :
    s.invalidGroup = some .caverns := by
  simp [State.invalidGroup, State.groupValid, Option.isSome_iff_ne_none.2 site, caverns]

theorem invalidGroup_plant (site : s.pst.site.live ≠ none) (caverns : s.pst.caverns.live ≠ none)
    (plant : s.pst.plant.live = none) : s.invalidGroup = some .plant := by
  simp [State.invalidGroup, State.groupValid, Option.isSome_iff_ne_none.2 site, Option.isSome_iff_ne_none.2 caverns,
    plant]

theorem invalidGroup_none (site : s.pst.site.live ≠ none) (caverns : s.pst.caverns.live ≠ none)
    (plant : s.pst.plant.live ≠ none) : s.invalidGroup = none := by
  simp [State.invalidGroup, State.groupValid, Option.isSome_iff_ne_none.2 site, Option.isSome_iff_ne_none.2 caverns,
    Option.isSome_iff_ne_none.2 plant]

end

/-! ### DISPATCH_HOLD (R106) -/

theorem plannerCode_of_held {s : State} (h : s.fpl.active = false) : s.plannerCode = 0 :=
  if_neg (Bool.eq_false_iff.1 h)

theorem takeDispatchHold_holds {s : State} (h : s.fpl.active = true) :
    takeDispatchHold s = (heldStep .hold (s.setActive false).ev, .ok [b1 0]) := by
  have stays : (heldStep .hold (s.setActive false).ev).s.fpl.active = false := (heldStep_within _ _).held rfl
  rw [takeDispatchHold, if_pos h, plannerCode_of_held stays]

theorem takeDispatchHold_held {s : State} (h : s.fpl.active = false) : takeDispatchHold s = (s.ev, .ok [b1 0]) := by
  rw [takeDispatchHold, if_neg (Bool.eq_false_iff.1 h), State.ev_s, plannerCode_of_held h]

/-! ### The dispatch interval (R107) -/

/-- The dispatch deadline set anew, an interval from now. -/
def State.nextDispatch (s : State) : State :=
  { s with fpl := { s.fpl with dispatch := s.site.map fun p => s.after p.dispatchInterval } }

theorem intervalStep_active {s : State} (h : s.fpl.active = true) :
    intervalStep s.ev = activeStep .interval s.nextDispatch.ev := if_pos h

theorem intervalStep_held {s : State} (h : s.fpl.active = false) :
    intervalStep s.ev = heldStep .interval s.nextDispatch.ev := if_neg (Bool.eq_false_iff.1 h)

theorem exec_dispatchIntervalExpiry {s : State} (run : s.phase = .running) (h : due s.clock s.fpl.dispatch = true) :
    exec .dispatchIntervalExpiry s = .next (intervalStep s.ev).finish :=
  congrArg Host.Outcome.next (occurs_eq run h)

/-- Before the deadline, and with none running, nothing takes place (log entry 2). -/
theorem exec_dispatchIntervalExpiry_early {s : State} (h : due s.clock s.fpl.dispatch = false) :
    exec .dispatchIntervalExpiry s = .next s :=
  congrArg Host.Outcome.next (if_neg (by simp [h]))

/-- Settles O40: DISPATCH_ENABLE by the first refusal that applies, DISPATCH_HOLD and the interval by the planner's
state. -/
theorem dispatchEnablesHoldsAndSteps : Obligations.DispatchEnablesHoldsAndSteps := by
  refine fun s e t => ⟨fun h => ⟨fun active => ?tells, fun held settling => ?settling,
      fun held settled tripped => ?tripped, fun held settled normal => ⟨fun unset => ?unset,
        fun set unloaded => ?unloaded, fun set loaded => ?invalid⟩,
      fun held settled normal set loaded site caverns plant => ?enables⟩,
    fun h => ⟨fun active => ?holds, fun held => ?held⟩, fun run passed => ⟨fun active => ?step, fun held => ?rest⟩,
    exec_dispatchIntervalExpiry_early⟩
  case tells => exact tells_of_always rfl h fun _ => takeDispatchEnable_active active
  case settling => exact refuses_of_always rfl h fun _ => takeDispatchEnable_settling held settling
  case tripped => exact refuses_of_always rfl h fun _ => takeDispatchEnable_tripped held settled tripped
  case unset => exact refuses_of_always rfl h fun _ => takeDispatchEnable_clockUnset held settled normal unset
  case unloaded => exact refuses_of_always rfl h fun _ => takeDispatchEnable_unloaded held settled normal set unloaded
  case invalid =>
    have named {g : Group} (invalid : s.invalidGroup = some g) :
        refuses (.dispatchEnable t) s e .wrongState ⟨.group, g.code⟩ :=
      refuses_of_always rfl h fun q =>
        takeDispatchEnable_invalid (s := { s with slu := q }) held settled normal set loaded invalid
    exact ⟨fun site => named (invalidGroup_site site), fun site caverns => named (invalidGroup_caverns site caverns),
      fun site caverns plant => named (invalidGroup_plant site caverns plant)⟩
  case enables =>
    exact completes_of_always rfl h fun _ =>
      takeDispatchEnable_enables held settled normal set loaded (invalidGroup_none site caverns plant)
  case holds => exact completes_of_always rfl h fun _ => takeDispatchHold_holds active
  case held => exact completes_of_always rfl h fun _ => takeDispatchHold_held held
  case step => exact (exec_dispatchIntervalExpiry run passed).trans (by rw [intervalStep_active active]; rfl)
  case rest => exact (exec_dispatchIntervalExpiry run passed).trans (by rw [intervalStep_held held]; rfl)

end Sys2Proof.Machine
end

section
/-! PROOFS. The figures, limits, demands and setpoint of a planner step (R104, R109 to R115). -/

namespace Sys2Proof.Machine

/-! ### A review keeps the demands (R49, R53) -/

/-- The demand that the CDM keeps for a duty (R49). -/
def State.demand (s : State) (q : Duty) : Nat := (s.duty q).demand

theorem demand_congr {s t : State} (h : t.cdm = s.cdm) : t.demand = s.demand := by
  funext q
  cases q <;> simp [State.demand, State.duty, h]

section
variable (s : State) (d : Duty)

theorem updDuty_demand {f : DutyRec → DutyRec} (h : ∀ r, (f r).demand = r.demand) :
    (s.updDuty d f).demand = s.demand := by
  funext q
  cases d with
  | inject => cases q with
    | inject => exact h _
    | boost => rfl
  | boost => cases q with
    | inject => rfl
    | boost => exact h _

theorem withStartPending_demand (t : Option PendingTimer) : (s.withStartPending d t).demand = s.demand :=
  updDuty_demand s d fun _ => rfl

theorem withStopPending_demand (t : Option PendingTimer) : (s.withStopPending d t).demand = s.demand :=
  updDuty_demand s d fun _ => rfl

theorem startUnit_demand (u : Nat) : (s.startUnit d u).demand = s.demand := by
  rw [State.startUnit, withStartPending_demand, State.attemptStart, updDuty_demand]
  · rfl
  · exact fun _ => rfl

theorem stopUnit_demand (u : Nat) : (s.stopUnit d u).demand = s.demand := by
  rw [stopUnit_eq, withStopPending_demand]
  funext q
  cases q <;> rfl

end

theorem raise_demand (name : EventName) (index : Option Nat) (ev : Ev) (data : EventData) :
    (raise name index ev data).s.demand = ev.s.demand :=
  demand_congr ((raise_frame (F := False) (G := False) (B := False) name index ev).cdm id)

section
variable (d : Duty) (ev : Ev)

theorem startDecision_demand : (startDecision d ev).s.demand = ev.s.demand := by
  cases h : ev.s.eligible d with
  | some u =>
    rw [startDecision_starts h]
    exact startUnit_demand _ d u
  | none =>
    unfold startDecision
    rw [h]
    exact (raise_demand _ _ _ _).trans (updDuty_demand ev.s d fun _ => rfl)

theorem reviewStart_demand : (reviewStart d ev).s.demand = ev.s.demand := by
  by_cases idle : ev.s.tru.tripped = true ∨ ev.s.short d = false
  · rw [reviewStart_idle idle]
    exact withStartPending_demand ev.s d none
  · rw [not_or, Bool.not_eq_true, Bool.not_eq_false] at idle
    obtain ⟨normal, short⟩ := idle
    rw [reviewStart_short normal short rfl]
    split
    · exact (startDecision_demand d _).trans (withStartPending_demand ev.s d _)
    · exact withStartPending_demand ev.s d _

theorem reviewStop_demand : (reviewStop d ev).s.demand = ev.s.demand := by
  obtain ⟨t, left⟩ | ⟨u, _, left⟩ := reviewStop_cases d ev
  · rw [left, withStopPending_demand]
  · rw [left, stopUnit_demand]

theorem review_demand : (review d ev).s.demand = ev.s.demand :=
  (reviewStop_demand d _).trans (reviewStart_demand d ev)

end

/-- What a step hands the CDM is what the CDM then keeps. -/
theorem handDemands_demand (inj boost : Nat) (ev : Ev) :
    (handDemands inj boost ev).s.demand .inject = inj ∧ (handDemands inj boost ev).s.demand .boost = boost := by
  have kept : (handDemands inj boost ev).s.demand = _ := (review_demand .boost _).trans (review_demand .inject _)
  rw [kept]
  exact ⟨rfl, rfl⟩

/-! ### What a step finds and records -/

section
variable {s : State}

theorem figures_present (loaded : s.acb.loaded = true) (set : s.mu.set = true) : s.figures =
    some {
      slot := s.periodSlot, target := s.netConfirmed s.periodSlot, soFar := s.soFar, timeLeft := timeLeft s.clock
      effective := max (timeLeft s.clock) s.catchUpFloor
      required := clamp (-Config.maxRate) Config.maxRate
        (((s.netConfirmed s.periodSlot - s.soFar) * 3600).tdiv (max (timeLeft s.clock) s.catchUpFloor : Nat)) } :=
  if_pos (by rw [loaded, set]; rfl)

theorem figures_absent (h : s.acb.loaded = false ∨ s.mu.set = false) : s.figures = none :=
  if_neg (by simpa [← Bool.not_eq_true, imp_iff_not_or] using h)

theorem periodSlot_open (h : s.su.current = none) : s.periodSlot = s.acb.running := by
  rw [State.periodSlot, h]

theorem periodSlot_closing {c : Close} (h : s.su.current = some c) :
    s.periodSlot = if s.endsDay c.due.start then 24 else s.acb.running + 1 := by
  rw [State.periodSlot, h]

theorem injDemand_eq (r : Int) :
    (s.injDemand r : Int) = max 0 (min r (min s.injSum (s.capSlot s.periodSlot).inj : Nat)) :=
  Int.toNat_of_nonneg (le_max_left _ _)

theorem boostDemand_of_nonneg {r : Int} (h : 0 ≤ r) : s.boostDemand r = 0 := if_neg h.not_gt

theorem boostDemand_of_neg {r : Int} (h : r < 0) :
    s.boostDemand r = s.drawn (s.walk false (min r.natAbs s.wdLimit) none) := if_pos h

end

/-! ### What a step makes of its demands -/

theorem distribute_cdm (sp : Int) (w : Walk) (ev : Ev) : (distribute sp w ev).s.cdm = ev.s.cdm :=
  (congrArg State.cdm (distribute_only sp w ev).state).trans rfl

section
variable {ev u : Ev} {x : State}

theorem StepTaken.demand (h : StepTaken ev u x) : x.demand = u.s.demand :=
  demand_congr ((congrArg State.cdm h.state).trans (distribute_cdm _ _ u))

/-- Of what the injection limit is formed from, a step's demands change the running capacity alone (R112). -/
theorem StepTaken.injLimit (h : StepTaken ev u x) : u.s.injLimit =
    min (min ev.s.injSum (x.runningCapacity .inject)) (ev.s.capSlot ev.s.periodSlot).inj := by
  rw [h.runningCapacity, State.injLimit, h.only.state]
  rfl

end

/-- The required rate of a step, 0 with no figures (R104, R111). -/
def State.required (s : State) : Int := (s.figures.map Figures.required).getD 0

/-- An active step once its demands are handed (R113, R114). -/
def Ev.demanded (ev : Ev) : Ev := handDemands (ev.s.injDemand ev.s.required) (ev.s.boostDemand ev.s.required) ev

theorem activeStep_demanded (cause : StepCause) (ev : Ev) : StepTaken ev ev.demanded (activeStep cause ev).s :=
  ⟨handDemands_only _ _ ev, rfl, rfl, rfl⟩

theorem heldStep_demanded (cause : StepCause) (ev : Ev) : StepTaken ev (handDemands 0 0 ev) (heldStep cause ev).s :=
  ⟨handDemands_only 0 0 ev, rfl, rfl, rfl⟩

/-- Settles O41: what a step records is what its rules form of the state it finds, but for the injection limit, which
its demands come before, and for the demands, which their reviews keep. -/
theorem plannerStepFollowsFigures : Obligations.PlannerStepFollowsFigures := by
  intro ev cause x held p h cap r trial left
  have active := activeStep_demanded cause ev
  have rests := heldStep_demanded cause ev
  obtain ⟨inject, boost⟩ := handDemands_demand (ev.s.injDemand r) (ev.s.boostDemand r) ev
  obtain ⟨injectRests, boostRests⟩ := handDemands_demand 0 0 ev
  exact ⟨fun loaded set => ⟨_, figures_present loaded set, figures_present loaded set, rfl, rfl, rfl, rfl, rfl, rfl⟩,
    periodSlot_open, fun c => periodSlot_closing, rfl, fun unknown => ⟨figures_absent unknown, figures_absent unknown⟩,
    injDemand_eq r, rfl, rfl, active.injLimit, rfl, rfl, boostDemand_of_nonneg, boostDemand_of_neg,
    (congrFun active.demand .inject).trans inject, (congrFun active.demand .boost).trans boost,
    (congrFun rests.demand .inject).trans injectRests, (congrFun rests.demand .boost).trans boostRests,
    rests.injLimit, rfl, rfl, rfl, rfl, rfl, rfl, rfl, rfl⟩

end Sys2Proof.Machine
end

section
/-! PROOFS. When a request is not taken: outside running, with a reset pending, at a full queue, behind an untaken one,
and while a close is in flight (R124, R172, R178, R179, R183). -/

namespace Sys2Proof.Machine

/-! ### Every request is served -/

/-- A request of a kind is the taking of a frame that carries it. -/
theorem request_serves {c : Instr} {k : Nat} (h : c.kind = some k) (s : State) :
    ∃ take, exec c s = .next (serve c take s) := by
  cases c with
  | frameReceived | frameGapTimeout | framingError | replyGrant | noticeSent | telegramComplete | mainSupplyUp
  | mainSupplyLost | resetInputAsserted | resetInputReleased | startComplete | channelReading | holdExpiry
  | recalibrationBegin | recalibrationComplete | meterPulse | zeroFlowExpiry | clockSecond | crystalStop
  | crystalResume | periodBoundary | closeComplete | valveLimitChange | travelDeadlineExpiry | dwellExpiry
  | dispatchIntervalExpiry | startPendingExpiry | stopPendingExpiry | minimumRunExpiry | unitRunningInputChange
  | startDeadlineExpiry | stopDeadlineExpiry | restDeadlineExpiry | startHistoryAgeOut | towerFeedbackChange
  | switchDeadlineExpiry | towerStepExpiry | offSpecExpiry | esdInputChange | awaitFlagsTimeout | commitComplete
  | profileToProfileExpiry | settleExpiry | byteReceived | backupSupplyLost => nomatch h
  | _ => exact ⟨_, rfl⟩

/-- No request is taken outside running, nor with a reset pending (R172, R183). -/
theorem serve_not_taken {s : State} (h : s.phase ≠ .running ∨ s.slu.resetPending = true) (c : Instr)
    (take : State → Ev × Answer) : serve c take s = s :=
  if_pos (by simpa using h)

section
variable {s : State} {c : Instr} {take : State → Ev × Answer} (run : s.phase = .running)
  (stays : s.slu.resetPending = false) (len : lengthAllowed (c.kind.getD 0) c.body.length = true)
include run stays len

/-- A request of an allowed length is looked for in the queue as its arrival leaves it. -/
theorem serve_after_arrival : serve c take s =
    ((s.arrived c).findEntry c).elim (s.arrived c) fun e => tryEntry take e (s.arrived c) := by
  have arrived : s.arrived c = if (s.findEntry c).isSome then s
      else if lengthAllowed (c.kind.getD 0) c.body.length then s.enqueue c (c.kind.getD 0)
      else s.refuseFrame (c.kind.getD 0 + 0x80) c.tag .badLength {} := by
    rw [if_pos len]
    rfl
  simp only [serve, run, stays, ← arrived]
  cases (s.arrived c).findEntry c <;> rfl

theorem serve_tries {e : QEntry} (found : (s.arrived c).findEntry c = some e) :
    serve c take s = tryEntry take e (s.arrived c) := by
  rw [serve_after_arrival run stays len, found, Option.elim_some]

theorem serve_stays (missing : (s.arrived c).findEntry c = none) : serve c take s = s.arrived c := by
  rw [serve_after_arrival run stays len, missing, Option.elim_none]

end

/-! ### Entries whose turn has come (R179) -/

section
variable {s t : State} {c : Instr} {e : QEntry}

/-- An entry has its turn when no earlier one of its block is untaken. -/
theorem inTurn_iff : s.inTurn e = true ↔
    ∀ x ∈ s.slu.queue, x.block = e.block → x.untaken = true → e.arrival ≤ x.arrival := by
  simp only [State.inTurn, Bool.not_eq_true', List.any_eq_false, Bool.and_eq_true, beq_iff_eq, decide_eq_true_iff,
    not_and, Nat.not_lt, and_imp]

/-- Fewer entries hold nothing back that more do not. -/
theorem inTurn_of_subset (h : s.slu.queue ⊆ t.slu.queue) (turn : t.inTurn e = true) : s.inTurn e = true :=
  inTurn_iff.2 fun x hx => inTurn_iff.1 turn x (h hx)

theorem findEntry_some (h : s.findEntry c = some e) : e.request = c ∧ e.state = .inTurn ∧ s.inTurn e = true := by
  simpa using List.find?_some h

theorem findEntry_eq_none : s.findEntry c = none ↔
    ∀ x ∈ s.slu.queue, x.request = c → x.state = .inTurn → s.inTurn x = false := by
  simp [State.findEntry]

/-- What is found depends on the queue alone. -/
theorem findEntry_congr (h : t.slu.queue = s.slu.queue) : t.findEntry c = s.findEntry c := by
  simp only [State.findEntry, State.inTurn, h]

end

/-! ### Arrivals (R178) -/

section
variable {s : State} {c : Instr} {k : Nat}

theorem arrived_of_missing (missing : s.findEntry c = none) : s.arrived c = s.enqueue c (c.kind.getD 0) := by
  rw [State.arrived, missing]
  rfl

theorem enqueue_full (full : s.slu.queue.length = 4) :
    s.enqueue c k = s.refuseFrame (k + 0x80) c.tag .queueFull {} := if_pos full.ge

theorem enqueue_place (free : s.slu.queue.length < 4) : s.enqueue c k = { s with slu :=
    { s.slu with
      arrivals := s.slu.arrivals + 1
      queue := s.slu.queue ++
        [{ request := c, block := (blockOf c).getD .slu, arrival := s.slu.arrivals, state := .inTurn }] } } :=
  if_neg free.not_ge

theorem refuseFrame_free {tag : Nat} {st : Status} {d : Detail} (h : s.slu.refusal = none) :
    s.refuseFrame k tag st d =
      let r : Reply := { origin := .refusal, kind := k, tag := tag, status := st, detail := d, body := [] }
      { s with slu := { s.slu with refusal := some r, order := s.slu.order ++ [r] } } := if_neg (by simp [h])

theorem refuseFrame_occupied {tag : Nat} {st : Status} {d : Detail} (h : s.slu.refusal ≠ none) :
    s.refuseFrame k tag st d = s := if_pos (Option.isSome_iff_ne_none.2 h)

theorem refuseFrame_queue {tag : Nat} {st : Status} {d : Detail} :
    (s.refuseFrame k tag st d).slu.queue = s.slu.queue := by
  by_cases h : s.slu.refusal = none
  · rw [refuseFrame_free h]
  · rw [refuseFrame_occupied h]

/-- An arrival behind an untaken request to its block finds no entry whose turn has come. -/
theorem findEntry_enqueue_behind {e : QEntry} (free : s.slu.queue.length < 4) (he : e ∈ s.slu.queue)
    (block : e.block = (blockOf c).getD .slu) (untaken : e.untaken = true) (earlier : e.arrival < s.slu.arrivals)
    (missing : s.findEntry c = none) : (s.enqueue c k).findEntry c = none := by
  rw [enqueue_place free, findEntry_eq_none]
  intro x hx carries waits
  rw [← Bool.not_eq_true]
  intro turn
  rcases List.mem_append.1 hx with old | new
  · have before := findEntry_eq_none.1 missing x old carries waits
    exact Bool.false_ne_true (before.symm.trans (inTurn_of_subset (List.subset_append_left _ _) turn))
  · obtain rfl := List.mem_singleton.1 new
    exact earlier.not_ge (inTurn_iff.1 turn e (List.mem_append_left _ he) block untaken)

end

/-! ### Requests that wait for a close (R124) -/

section
variable {s : State} {c : Instr}

theorem closing_iff {n : Nat} : s.closing n = true ↔
    (∃ x, s.su.current = some x ∧ x.due.number = n) ∨ ∃ d ∈ s.su.due, d.number = n := by
  simp [State.closing, Option.any_eq_true]

/-- Every request to the Account Book or the Settlement Unit but READ_PERIOD waits for any close. -/
theorem waitsForClose_of_bookOnly (flight : s.inFlight = true) (book : c.bookOnly = true)
    (other : ∀ t n p, c ≠ .readPeriod t n p) : s.waitsForClose c = true := by
  cases c with
  | readPeriod t n p => exact absurd rfl (other t n p)
  | accountsReady | openAccount | loadInventory | suspendAccount | resumeAccount | closeAccount | setRights | transfer
  | nominate | declareCapacity | readCapacity | readChanged | readAccount | readBook | obaAdjust | readOba =>
    exact (Bool.and_true _).trans flight
  | _ => nomatch book

/-- READ_PERIOD waits for the close of the period it names. -/
theorem waitsForClose_readPeriod {t n : Nat} {p : Option Nat} (flight : s.inFlight = true) (h : s.closing n = true) :
    s.waitsForClose (.readPeriod t n p) = true := Bool.and_eq_true_iff.2 ⟨flight, h⟩

/-- An entry whose turn has come and whose request waits for the close begins to wait. -/
theorem tryEntry_waits {e : QEntry} {take : State → Ev × Answer} (found : s.findEntry c = some e)
    (waits : s.waitsForClose c = true) : tryEntry take e s = s.setEntry e.arrival .waitingClose := by
  obtain ⟨rfl, state, turn⟩ := findEntry_some found
  have held : s.heldByClose e = true := by
    rw [State.heldByClose, if_neg (by rw [state]; decide), waits]
  simp only [tryEntry, turn, held, Bool.not_true, Bool.false_eq_true, if_false, if_true]

end

/-- Settles O3: a request is served from the queue that its arrival leaves, and an entry is taken only when its turn has
come and no close holds it back. -/
theorem requestNotTaken : Obligations.RequestNotTaken := by
  intro c k s kind
  obtain ⟨take, served⟩ := request_serves kind s
  have kind' : c.kind.getD 0 = k := by rw [kind]; rfl
  rw [served]
  refine ⟨fun idle => congrArg _ (serve_not_taken idle c take), fun len run stays full missing => ?full,
    fun e run stays len found flight waits => congrArg _ ?close,
    fun e run stays len free he block untaken earlier missing => congrArg _ ?behind⟩
  case full =>
    have arrived : s.arrived c = s.refuseFrame (k + 0x80) c.tag .queueFull {} := by
      rw [arrived_of_missing missing, enqueue_full full, kind']
    have stands : serve c take s = s.refuseFrame (k + 0x80) c.tag .queueFull {} := by
      rw [← arrived]
      exact serve_stays run stays (kind' ▸ len) (by rw [arrived, findEntry_congr refuseFrame_queue, missing])
    rw [stands]
    exact ⟨fun vacant => congrArg _ (refuseFrame_free vacant), fun taken => congrArg _ (refuseFrame_occupied taken)⟩
  case close =>
    have flying : (s.arrived c).inFlight = true := by
      rw [State.inFlight, arrived_su]
      exact Option.isSome_iff_ne_none.2 flight
    rw [serve_tries run stays (kind' ▸ len) found]
    refine tryEntry_waits found ?_
    rcases waits with ⟨book, other⟩ | ⟨t, n, p, rfl, named⟩
    · exact waitsForClose_of_bookOnly flying book other
    · exact waitsForClose_readPeriod flying (closing_iff.2 (by rwa [arrived_su]))
  case behind =>
    have arrived := arrived_of_missing missing
    rw [serve_stays run stays (kind' ▸ len), arrived, enqueue_place free, block]
    rw [arrived]
    exact findEntry_enqueue_behind free he block ((QEntry.untaken_iff e).2 untaken) earlier missing

end Sys2Proof.Machine
end

section
/-! PROOFS. The arithmetic of a close: its case, a shortfall by tier and the fuel (R126 to R130). -/

namespace Sys2Proof.Machine

/-! ### The case (R126) -/

section
variable {t l : Nat} {b c d : Int}

theorem caseOf_tolerance (within : d.natAbs ≤ t) (held : (b + d).natAbs ≤ l) : caseOf t l b c d = .tolerance :=
  if_pos ⟨within, held⟩

/-- A close that leaves the tolerance is judged by the side of its confirmations and of its deviation. -/
theorem caseOf_outside (h : t < d.natAbs ∨ l < (b + d).natAbs) : caseOf t l b c d =
    if c > 0 ∧ d < 0 then .shortInject else if c < 0 ∧ d > 0 then .shortWithdraw else .oba :=
  if_neg (by omega)

theorem caseOf_shortInject (h : t < d.natAbs ∨ l < (b + d).natAbs) (confirmed : 0 < c) (short : d < 0) :
    caseOf t l b c d = .shortInject := by
  rw [caseOf_outside h, if_pos ⟨confirmed, short⟩]

theorem caseOf_shortWithdraw (h : t < d.natAbs ∨ l < (b + d).natAbs) (confirmed : c < 0) (short : 0 < d) :
    caseOf t l b c d = .shortWithdraw := by
  rw [caseOf_outside h, if_neg (by omega), if_pos ⟨confirmed, short⟩]

theorem caseOf_oba (h : t < d.natAbs ∨ l < (b + d).natAbs) (inject : ¬(0 < c ∧ d < 0))
    (withdraw : ¬(c < 0 ∧ 0 < d)) : caseOf t l b c d = .oba := by
  rw [caseOf_outside h, if_neg inject, if_neg withdraw]

theorem neg_of_shortInject (h : caseOf t l b c d = .shortInject) : d < 0 := by
  unfold caseOf at h
  split_ifs at h with _ short
  exact short.2

theorem pos_of_shortWithdraw (h : caseOf t l b c d = .shortWithdraw) : 0 < d := by
  unfold caseOf at h
  split_ifs at h with _ _ short
  exact short.2

end

/-! ### A shortfall by tier (R127, R128) -/

/-- All that both tiers hold is taken from each party whole. -/
theorem getD_tierShares_all {i f : List Nat} (len : i.length = f.length) (n : Nat) :
    (tierShares (sumNat i + sumNat f) i f).getD n 0 = i.getD n 0 + f.getD n 0 := by
  have total : ∑ n ∈ Finset.range i.length, (tierShares (sumNat i + sumNat f) i f).getD n 0 =
      ∑ n ∈ Finset.range i.length, (i.getD n 0 + f.getD n 0) := by
    calc _ = sumNat (tierShares (sumNat i + sumNat f) i f) := by
          rw [sumNat_eq_sum_getD (tierShares _ i f), length_tierShares _ _ _ len]
      _ = sumNat i + sumNat f := sumNat_tierShares len le_rfl
      _ = _ := by rw [Finset.sum_add_distrib, sumNat_eq_sum_getD i, sumNat_eq_sum_getD f, len]
  rw [Finset.sum_eq_sum_iff_of_le fun n _ => getD_tierShares_le len le_rfl n] at total
  rcases Nat.lt_or_ge n i.length with inside | beyond
  · exact total n (Finset.mem_range.2 inside)
  · have outside (w : List Nat) (h : w.length = i.length) : w.getD n 0 = 0 := List.getD_eq_default _ _ (h ▸ beyond)
    rw [outside _ (length_tierShares _ _ _ len), outside i rfl, outside f len.symm]

section
variable {sign : Int} {k : AccountClass} {classes : List AccountClass} {cs : List Int} {q : Nat}

/-- The weights of a close are those that the station pass forms of the same quantities. -/
theorem sideWeights_eq_passWeights :
    sideWeights sign k classes cs = passWeights sign k classes (cs.map fun c => (c, .none)) := by
  rw [sideWeights, passWeights, List.zipWith_map_right]

theorem length_sideWeights (len : classes.length = cs.length) : (sideWeights sign k classes cs).length = cs.length := by
  rw [sideWeights_eq_passWeights, length_passWeights (by simpa using len), List.length_map]

/-- Every account of a side is of one class or the other. -/
theorem sideWeights_add (len : classes.length = cs.length) (n : Nat) :
    (sideWeights sign .interruptible classes cs).getD n 0 + (sideWeights sign .firm classes cs).getD n 0 =
      (sign * cs.getD n 0).toNat := by
  have len' : classes.length = (cs.map fun c => (c, Reason.none)).length := by simpa using len
  have here : ((cs.map fun c => (c, Reason.none)).getD n (0, .none)).1 = cs.getD n 0 :=
    congrArg Prod.fst (List.getD_map cs 0 fun c => (c, Reason.none))
  rw [sideWeights_eq_passWeights, sideWeights_eq_passWeights, ← here]
  rcases Nat.lt_or_ge n (cs.map fun c => (c, Reason.none)).length with inside | beyond
  · exact passWeights_add len' inside
  · rw [getD_passWeights_outside len' beyond, getD_passWeights_outside len' beyond, List.getD_eq_default _ _ beyond]
    simp

theorem sideWeights_of_accounts (sign : Int) (k : AccountClass) (accounts : List Account) (slot : Nat) :
    sideWeights sign k (accounts.map Account.cls) (accounts.map fun a => (a.slot slot).c) =
      accounts.map fun a => if a.cls = k then (sign * (a.slot slot).c).toNat else 0 := by
  rw [sideWeights, List.zipWith_map, List.zipWith_self]

/-- What the accounts of a side can give of a shortfall. -/
def sideTotal (sign : Int) (classes : List AccountClass) (cs : List Int) : Nat :=
  sumNat (sideWeights sign .interruptible classes cs) + sumNat (sideWeights sign .firm classes cs)

/-- What a shortfall takes from each account. -/
def shortShares (sign : Int) (q : Nat) (classes : List AccountClass) (cs : List Int) : List Nat :=
  tierShares (min q (sideTotal sign classes cs)) (sideWeights sign .interruptible classes cs)
    (sideWeights sign .firm classes cs)

theorem shortfall_eq : shortfall sign q classes cs =
    (List.zipWith (fun (c : Int) (x : Nat) => c - sign * x) cs (shortShares sign q classes cs),
      -(sign * (q - min q (sideTotal sign classes cs) : Nat))) := rfl

section
variable (len : classes.length = cs.length)
include len

theorem sideWeights_lengths : (sideWeights sign .interruptible classes cs).length =
    (sideWeights sign .firm classes cs).length := by
  rw [length_sideWeights len, length_sideWeights len]

theorem length_shortShares : (shortShares sign q classes cs).length = cs.length := by
  rw [shortShares, length_tierShares _ _ _ (sideWeights_lengths len), length_sideWeights len]

theorem length_shortfall : (shortfall sign q classes cs).1.length = cs.length := by
  rw [shortfall_eq, List.length_zipWith, length_shortShares len, min_self]

theorem getD_shortfall (n : Nat) : (shortfall sign q classes cs).1.getD n 0 =
    cs.getD n 0 - sign * ((shortShares sign q classes cs).getD n 0 : Nat) :=
  getD_zipWith (length_shortShares len).symm (by simp) n

theorem getD_shortShares_le (n : Nat) : (shortShares sign q classes cs).getD n 0 ≤ (sign * cs.getD n 0).toNat :=
  (getD_tierShares_le (sideWeights_lengths len) (min_le_right _ _) n).trans_eq (sideWeights_add len n)

/-- No account is left more than its confirmation, nor taken past zero. -/
theorem shortfall_toward (side : sign = 1 ∨ sign = -1) (n : Nat) :
    (0 ≤ (shortfall sign q classes cs).1.getD n 0 ∧ (shortfall sign q classes cs).1.getD n 0 ≤ cs.getD n 0) ∨
      (cs.getD n 0 ≤ (shortfall sign q classes cs).1.getD n 0 ∧ (shortfall sign q classes cs).1.getD n 0 ≤ 0) := by
  have most := getD_shortShares_le (sign := sign) (q := q) len n
  rw [getD_shortfall len]
  rcases side with rfl | rfl <;> omega

/-- What the accounts are left and the OBA allocation entry fall short by `q`. -/
theorem shortfall_balances :
    sumInt (shortfall sign q classes cs).1 + (shortfall sign q classes cs).2 = sumInt cs - sign * q := by
  have shares : sumNat (shortShares sign q classes cs) = min q (sideTotal sign classes cs) :=
    sumNat_tierShares (sideWeights_lengths len) (min_le_right _ _)
  have taken : sumInt (shortfall sign q classes cs).1 =
      sumInt cs - sign * (min q (sideTotal sign classes cs) : Nat) := by
    rw [← shares, sumInt_eq_sum_getD, length_shortfall len, Finset.sum_congr rfl fun n _ => getD_shortfall len n,
      Finset.sum_sub_distrib, ← sumInt_eq_sum_getD, ← Finset.mul_sum, ← Nat.cast_sum, sumNat_eq_sum_getD,
      length_shortShares len]
  rw [taken, shortfall_eq, Nat.cast_sub (min_le_left _ _)]
  ring

/-- The INTERRUPTIBLE accounts give the whole in proportion. -/
theorem shortfall_interruptible (enough : q ≤ sumNat (sideWeights sign .interruptible classes cs)) :
    (shortfall sign q classes cs).2 = 0 ∧ ∀ n, (shortfall sign q classes cs).1.getD n 0 =
      cs.getD n 0 - sign * ((proportional q (sideWeights sign .interruptible classes cs)).getD n 0 : Nat) := by
  have all : min q (sideTotal sign classes cs) = q := min_eq_left (enough.trans (Nat.le_add_right _ _))
  refine ⟨by rw [shortfall_eq, all]; simp, fun n => ?_⟩
  rw [getD_shortfall len, shortShares, all, tierShares_enough enough]

/-- The INTERRUPTIBLE accounts give all they have, and the FIRM ones the rest in proportion. -/
theorem shortfall_firm (more : sumNat (sideWeights sign .interruptible classes cs) < q)
    (enough : q ≤ sideTotal sign classes cs) :
    (shortfall sign q classes cs).2 = 0 ∧ ∀ n, (shortfall sign q classes cs).1.getD n 0 =
      cs.getD n 0 - sign * ((sideWeights sign .interruptible classes cs).getD n 0 +
        (proportional (q - sumNat (sideWeights sign .interruptible classes cs))
          (sideWeights sign .firm classes cs)).getD n 0 : Nat) := by
  have all : min q (sideTotal sign classes cs) = q := min_eq_left enough
  refine ⟨by rw [shortfall_eq, all]; simp, fun n => ?_⟩
  rw [getD_shortfall len, shortShares, all, getD_tierShares_short (sideWeights_lengths len) more.not_ge]

/-- Both classes give all they have, and what is left stands in the OBA allocation entry. -/
theorem shortfall_oba (more : sideTotal sign classes cs < q) :
    (shortfall sign q classes cs).2 = -(sign * (q - sideTotal sign classes cs : Nat)) ∧
    ∀ n, (shortfall sign q classes cs).1.getD n 0 =
      cs.getD n 0 - sign * ((sideWeights sign .interruptible classes cs).getD n 0 +
        (sideWeights sign .firm classes cs).getD n 0 : Nat) := by
  have all : min q (sideTotal sign classes cs) = sideTotal sign classes cs := min_eq_right more.le
  refine ⟨by rw [shortfall_eq, all], fun n => ?_⟩
  rw [getD_shortfall len, shortShares, all, sideTotal, getD_tierShares_all (sideWeights_lengths len)]

end

end

/-! ### The allocation (R126) -/

section
variable {k : Case} {d : Int} {classes : List AccountClass} {cs : List Int}

theorem allocate_confirmed (h : k = .tolerance ∨ k = .oba) : allocate k d classes cs = (cs, d) := by
  rcases h with rfl | rfl <;> rfl

section
variable (len : classes.length = cs.length)
include len

theorem length_allocate : (allocate k d classes cs).1.length = cs.length := by
  cases k with
  | tolerance | oba => rfl
  | shortInject | shortWithdraw => exact length_shortfall len

theorem allocate_toward (n : Nat) :
    (0 ≤ (allocate k d classes cs).1.getD n 0 ∧ (allocate k d classes cs).1.getD n 0 ≤ cs.getD n 0) ∨
      (cs.getD n 0 ≤ (allocate k d classes cs).1.getD n 0 ∧ (allocate k d classes cs).1.getD n 0 ≤ 0) := by
  cases k with
  | tolerance | oba => exact (le_total 0 (cs.getD n 0)).imp (⟨·, le_rfl⟩) (⟨le_rfl, ·⟩)
  | shortInject => exact shortfall_toward len (.inl rfl) n
  | shortWithdraw => exact shortfall_toward len (.inr rfl) n

/-- The allocations and the OBA allocation entry make up the confirmations and the deviation, where a case of shortfall
has the deviation of its side. -/
theorem allocate_balances (inject : k = .shortInject → d < 0) (withdraw : k = .shortWithdraw → 0 < d) :
    sumInt (allocate k d classes cs).1 + (allocate k d classes cs).2 = sumInt cs + d := by
  cases k with
  | tolerance | oba => rfl
  | shortInject =>
    have short := inject rfl
    refine (shortfall_balances len).trans ?_
    omega
  | shortWithdraw =>
    have short := withdraw rfl
    refine (shortfall_balances len).trans ?_
    omega

end

end

/-! ### Fuel (R129, R130) -/

section
variable {f : Nat} {inventories a : List Int} {shares : List Nat}

theorem length_fuelWeights (a : List Int) : (fuelWeights a).length = a.length := by
  rw [fuelWeights]
  split <;> exact List.length_map _

theorem length_fuelShares_fuelWeights (f : Nat) (a : List Int) : (fuelShares f (fuelWeights a)).length = a.length :=
  (length_proportional _ _).trans (length_fuelWeights a)

theorem sumNat_fuelShares_le (f : Nat) (w : List Nat) : sumNat (fuelShares f w) ≤ f :=
  (sumNat_proportional (min_le_right _ _)).trans_le (min_le_left _ _)

theorem fuelWeights_of_injects (h : 0 < sumNat (a.map Int.toNat)) : fuelWeights a = a.map Int.toNat := if_pos h

/-- An injector bears no more than its allocation. -/
theorem getD_fuelShares_le_of_injects {i : Nat} (injects : 0 < a.getD i 0) :
    ((fuelShares f (fuelWeights a)).getD i 0 : Int) ≤ a.getD i 0 := by
  have weight : (a.map Int.toNat).getD i 0 = (a.getD i 0).toNat := List.getD_map a 0 Int.toNat
  have some : 0 < sumNat (a.map Int.toNat) := by
    have inside : i < (a.map Int.toNat).length := by
      by_contra beyond
      rw [List.getD_eq_default _ _ (Nat.not_lt.1 beyond)] at weight
      omega
    rw [sumNat_eq_sum_getD]
    exact Finset.sum_pos' (fun _ _ => Nat.zero_le _) ⟨i, Finset.mem_range.2 inside, by omega⟩
  have least := proportional_le (w := a.map Int.toNat) (min_le_right f _) i
  rw [fuelWeights_of_injects some, fuelShares]
  omega

section
variable (len : inventories.length = a.length) (len' : shares.length = a.length)
include len len'

theorem length_cappedShares : (cappedShares inventories a shares).length = a.length := by
  simp [cappedShares, len, len']

theorem getD_cappedShares (i : Nat) : (cappedShares inventories a shares).getD i 0 =
    min (shares.getD i 0) (inventories.getD i 0 + a.getD i 0).toNat := by
  have held : (List.zipWith (· + ·) inventories a).getD i 0 = inventories.getD i 0 + a.getD i 0 :=
    getD_zipWith len (add_zero 0) i
  rw [cappedShares, getD_zipWith (d := 0) (e := 0) (by simp [len, len']) (by simp), held]

theorem sumNat_cappedShares_le : sumNat (cappedShares inventories a shares) ≤ sumNat shares := by
  rw [sumNat_eq_sum_getD, sumNat_eq_sum_getD, length_cappedShares len len', ← len']
  exact Finset.sum_le_sum fun i _ => (getD_cappedShares len len' i).trans_le (min_le_left _ _)

end

end

/-! ### What a close settles (R126 to R130) -/

section
variable {t l : Nat} {b : Int} {eIn eOut f : Nat} {accounts : List Account} {slot : Nat} {r : Settled}
  (h : r = settle t l b eIn eOut f accounts slot)
include h

theorem settle_case : r.case = caseOf t l b r.c r.d := by rw [h]; rfl

theorem settle_cs : r.cs = accounts.map fun a => (a.slot slot).c := by rw [h]; rfl

theorem settle_allocation : (r.a, r.obaAlloc) = allocate r.case r.d (accounts.map Account.cls) r.cs := by rw [h]; rfl

theorem settle_a : r.a = (allocate r.case r.d (accounts.map Account.cls) r.cs).1 :=
  congrArg Prod.fst (settle_allocation h)

theorem settle_obaAlloc : r.obaAlloc = (allocate r.case r.d (accounts.map Account.cls) r.cs).2 :=
  congrArg Prod.snd (settle_allocation h)

theorem settle_fuel : r.fuel =
    cappedShares (accounts.map Account.inventory) r.a (fuelShares f (fuelWeights r.a)) := by rw [h]; rfl

theorem settle_obaFuel : r.obaFuel = f - sumNat r.fuel := by rw [h]; rfl

theorem settle_classes_length : (accounts.map Account.cls).length = r.cs.length := by
  rw [settle_cs h, List.length_map, List.length_map]

theorem settle_a_length : r.a.length = accounts.length := by
  rw [settle_a h, length_allocate (settle_classes_length h), settle_cs h, List.length_map]

theorem settle_balances : sumInt r.a + r.obaAlloc = (eIn : Int) - eOut := by
  have deviation : sumInt r.cs + r.d = (eIn : Int) - eOut := by
    rw [h]
    exact add_sub_cancel _ _
  rw [settle_a h, settle_obaAlloc h, ← deviation]
  exact allocate_balances (settle_classes_length h) (fun short => neg_of_shortInject ((settle_case h).symm.trans short))
    fun short => pos_of_shortWithdraw ((settle_case h).symm.trans short)

theorem settle_inventories_length : (accounts.map Account.inventory).length = r.a.length :=
  (List.length_map _).trans (settle_a_length h).symm

theorem settle_fuel_length : r.fuel.length = accounts.length := by
  rw [settle_fuel h, length_cappedShares (settle_inventories_length h) (length_fuelShares_fuelWeights f r.a),
    settle_a_length h]

/-- A fuel share is cut to what the account holds after its allocation (R130). -/
theorem settle_fuel_getD (i : Nat) : r.fuel.getD i 0 = min ((fuelShares f (fuelWeights r.a)).getD i 0)
    ((accounts.getD i {}).inventory + r.a.getD i 0).toNat := by
  have inventory : (accounts.map Account.inventory).getD i 0 = (accounts.getD i {}).inventory :=
    List.getD_map accounts {} Account.inventory
  rw [settle_fuel h, getD_cappedShares (settle_inventories_length h) (length_fuelShares_fuelWeights f r.a),
    inventory]

theorem settle_fuel_le : sumNat r.fuel ≤ f := by
  rw [settle_fuel h]
  exact (sumNat_cappedShares_le (settle_inventories_length h) (length_fuelShares_fuelWeights f r.a)).trans
    (sumNat_fuelShares_le _ _)

end

/-- Settles O43: the allocation balances by its case, and the fuel shares by what proportional reduction gives. -/
theorem everyCloseBalances : Obligations.EveryCloseBalances := by
  intro t l b eIn eOut f accounts slot r hold injectors weights share
  have h : r = settle t l b eIn eOut f accounts slot := rfl
  have fuel (i : Nat) : r.fuel.getD i 0 = min (share i) (hold i).toNat := settle_fuel_getD h i
  refine ⟨settle_a_length h, settle_fuel_length h, settle_balances h, ?total, ?oba, fun i _ => fuel i,
    fun i _ injects => ?injector, fun i _ holds => ?kept⟩
  case total =>
    rw [settle_obaFuel h]
    exact Nat.add_sub_cancel' (settle_fuel_le h)
  case oba => exact Nat.sub_le _ _
  case injector =>
    have least : (share i : Int) ≤ r.a.getD i 0 := getD_fuelShares_le_of_injects injects
    refine ⟨least, fun stored => ?_⟩
    have held : share i ≤ (hold i).toNat := by
      dsimp only [hold]
      omega
    rw [fuel, min_eq_left held]
  case kept =>
    rw [fuel]
    omega

/-- Settles O44: the case by the lines of its table, a shortfall by what the classes of its side can give. -/
theorem closeCaseAndAllocations : Obligations.CloseCaseAndAllocations := by
  intro t l b eIn eOut f accounts slot r c d short
  have h : r = settle t l b eIn eOut f accounts slot := rfl
  have len := settle_classes_length h
  have shared (sign : Int) (k : allocate r.case d (accounts.map Account.cls) r.cs =
      shortfall sign d.natAbs (accounts.map Account.cls) r.cs) : short sign := by
    have allocated : r.a = (shortfall sign d.natAbs (accounts.map Account.cls) r.cs).1 :=
      (settle_a h).trans (congrArg Prod.fst k)
    have entry : r.obaAlloc = (shortfall sign d.natAbs (accounts.map Account.cls) r.cs).2 :=
      (settle_obaAlloc h).trans (congrArg Prod.snd k)
    dsimp only [short]
    rw [← sideWeights_of_accounts, ← sideWeights_of_accounts, ← settle_cs h, allocated, entry, Nat.sub_sub]
    exact ⟨fun enough => (shortfall_interruptible len enough).imp_right fun left n _ => left n,
      fun more enough => (shortfall_firm len more enough).imp_right fun left n _ => left n,
      fun more => (shortfall_oba len more).imp_right fun left n _ => left n⟩
  refine ⟨caseOf_tolerance, fun outside => ⟨caseOf_shortInject outside, caseOf_shortWithdraw outside,
    caseOf_oba outside⟩, fun k => ?confirmed, fun k => shared 1 (by rw [k]; rfl),
    fun k => shared (-1) (by rw [k]; rfl), settle_cs h, settle_a_length h, fun i => ?toward⟩
  case confirmed => exact Prod.ext_iff.1 ((settle_allocation h).trans (allocate_confirmed k))
  case toward =>
    rw [settle_a h]
    exact allocate_toward len i

end Sys2Proof.Machine
end

section
/-! PROOFS. The laws of the queue and of the notices at every step, and the reads of watches, notices, trips, profiles
and the part itself. -/

namespace Sys2Proof.Machine

/-- A step is the front command run, or an idle millisecond: either way the laws pass to what it leaves. -/
theorem step_keeps_notices_and_queue {s t : State} (h : step s = .next t) :
    (QueueLaw s → QueueLaw t) ∧ (NoticeLaw s → NoticeLaw t) := by
  unfold step at h
  split at h
  case h_1 c rest _ =>
    have k : Keeps { s with pending := rest } t := exec_keeps h
    exact ⟨k.queue, k.notices⟩
  case h_2 =>
    have k : Keeps s t := state_keeps h (iteState_keeps (.refl s) {})
    exact ⟨k.queue, k.notices⟩

/-- Settles O58: what every command keeps of all the laws, read for the queue and the notices. -/
theorem everyStepKeepsLinkLaws : Obligations.EveryStepKeepsLinkLaws := fun _ _ => step_keeps_notices_and_queue

/-! ### Reads that only tell -/

theorem groupOfCode_code (g : Group) : groupOfCode g.code = some g := by cases g <;> rfl

/-- READ_PROFILE names its group by the code, so its segment alone is judged (R171). -/
theorem takeReadProfile_eq (g : Group) (seg : Nat) (s : State) : takeReadProfile g.code seg s =
    judged s [(2, decide (seg * 224 < g.size))] (answerOnly s (s.profileFields g seg)) := by
  rw [takeReadProfile, groupOfCode_code]

/-- Settles O6: each read is judged by its index or segment alone, and then answered from the records. -/
theorem watchTripProfileReadsOnlyTell : Obligations.WatchTripProfileReadsOnlyTell := by
  intro s e t i seg ch g
  refine ⟨tells_of_judged 1 rfl, tells_of_judged (p := ch.getD 0 < 3) 1 rfl, fun h => tells_of rfl h rfl,
    fun h within => ?segment, fun h beyond => ?beyond, fun h => tells_of rfl h rfl⟩
  case segment =>
    refine tells_of (body := (·.profileFields g seg)) rfl h ?_
    rw [takeReadProfile_eq, judged_all (by simp [within])]
    rfl
  case beyond =>
    refine refuses_of rfl h ?_
    rw [takeReadProfile_eq, judged_first_bad _ _ _ _ beyond.not_gt]
    rfl

end Sys2Proof.Machine
end

section
/-! PROOFS. Watches on a new value (R143), and the place of a trip record (R157). -/

namespace Sys2Proof.Machine

/-! ### Conditions and latches (R143) -/

section
variable {d : WatchDef} (v : Int)

theorem WatchDef.evaluate_risesAbove (h : d.condition = .risesAbove) :
    d.evaluate none v = (if v > d.threshold then some .high else some .low, false) ∧
    d.evaluate (some .low) v = (if v > d.threshold then (some .high, true) else (some .low, false)) ∧
    d.evaluate (some .high) v = (if v ≤ d.threshold - d.hysteresis then some .low else some .high, false) := by
  simp only [WatchDef.evaluate, h, apply_ite some, and_self]

theorem WatchDef.evaluate_fallsBelow (h : d.condition = .fallsBelow) :
    d.evaluate none v = (if v < d.threshold then some .low else some .high, false) ∧
    d.evaluate (some .low) v = (if v ≥ d.threshold + d.hysteresis then some .high else some .low, false) ∧
    d.evaluate (some .high) v = (if v < d.threshold then (some .low, true) else (some .high, false)) := by
  simp only [WatchDef.evaluate, h, apply_ite some, and_self]

theorem WatchDef.evaluate_crosses (h : d.condition = .crosses) :
    d.evaluate none v = (if v > d.threshold then some .high else some .low, false) ∧
    d.evaluate (some .low) v = (if v > d.threshold then (some .high, true) else (some .low, false)) ∧
    d.evaluate (some .high) v =
      (if v < d.threshold - d.hysteresis then (some .low, true) else (some .high, false)) := by
  simp only [WatchDef.evaluate, h, apply_ite some, and_self]

theorem WatchDef.evaluate_isAbove (h : d.condition = .isAbove) (l : Option Latch) :
    d.evaluate l v = (l, decide (v > d.threshold)) := by
  simp only [WatchDef.evaluate, h]

theorem WatchDef.evaluate_isBelow (h : d.condition = .isBelow) (l : Option Latch) :
    d.evaluate l v = (l, decide (v < d.threshold)) := by
  simp only [WatchDef.evaluate, h]

end

/-- An ARMED watch on a source takes the latch of a new value there, and fires where its condition says so. -/
theorem evaluateWatch_armed {on : WatchSource → Bool} {ev : Ev} {w : Nat} {d : WatchDef}
    (armed : (ev.s.watch w).state = .armed) (hd : (ev.s.watch w).defn = some d) (heard : on d.source = true) (v : Int) :
    evaluateWatch on v ev w =
      let result := d.evaluate (ev.s.watch w).latch v
      let seen := ev.map fun s => s.updWatch w fun x => { x with latch := result.1 }
      if result.2 then fireWatch w d seen else seen := by
  simp only [evaluateWatch, armed, hd, heard, if_true]

/-- A new value passes a watch that is not ARMED by. -/
theorem evaluateWatch_notArmed {ev : Ev} {w : Nat} (h : (ev.s.watch w).state ≠ .armed) (on : WatchSource → Bool)
    (v : Int) : evaluateWatch on v ev w = ev := by
  cases state : (ev.s.watch w).state with
  | armed => exact absurd state h
  | _ => simp only [evaluateWatch, state]

/-- Settles O48: the conditions one by one, and then the watch that is evaluated. -/
theorem watchConditionTable : Obligations.WatchConditionTable := by
  intro d v hi lo
  refine ⟨WatchDef.evaluate_risesAbove v, WatchDef.evaluate_fallsBelow v, WatchDef.evaluate_crosses v,
    WatchDef.evaluate_isAbove v, WatchDef.evaluate_isBelow v, fun on ev w heard hd =>
    ⟨fun armed fires => ?fires, fun armed rests => ?rests, fun h => evaluateWatch_notArmed h on v⟩⟩
  case fires => exact (evaluateWatch_armed armed hd heard v).trans (if_pos fires)
  case rests => exact (evaluateWatch_armed armed hd heard v).trans (if_neg (Bool.eq_false_iff.1 rests))

/-! ### The place of a trip record (R157) -/

theorem Tru.place_first {u : Tru} (h : u.current = none) (r : TripRecord) :
    u.place r = { u with current := some r } := by
  rw [Tru.place, h]

theorem Tru.place_over {u : Tru} {c : TripRecord} (h : u.current = some c) (r : TripRecord) : u.place r =
    if c.acknowledged then { u with current := some r }
    else { u with prior := some c, current := some r, cascade := min (u.cascade + 1) 255 } := by
  rw [Tru.place, h]

/-- Whatever record was there, the one placed is the current one. -/
theorem Tru.place_current (u : Tru) (r : TripRecord) : (u.place r).current = some r := by
  cases h : u.current with
  | none => rw [Tru.place_first h]
  | some c =>
    rw [Tru.place_over h]
    split <;> rfl

/-- Settles O49: by the current record and its acknowledgement. -/
theorem tripRecordPlacement : Obligations.TripRecordPlacement := by
  intro u r
  exact ⟨fun h => Tru.place_first h r, fun c h acknowledged => (Tru.place_over h r).trans (if_pos acknowledged),
    fun c h fresh => (Tru.place_over h r).trans (if_neg (Bool.eq_false_iff.1 fresh)), fun s l => ⟨_, rfl, rfl⟩⟩

end Sys2Proof.Machine
end

section
/-! PROOFS. Notification channels: the joining of an event, and the requests on channels (R149, R151, R152). -/

namespace Sys2Proof.Machine

/-! ### Joining (R149) -/

section
variable {c : NoticeChannel} (src : NoticeSource) (code : Nat) (now : Clk)

theorem NoticeChannel.join_idle (h : c.state = .idle) :
    c.join src code now = { c with state := .pending, list := c.list.join src code now } := by
  rw [NoticeChannel.join, h]

theorem NoticeChannel.join_pending (h : c.state = .pending) :
    c.join src code now = { c with list := c.list.join src code now } := by
  rw [NoticeChannel.join, h]

theorem NoticeChannel.join_outstanding (h : c.state = .outstanding) :
    c.join src code now = { c with late := c.late.join src code now } := by
  rw [NoticeChannel.join, h]

end

section
variable {l : NoticeList} {src : NoticeSource} (code : Nat) (now : Clk)

theorem NoticeList.any_source_iff :
    l.entries.any (fun x => x.source == src) = true ↔ ∃ x ∈ l.entries, x.source = src := by
  simp [List.any_eq_true]

theorem NoticeList.join_known (h : ∃ x ∈ l.entries, x.source = src) :
    l.join src code now = { l with entries := l.entries.map fun x =>
      if x.source = src then { x with count := min (x.count + 1) 255 } else x } :=
  if_pos (NoticeList.any_source_iff.2 h)

/-- The event of a new source is appended where the list has a place, and lost to OVERFLOW where it has none. -/
theorem NoticeList.join_new (h : ∀ x ∈ l.entries, x.source ≠ src) :
    l.join src code now =
      if l.entries.length < 8 then { l with entries := l.entries ++ [⟨src, code, now, 1⟩] }
      else { l with overflow := true } :=
  if_neg fun known => by
    obtain ⟨x, hx, same⟩ := NoticeList.any_source_iff.1 known
    exact h x hx same

end

/-! ### ACK_NOTICE (R151) -/

/-- A list with no entry and no OVERFLOW marker is the empty list. -/
theorem NoticeList.eq_empty_iff {l : NoticeList} : l = {} ↔ l.entries = [] ∧ l.overflow = false := by
  obtain ⟨entries, overflow⟩ := l
  simp

theorem NoticeChannel.acknowledged_eq (c : NoticeChannel) : c.acknowledged =
    if c.late = {} then { c with state := .idle, list := {} }
    else { c with state := .pending, list := c.late, late := {} } := by
  have nothing : (c.late.entries.isEmpty && !c.late.overflow) = true ↔ c.late = {} := by
    simp [NoticeList.eq_empty_iff]
  simp only [NoticeChannel.acknowledged, nothing]
  split
  case isTrue h => rw [← h]
  case isFalse => rfl

/-- The watches of the list that are re-armed: those that are ONE_SHOT and FIRED. -/
def State.rearmed (s : State) (l : List Nat) : List Nat := l.filter fun w => (s.watch w).rearmable

/-- The part once a channel is acknowledged and the watches are re-armed. -/
def State.acknowledge (s : State) (n : Nat) (armed : List Nat) : State :=
  armed.foldl (fun t w => t.updWatch w fun r => { r with state := .armed, latch := none })
    (s.updNotice n NoticeChannel.acknowledged)

section
variable {s : State} {n : Nat} {l : List Nat} (hn : n < 3)
include hn

theorem takeAckNotice_offends {i : Nat} (h : firstOffending (fun w => w < 24) l = some i) :
    takeAckNotice n l s = (s.ev, .badField (2 + i)) := by
  rw [takeAckNotice, decide_eq_true hn, judged_cons_true, judged_nil, h]

variable (h : firstOffending (fun w => w < 24) l = none)
include h

theorem takeAckNotice_wrongState (k : (s.notice n).state ≠ .outstanding) :
    takeAckNotice n l s = (s.ev, .no .wrongState {}) := by
  rw [takeAckNotice, decide_eq_true hn, judged_cons_true, judged_nil, h]
  exact if_pos (bne_iff_ne.2 k)

theorem takeAckNotice_acknowledges (k : (s.notice n).state = .outstanding) : takeAckNotice n l s =
    ((s.acknowledge n (s.rearmed l)).ev,
      .ok (b1 ((s.acknowledge n (s.rearmed l)).notice n).state.code :: (s.rearmed l).map b1)) := by
  rw [takeAckNotice, decide_eq_true hn, judged_cons_true, judged_nil, h]
  exact if_neg (by simp [k])

end

/-- A place of the list that offends: an index out of range, or one that repeats an earlier one. -/
def offendsRearm (l : List Nat) (i : Nat) : Prop := i < l.length ∧ (24 ≤ l.getD i 0 ∨ l.getD i 0 ∈ l.take i)

section
variable {l : List Nat}

theorem rearm_fresh {i : Nat} (hi : i < l.length) (h : ¬offendsRearm l i) :
    decide (l.getD i 0 < 24) = true ∧ l.getD i 0 ∉ l.take i := by
  obtain ⟨range, fresh⟩ := not_or.1 (not_and.1 h hi)
  exact ⟨decide_eq_true (not_le.1 range), fresh⟩

theorem rearm_offends {i : Nat} (h : offendsRearm l i) (first : ∀ j, j < i → ¬offendsRearm l j) :
    firstOffending (fun w => w < 24) l = some i :=
  firstOffending_eq_some h.1 (h.2.imp_left fun out => decide_eq_false out.not_gt)
    fun j hj => rearm_fresh (hj.trans h.1) (first j hj)

theorem rearm_no_offence (h : ∀ i, ¬offendsRearm l i) : firstOffending (fun w => w < 24) l = none :=
  firstOffending_eq_none fun i hi => rearm_fresh hi (h i)

/-- Watch indices in range, each once, do not offend. -/
theorem rearm_once (range : ∀ w ∈ l, w < 24) (once : l.Nodup) (i : Nat) : ¬offendsRearm l i := by
  rintro ⟨hi, out | repeated⟩
  · rw [List.getD_eq_getElem _ _ hi] at out
    exact (range _ (List.getElem_mem hi)).not_ge out
  · exact getD_notMem_take once hi repeated

end

/-! ### DISCARD_NOTICE (R152) -/

section
variable {s : State} {n : Nat} (hn : n < 3)
include hn

theorem takeDiscardNotice_pending (h : (s.notice n).state = .pending) : takeDiscardNotice n s =
    ((s.updNotice n fun c => { c with state := .idle, list := {} }).ev, .ok []) := by
  rw [takeDiscardNotice, decide_eq_true hn, judged_cons_true, judged_nil, h]
  rfl

theorem takeDiscardNotice_idle (h : (s.notice n).state = .idle) : takeDiscardNotice n s = (s.ev, .ok []) := by
  rw [takeDiscardNotice, decide_eq_true hn, judged_cons_true, judged_nil, h]
  rfl

theorem takeDiscardNotice_outstanding (h : (s.notice n).state = .outstanding) :
    takeDiscardNotice n s = (s.ev, .no .wrongState {}) := by
  rw [takeDiscardNotice, decide_eq_true hn, judged_cons_true, judged_nil, h]
  rfl

end

/-! ### HOLD_NOTICES and RELEASE_NOTICES (R152) -/

/-- Holding and releasing leave the channels' states. -/
theorem holdAll_channelStates (s : State) (b : Bool) : (s.holdAll b).channelStates = s.channelStates := by
  simp [State.holdAll, State.channelStates]

/-- A request that holds or releases every channel is done, with the channels' states told. -/
theorem completes_holdAll {c : Instr} {s : State} {e : QEntry} (b : Bool)
    (x : exec c s = .next (serve c (fun t => ((t.holdAll b).ev, .ok t.channelStates)) s)) (taken : takes c s e = true) :
    completes c s e (fun x => (x.holdAll b).ev) State.channelStates :=
  completes_of x taken (by rw [State.ev_s, holdAll_channelStates])

/-- Settles O47: a joining by the channel's state, each request by the index, the list and the channel's state. -/
theorem noticesJoinedAndAcknowledged : Obligations.NoticesJoinedAndAcknowledged := by
  refine ⟨fun s n src code c now b => ⟨rfl, NoticeChannel.join_idle src code now,
      NoticeChannel.join_pending src code now, NoticeChannel.join_outstanding src code now, rfl⟩,
    fun s e t n l hn => ⟨fun taken range once outstanding => ?acknowledged,
      fun taken => ⟨fun i bad first => ?offends, fun clean k => ?wrongState⟩,
      completes_holdAll true rfl, completes_holdAll false rfl,
      fun taken => ⟨fun k => ?discards, fun k => ?nothing, fun k => ?refused⟩,
      fun taken => completes_of rfl taken (judged_all (by simp [hn]))⟩,
    fun l src code now => ⟨NoticeList.join_known code now, fun new place => ?place, fun new full => ?full⟩⟩
  case acknowledged =>
    refine completes_of rfl taken ?_
    rw [takeAckNotice_acknowledges hn (rearm_no_offence (rearm_once range once)) (by simpa using outstanding),
      State.acknowledge, State.rearmed, arrived_watch, funext NoticeChannel.acknowledged_eq]
    rfl
  case offends => exact refuses_of rfl taken (takeAckNotice_offends hn (rearm_offends bad first))
  case wrongState =>
    exact refuses_of rfl taken (takeAckNotice_wrongState hn (rearm_no_offence clean) (by simpa using k))
  case discards => exact completes_of rfl taken (takeDiscardNotice_pending hn (by simpa using k))
  case nothing => exact completes_of rfl taken (takeDiscardNotice_idle hn (by simpa using k))
  case refused => exact refuses_of rfl taken (takeDiscardNotice_outstanding hn (by simpa using k))
  case place => exact (NoticeList.join_new code now new).trans (if_pos place)
  case full => exact (NoticeList.join_new code now new).trans (if_neg full.not_gt)

end Sys2Proof.Machine
end

section
/-! PROOFS. CLEAR_TRIP (R159): the first condition that fails, and what it does where none does. -/

namespace Sys2Proof.Machine

@[simp] theorem arrived_cannotClear (s : State) (c : Instr) : (s.arrived c).cannotClear = s.cannotClear := by
  simp [State.cannotClear]

/-- The header's signal is LOST: SITE names a header channel whose quality is LOST. -/
def State.headerLost (s : State) : Prop := ∃ ch, s.headerChannel = some ch ∧ (s.chan ch).quality = .lost

/-- A present cavern in service is outside its envelope. -/
def State.outside (s : State) (c : Nat) : Prop :=
  (s.cavDef c).isSome = true ∧ (s.cav c).state ≠ .outOfService ∧ (s.cav c).envelope ≠ .inside

/-- The lowest cavern outside its envelope, as CLEAR_TRIP looks for it. -/
def State.firstOutside (s : State) : Option Nat :=
  (List.range 8).find? fun c =>
    (s.cavDef c).isSome && (s.cav c).state != .outOfService && (s.cav c).envelope != .inside

/-- The lowest unit that is STOPPING. -/
def State.firstStopping (s : State) : Option Nat := (List.range 6).find? fun u => (s.unit u).state == .stopping

section
variable {s : State}

theorem headerLost_iff :
    s.headerChannel.any (fun ch => (s.chan ch).quality == .lost) = true ↔ s.headerLost := by
  simp [State.headerLost, Option.any_eq_true]

theorem firstOutside_some {c : Nat} (hc : c < 8) (out : s.outside c) (first : ∀ b, b < c → ¬s.outside b) :
    s.firstOutside = some c := by
  rw [State.firstOutside, List.find?_range_eq_some]
  refine ⟨by simpa [State.outside, and_assoc] using out, List.mem_range.2 hc, fun b hb => ?_⟩
  rw [Bool.not_eq_true', ← Bool.not_eq_true]
  simpa only [State.outside, Bool.and_eq_true, bne_iff_ne, and_assoc] using first b hb

theorem firstOutside_none (inside : ∀ c, c < 8 → ¬s.outside c) : s.firstOutside = none := by
  rw [State.firstOutside, List.find?_eq_none]
  intro c hc
  simpa only [State.outside, Bool.and_eq_true, bne_iff_ne, and_assoc] using inside c (List.mem_range.1 hc)

theorem firstStopping_some {u : Nat} (hu : u < 6) (stopping : (s.unit u).state = .stopping)
    (first : ∀ v, v < u → (s.unit v).state ≠ .stopping) : s.firstStopping = some u := by
  rw [State.firstStopping, List.find?_range_eq_some]
  exact ⟨beq_iff_eq.2 stopping, List.mem_range.2 hu, fun v hv => by simpa using first v hv⟩

theorem firstStopping_none (h : ∀ u, u < 6 → (s.unit u).state ≠ .stopping) : s.firstStopping = none := by
  rw [State.firstStopping, List.find?_eq_none]
  exact fun u hu => by simpa using h u (List.mem_range.1 hu)

/-! ### The table of R159 -/

theorem cannotClear_esd (h : s.tru.esd = true) : s.cannotClear = some ⟨.condition, 1⟩ := if_pos h

section
variable (esd : s.tru.esd = false)
include esd

theorem cannotClear_headerLost (h : s.headerLost) : s.cannotClear = some ⟨.condition, 2⟩ :=
  (if_neg (Bool.eq_false_iff.1 esd)).trans (if_pos (headerLost_iff.2 h))

variable (heard : ¬s.headerLost)
include heard

theorem cannotClear_headerAbove (h : s.tru.headerAbove = true) : s.cannotClear = some ⟨.condition, 3⟩ :=
  ((if_neg (Bool.eq_false_iff.1 esd)).trans (if_neg (mt headerLost_iff.1 heard))).trans (if_pos h)

variable (above : s.tru.headerAbove = false)
include above

/-- With the station's own conditions met, the caverns are judged in ascending index, and then the units. -/
theorem cannotClear_plant : s.cannotClear =
    s.firstOutside.elim (s.firstStopping.map fun u => ⟨.unit, u⟩) fun c => some ⟨.cavern, c⟩ := by
  refine (((if_neg (Bool.eq_false_iff.1 esd)).trans (if_neg (mt headerLost_iff.1 heard))).trans
    (if_neg (Bool.eq_false_iff.1 above))).trans ?_
  unfold State.firstOutside State.firstStopping
  split <;> simp [*]

end

/-! ### The request -/

theorem takeClearTrip_noRecord (h : s.tru.current = none) : takeClearTrip s = (s.ev, .no .noSuch {}) := by
  rw [takeClearTrip, h]
  rfl

/-- With a record the table is tried while the station is TRIPPED. -/
theorem takeClearTrip_record (h : s.tru.current ≠ none) : takeClearTrip s =
    (if s.tru.tripped then s.cannotClear else none).elim (s.clearTrip.ev, .ok s.clearTrip.clearReply)
      fun d => (s.ev, .no .wrongState d) := by
  rw [takeClearTrip, Option.isNone_eq_false_iff.2 (Option.isSome_iff_ne_none.2 h), refuseIf_false]
  split <;> simp [*]

/-- A station that is NORMAL has its record acknowledged and its count cleared; it stays NORMAL. -/
theorem clearTrip_of_normal (h : s.tru.tripped = false) : s.clearTrip =
    { s with tru :=
      { s.tru with cascade := 0, current := s.tru.current.map fun r => { r with acknowledged := true } } } := by
  rw [State.clearTrip, ← h]

end

section
variable {s : State} {e : QEntry} {t : Nat} (taken : takes (.clearTrip t) s e = true) (record : s.tru.current ≠ none)
include taken record

/-- A condition that fails refuses the request. -/
theorem refuses_clearTrip {d : Detail} (tripped : s.tru.tripped = true) (h : s.cannotClear = some d) :
    refuses (.clearTrip t) s e .wrongState d := by
  refine refuses_of rfl taken ?_
  rw [takeClearTrip_record (by simpa using record), arrived_tru, tripped, arrived_cannotClear, h]
  rfl

/-- The request is done where the station is NORMAL or no condition fails. -/
theorem completes_clearTrip (h : s.tru.tripped = true → s.cannotClear = none) :
    completes (.clearTrip t) s e (fun x => x.clearTrip.ev) State.clearReply := by
  have clear : (if s.tru.tripped then s.cannotClear else none) = none := by
    split
    · exact h ‹_›
    · rfl
  refine completes_of rfl taken ?_
  rw [takeClearTrip_record (by simpa using record), arrived_tru, arrived_cannotClear, clear]
  rfl

end

/-- Settles O50: the conditions in the order of R159's table, and then the clearing itself. -/
theorem clearTripByConditions : Obligations.ClearTripByConditions := by
  intro s e t taken refused lost out stopping
  refine ⟨fun h => ?noRecord, fun record tripped => ⟨fun esd => ?esd, fun esd lost => ?lost,
      fun esd heard above => ?above, fun esd heard above => ⟨fun c hc out first => ?cavern,
        fun inside => ⟨fun u hu stops first => ?unit, fun rest => ?clears⟩⟩⟩,
    fun record normal => ?normal⟩
  case noRecord => exact refuses_of rfl taken (takeClearTrip_noRecord (by simpa using h))
  case esd => exact refuses_clearTrip taken record tripped (cannotClear_esd esd)
  case lost => exact refuses_clearTrip taken record tripped (cannotClear_headerLost esd lost)
  case above => exact refuses_clearTrip taken record tripped (cannotClear_headerAbove esd heard above)
  case cavern =>
    refine refuses_clearTrip taken record tripped ?_
    rw [cannotClear_plant esd heard above, firstOutside_some hc out first]
    rfl
  case unit =>
    refine refuses_clearTrip taken record tripped ?_
    rw [cannotClear_plant esd heard above, firstOutside_none inside, firstStopping_some hu stops first]
    rfl
  case clears =>
    refine completes_clearTrip taken record fun _ => ?_
    rw [cannotClear_plant esd heard above, firstOutside_none inside, firstStopping_none rest]
    rfl
  case normal =>
    have cleared := completes_clearTrip taken record fun tripped => absurd (normal.symm.trans tripped) nofun
    rw [completes, clearTrip_of_normal (by simpa using normal)] at cleared
    exact cleared

end Sys2Proof.Machine
end

section
/-! PROOFS. What happens on the line: bytes gathered, frames judged, the line granted and places freed (R150, R176 to
R178, R181, R183). -/

namespace Sys2Proof.Machine

theorem onLink_running {f : State → State} {s : State} (run : s.phase = .running) : onLink f s = f s :=
  if_pos (beq_iff_eq.2 run)

/-! ### The receiver (R177) -/

/-- A receiver that is HUNTING returns to nothing new. -/
theorem hunt_of_hunting {s : State} (h : s.slu.receiver = .hunting) : s.hunt = s := by
  rw [State.hunt, ← h]

theorem huntByte_start (s : State) :
    s.huntByte 0x5A#8 = { s with slu := { s.slu with receiver := .inFrame [] s.mu.ms } } := if_pos rfl

theorem huntByte_other {b : Byte} (h : b ≠ 0x5A#8) (s : State) : s.huntByte b = s.hunt := if_neg h

theorem receiveByte_hunting {s : State} (h : s.slu.receiver = .hunting) (b : Byte) :
    s.receiveByte b = s.huntByte b := by
  rw [State.receiveByte, h]

theorem receiveFrame_hunting {s : State} (h : s.slu.receiver = .hunting) : s.receiveFrame = s := by
  rw [State.receiveFrame, h]

section
variable {s : State} {l : List Byte} {n : Nat} (h : s.slu.receiver = .inFrame l n)
include h

/-- A byte within 10 ms of the one before joins the frame, unless it is a length byte above 240. -/
theorem receiveByte_inFrame (part : frameWhole l = false) (soon : s.mu.ms ≤ n + 10) (b : Byte) : s.receiveByte b =
    if l = [] ∧ 240 < b.toNat then s.hunt
    else { s with slu := { s.slu with receiver := .inFrame (l ++ [b]) s.mu.ms } } := by
  simp only [State.receiveByte, h, part, Bool.false_eq_true, if_false, if_neg soon.not_gt, List.isEmpty_iff]

theorem receiveFrame_part (part : frameWhole l = false) : s.receiveFrame = s := by
  simp only [State.receiveFrame, h, part, Bool.false_eq_true, if_false]

/-- A whole frame with a bad CRC is discarded. -/
theorem receiveFrame_damaged (whole : frameWhole l = true) (bad : frameParts l = none) : s.receiveFrame = s.hunt := by
  simp only [State.receiveFrame, h, whole, bad, if_true]

/-- A whole frame with a good CRC is judged, unless a reset is pending (R178, R183). -/
theorem receiveFrame_whole (whole : frameWhole l = true) {k tag : Nat} {body : List Byte}
    (parts : frameParts l = some (k, tag, body)) : s.receiveFrame =
      if s.slu.resetPending then s.hunt else s.hunt.judgeFrame k tag body := by
  simp only [State.receiveFrame, h, whole, parts, if_true]

theorem gapTimeout_late (part : frameWhole l = false) (late : n + 10 < s.mu.ms) : s.gapTimeout = s.hunt := by
  simp only [State.gapTimeout, h]
  exact if_pos (by simp [part, late])

end

/-! ### Judging a frame (R178) -/

theorem kindLengths_of_large {k : Nat} (h : 0x5A ≤ k) : kindLengths k = none := by
  unfold kindLengths
  iterate 11 rw [if_neg (by omega)]

/-- The kinds that carry a request are those of the catalogue, below 0x5A; CAVERN_SERVICE, 0x10, carries one of two. -/
theorem decodeRequest_isSome {k : Nat} (h : kindLengths k ≠ none) (tag : Nat) (body : List Byte) :
    (decodeRequest k tag body).isSome = true := by
  have below : k < 0x5A := not_le.1 (mt kindLengths_of_large h)
  have same : (decodeRequest k tag body).isSome = (kindLengths k).isSome := by
    interval_cases k
    pick_goal 17
    · exact (apply_ite Option.isSome _ _ _).trans (ite_self _)
    all_goals rfl
  rw [same]
  exact Option.isSome_iff_ne_none.2 h

/-- What a frame reads as is a request of its kind, with its tag. -/
theorem decodeRequest_kind_tag {k tag : Nat} {body : List Byte} {c : Instr} (h : decodeRequest k tag body = some c) :
    c.kind = some k ∧ c.tag = tag := by
  unfold decodeRequest at h
  split at h
  case h_7 => split at h <;> exact Option.some.inj h ▸ ⟨rfl, rfl⟩
  case h_62 => cases h
  all_goals exact Option.some.inj h ▸ ⟨rfl, rfl⟩

theorem kindLengths_of_allowed {k n : Nat} (h : lengthAllowed k n = true) : kindLengths k ≠ none := by
  intro none
  rw [lengthAllowed, none] at h
  cases h

section
variable {s : State} {k tag : Nat} {body : List Byte}

theorem judgeFrame_unknownKind (h : kindLengths k = none) :
    s.judgeFrame k tag body = s.refuseFrame 0xFF tag .unknownKind ⟨.kind, k⟩ := by
  rw [State.judgeFrame, h]

theorem judgeFrame_badLength (h : kindLengths k ≠ none) (bad : lengthAllowed k body.length = false) :
    s.judgeFrame k tag body = s.refuseFrame (k + 0x80) tag .badLength {} := by
  obtain ⟨x, hx⟩ := Option.ne_none_iff_exists'.1 h
  simp only [State.judgeFrame, hx, bad, Bool.false_eq_true, if_false]

/-- A frame of an allowed length is the arrival of the request that it carries. -/
theorem judgeFrame_allowed (h : lengthAllowed k body.length = true) : ∃ c, decodeRequest k tag body = some c ∧
    c.kind = some k ∧ c.tag = tag ∧ s.judgeFrame k tag body = s.enqueue c k := by
  obtain ⟨x, hx⟩ := Option.ne_none_iff_exists'.1 (kindLengths_of_allowed h)
  obtain ⟨c, decoded⟩ := Option.isSome_iff_exists.1 (decodeRequest_isSome (kindLengths_of_allowed h) tag body)
  obtain ⟨kind, tagged⟩ := decodeRequest_kind_tag decoded
  exact ⟨c, decoded, kind, tagged, by simp only [State.judgeFrame, hx, h, decoded, if_true]⟩

end

/-! ### The arbiter (R150, R181, R183) -/

theorem offered_iff {s : State} {n : Nat} : s.offered n = true ↔
    s.slu.resetPending = false ∧ (s.notice n).state = .pending ∧ (s.notice n).held = false := by
  simp [State.offered, and_assoc]

theorem grantReply_grants {s : State} {r : Reply} {rest : List Reply} (idle : s.slu.sending = none)
    (order : s.slu.order = r :: rest) (free : s.offered 0 = false) :
    s.grantReply = { s with slu := { s.slu with sending := some (.reply r), order := rest } } := by
  simp only [State.grantReply, idle, order, free, Bool.false_eq_true, if_false]

theorem grantReply_stays {s : State} (h : s.slu.sending ≠ none ∨ s.slu.order = [] ∨ s.offered 0 = true) :
    s.grantReply = s := by
  unfold State.grantReply
  split
  case h_1 idle order =>
    rcases h with busy | empty | first
    · exact absurd idle busy
    · exact absurd (order.symm.trans empty) nofun
    · exact if_pos first
  case h_2 => rfl

theorem noticeChosen_eq (s : State) : s.noticeChosen =
    if s.slu.sending ≠ none then none
    else if s.offered 0 = true then some 0
    else if s.slu.order ≠ [] then none
    else if s.offered 1 = true then some 1
    else if s.offered 2 = true then some 2
    else none := by
  simp only [State.noticeChosen, Option.isSome_iff_ne_none, Bool.not_eq_true', List.isEmpty_eq_false_iff]

theorem sendNotice_none {s : State} (h : s.noticeChosen = none) : s.sendNotice = s := by
  rw [State.sendNotice, h]

theorem sendNotice_some {s : State} {n : Nat} (h : s.noticeChosen = some n) : s.sendNotice =
    ({ s with slu := { s.slu with sending := some (.notice n (s.notice n).list) } } : State).updNotice n fun c =>
      { c with state := .outstanding } := by
  rw [State.sendNotice, h]

/-! ### The end of a telegram (R176, R181, R183) -/

theorem takeRate_waitless {s : State} (h : s.slu.newRates = []) (a : Nat) : s.takeRate a = s := by
  rw [State.takeRate, h]
  rfl

/-- A link rate that waited for this reply applies; those that wait for others go on waiting. -/
theorem takeRate_takes {s : State} {a rate : Nat} {waiting : List (Nat × Nat)}
    (h : s.slu.newRates = (a, rate) :: waiting) (others : ∀ x ∈ waiting, x.1 ≠ a) : s.takeRate a =
      { s with slu := { s.slu with rate := rate, newRates := waiting, receiver := .hunting } } := by
  have found : s.slu.newRates.find? (·.1 == a) = some (a, rate) := by simp [h]
  have rest : s.slu.newRates.filter (·.1 != a) = waiting := by
    rw [h, List.filter_cons_of_neg (by simp)]
    exact List.filter_eq_self.2 fun x hx => bne_iff_ne.2 (others x hx)
  simp only [State.takeRate, found, rest]
  rfl

theorem endTelegram_idle {s : State} (h : s.slu.sending = none) : s.endTelegram = s := by
  rw [State.endTelegram, h]

theorem endTelegram_notice {s : State} {n : Nat} {list : NoticeList} (h : s.slu.sending = some (.notice n list)) :
    s.endTelegram = { s with slu := { s.slu with sending := none } } := by
  rw [State.endTelegram, h]

theorem endTelegram_refusal {s : State} {r : Reply} (h : s.slu.sending = some (.reply r)) (o : r.origin = .refusal) :
    s.endTelegram = { s with slu := { s.slu with sending := none, refusal := none } } := by
  simp only [State.endTelegram, h, o]
  rfl

/-- The line is idle and the entry's place in the queue is free. -/
def State.freed (s : State) (a : Nat) : State :=
  { s with slu := { s.slu with sending := none, queue := s.slu.queue.filter (·.arrival != a) } }

/-- A reply's end frees its entry's place, and then brings the reset that waited for it, or the link rate. -/
theorem endTelegram_entry {s : State} {r : Reply} {a : Nat} (h : s.slu.sending = some (.reply r))
    (o : r.origin = .entry a) : s.endTelegram =
      if s.slu.resetReply = some a then beginStart false (s.freed a) else (s.freed a).takeRate a := by
  simp only [State.endTelegram, h, o]
  rfl

/-- Settles O56: the receiver by its state and the frame, the frame by R178's table, the arbiter by its order, and the
end of a telegram by what was sent. -/
theorem lineEventsGatherGrantAndFree : Obligations.LineEventsGatherGrantAndFree := by
  intro s e t n a b l r rest run
  have line {f : State → State} {x : State} (h : f s = x) :
      (.next (onLink f s) : Host.Outcome State Fault Refusal) = .next x :=
    congrArg _ ((onLink_running run).trans h)
  have framed {k tag : Nat} {body : List Byte} (h : s.slu.receiver = .inFrame l n) (whole : frameWhole l = true)
      (parts : frameParts l = some (k, tag, body)) (stays : s.slu.resetPending = false) :
      s.receiveFrame = s.hunt.judgeFrame k tag body :=
    (receiveFrame_whole h whole parts).trans (if_neg (Bool.eq_false_iff.1 stays))
  refine ⟨fun h start => ?start, fun h other => ?other, fun h some part soon => ?gathers,
    fun h soon => ⟨fun short => ?length, fun long => ?long⟩,
    fun h whole _ bad => line (receiveFrame_damaged h whole bad),
    fun h => line (receiveFrame_hunting h), fun h part => line (receiveFrame_part h part),
    fun k tag body h whole parts => ⟨fun pending => ?pending, fun stays => ⟨fun unknown => ?unknown,
      fun known bad => ?badLength, fun len full => ?full, fun len free => ?place⟩⟩,
    fun h part late => line (gapTimeout_late h part late), fun h part => ?framing,
    fun idle order free => line (grantReply_grants idle order free), fun h => line (grantReply_stays h),
    fun c => offered_iff, noticeChosen_eq s, fun h => line (sendNotice_none h), fun h => line (sendNotice_some h),
    fun h o reset rates => ?reply, fun h o => line (endTelegram_refusal h o),
    fun list h => line (endTelegram_notice h), fun rate waiting h o reset rates others => ?rate,
    fun h => line (endTelegram_idle h), fun h o reset => ?reset, fun taken => completes_of rfl taken rfl⟩
  case start =>
    subst start
    exact line ((receiveByte_hunting h _).trans (huntByte_start s))
  case other => exact line (((receiveByte_hunting h b).trans (huntByte_other other s)).trans (hunt_of_hunting h))
  case gathers => exact line ((receiveByte_inFrame h part soon b).trans (if_neg fun k => some k.1))
  case length => exact line ((receiveByte_inFrame h rfl soon b).trans (if_neg fun k => short.not_gt k.2))
  case long => exact line ((receiveByte_inFrame h rfl soon b).trans (if_pos ⟨rfl, long⟩))
  case pending => exact line ((receiveFrame_whole h whole parts).trans (if_pos pending))
  case unknown =>
    have judged := (framed h whole parts stays).trans (judgeFrame_unknownKind unknown)
    exact ⟨fun vacant => line (judged.trans (refuseFrame_free vacant)),
      fun occupied => line (judged.trans (refuseFrame_occupied occupied))⟩
  case badLength =>
    have judged := (framed h whole parts stays).trans (judgeFrame_badLength known bad)
    exact ⟨fun vacant => line (judged.trans (refuseFrame_free vacant)),
      fun occupied => line (judged.trans (refuseFrame_occupied occupied))⟩
  case full =>
    obtain ⟨c, _, _, rfl, arrives⟩ := judgeFrame_allowed (s := s.hunt) (tag := tag) len
    have judged : s.receiveFrame = s.hunt.refuseFrame (k + 0x80) c.tag .queueFull {} :=
      ((framed h whole parts stays).trans arrives).trans (if_pos full)
    exact ⟨fun vacant => line (judged.trans (refuseFrame_free vacant)),
      fun occupied => line (judged.trans (refuseFrame_occupied occupied))⟩
  case place =>
    obtain ⟨c, decoded, kind, tagged, arrives⟩ := judgeFrame_allowed (s := s.hunt) (tag := tag) len
    exact ⟨c, decoded, kind, tagged,
      line (((framed h whole parts stays).trans arrives).trans (enqueue_place (s := s.hunt) free))⟩
  case framing => exact line (congrArg State.hunt (receiveFrame_part h part))
  case reply =>
    have freed : s.endTelegram = (s.freed a).takeRate a := (endTelegram_entry h o).trans (if_neg (by simp [reset]))
    exact line (freed.trans (takeRate_waitless (s := s.freed a) rates a))
  case rate =>
    have freed : s.endTelegram = (s.freed a).takeRate a := (endTelegram_entry h o).trans (if_neg reset)
    exact line (freed.trans (takeRate_takes (s := s.freed a) rates others))
  case reset => exact line ((endTelegram_entry h o).trans (if_pos reset))

end Sys2Proof.Machine
end

section
/-! PROOFS. Trips of station and cavern scope, second failures, the ESD input, and the end of an event (R30, R57, R108,
R154, R156, R158). -/

namespace Sys2Proof.Machine

/-! ### The ESD input (R154) -/

section
variable {s : State}

/-- The ESD level as its input gives it. -/
def State.withEsd (s : State) (b : Bool) : State := { s with tru := { s.tru with esd := b } }

theorem exec_esd_same : exec (.esdInputChange s.tru.esd) s = .next s :=
  congrArg Host.Outcome.next (if_pos (by simp))

theorem exec_esd_asserted (h : s.tru.esd = false) (run : s.phase = .running) :
    happens (.esdInputChange true) s fun x => (x.withEsd true).ev.launch { code := 0x010 } :=
  congrArg Host.Outcome.next (inputChange_running (by rw [h]; rfl) run)

/-- A level released hands nothing on, whatever the phase. -/
theorem exec_esd_released (h : s.tru.esd = true) : exec (.esdInputChange false) s = .next (s.withEsd false) := by
  have changed : (s.tru.esd != false) = true := by rw [h]; rfl
  refine congrArg Host.Outcome.next ?_
  by_cases run : s.phase = .running
  · exact inputChange_running changed run
  · exact inputChange_not_running changed run

theorem exec_esd_recorded (h : s.tru.esd = false) (off : s.phase ≠ .running) :
    exec (.esdInputChange true) s = .next (s.withEsd true) :=
  congrArg Host.Outcome.next (inputChange_not_running (by rw [h]; rfl) off)

end

/-! ### The end of an event (R108, R156) -/

theorem Launch.before_iff {a b : Launch} : a.before b = true ↔
    a.code < b.code ∨ (a.code = b.code ∧ (a.watch.map Prod.fst).getD 0 ≤ (b.watch.map Prod.fst).getD 0) := by
  simp [Launch.before]

section
variable {ev : Ev}

/-- The launches are taken, each whole, and what they hand on ends as any event does. -/
theorem finish_of_launches (h : ev.launches ≠ []) :
    ev.finish = ((sortLaunches ev.launches).foldl launchTrip { ev with launches := [] }).finish := by
  obtain ⟨l, ls, hl⟩ := List.exists_cons_of_ne_nil h
  have round (n : Nat) : finishRounds (n + 1) ev =
      finishRounds n ((sortLaunches ev.launches).foldl launchTrip { ev with launches := [] }) := by
    rw [finishRounds, hl]
  exact (round 63).trans (finishRounds_enough 60 61 _)

theorem finish_of_restep (h : ev.launches = []) (k : ev.restep = true) : ev.finish = (fplStep .restep ev).finish := by
  have round (n : Nat) : finishRounds (n + 1) ev = finishRounds n (fplStep .restep ev) := by
    rw [finishRounds, h]
    exact if_pos k
  exact (round 63).trans (finishRounds_enough 60 61 _)

end

/-! ### A launch of cavern scope (R30, R156) -/

/-- A change of a cavern's state is handed to the planner (R108). -/
theorem changeCavern_restep_of_state {c : Nat} {f : Cavern → Cavern} {ev : Ev}
    (h : ((changeCavern c f ev).s.cav c).state ≠ (ev.s.cav c).state) : (changeCavern c f ev).restep = true := by
  have owed : (changeCavern c f ev).restep = (ev.restep ||
    ((ev.s.cav c).state != ((changeCavern c f ev).s.cav c).state ||
      (ev.s.cav c).injPermit != ((changeCavern c f ev).s.cav c).injPermit ||
      (ev.s.cav c).wdPermit != ((changeCavern c f ev).s.cav c).wdPermit ||
      ev.s.lowPressure c != (changeCavern c f ev).s.lowPressure c)) := rfl
  simp only [owed, Bool.or_eq_true, bne_iff_ne]
  exact .inr (.inl (.inl (.inl h.symm)))

theorem tripCavern_absent {c : Nat} {ev : Ev} (h : ev.s.cavDef c = none) (station : Bool) :
    tripCavern station c ev = ev := by
  rw [tripCavern, h]

theorem tripCavern_present {c : Nat} {ev : Ev} {d : CavernDef} (h : ev.s.cavDef c = some d) (station : Bool) :
    tripCavern station c ev = changeCavern c (·.trip station ev.s d) ev := by
  rw [tripCavern, h]

/-- A launch of cavern scope changes no other cavern, and nothing else but the record and the notice. -/
structure CavernTripped (c : Nat) (ev v : Ev) : Prop where
  launches : v.launches = ev.launches := by rfl
  raised : v.raised = ev.raised := by rfl
  state : v.s = { ev.s with cvc := v.s.cvc } := by rfl
  others : ∀ k, k ≠ c → v.s.cav k = ev.s.cav k := by exact fun _ _ => rfl
  injMerit : v.s.cvc.injMerit = ev.s.cvc.injMerit := by rfl
  wdMerit : v.s.cvc.wdMerit = ev.s.cvc.wdMerit := by rfl

theorem tripCavern_tripped (station : Bool) (c : Nat) (ev : Ev) : CavernTripped c ev (tripCavern station c ev) := by
  cases h : ev.s.cavDef c with
  | none =>
    rw [tripCavern_absent h]
    exact {}
  | some d =>
    rw [tripCavern_present h]
    exact { others := fun k hk => (State.cav_updCav ev.s c k _).trans (if_neg fun same => hk same.1.symm) }

/-- The trip command of a launch of cavern scope, once the record is formed. -/
theorem launchTrip_cavern (ev : Ev) (code c : Nat) (w : Option (Nat × Nat)) (u : Option Nat) :
    launchTrip ev { code := code, scope := some c, watch := w, unit := u } =
      (tripCavern false c (ev.map fun s => s.record { code := code, scope := some c, watch := w, unit := u })).map
        fun s => s.joinNotice 0 (.trip code) code := rfl

/-! ### A trip command of station scope at the caverns (R30, R156) -/

/-- A station trip command leaves no cavern it reaches OPENING or open. -/
theorem Cavern.trip_not_open (s : State) (d : CavernDef) (r : Cavern) :
    (r.trip true s d).state ≠ .opening ∧ (r.trip true s d).state.isOpen = false := by
  cases h : r.state <;> simp [Cavern.trip, Cavern.beginClosing, h, CavernState.isOpen]

theorem tripCavern_told {i c : Nat} (h : i ≠ c) (station : Bool) (ev : Ev) :
    CavernsTold c ev (tripCavern station i ev) := by
  unfold tripCavern
  split
  · exact changeCavern_told h _ ev
  · exact .refl c ev

/-- A station-scope trip command leaves no present cavern OPENING or open. -/
theorem tripAllCaverns_not_open {c : Nat} {ev : Ev} (h8 : c < 8) (present : ev.s.cavDef c ≠ none) :
    ((tripAllCaverns ev).s.cav c).state ≠ .opening ∧ ((tripAllCaverns ev).s.cav c).state.isOpen = false := by
  obtain ⟨d, hd⟩ := Option.ne_none_iff_exists'.1 present
  obtain ⟨e, before, after⟩ := (foldl_reaches (f := fun e c => tripCavern true c e) (R := CavernsTold)
    CavernsTold.refl CavernsTold.trans (fun _ _ u h => tripCavern_told h true u) c (List.range 8) List.nodup_range
    ev).2 (List.mem_range.2 h8)
  have own : (tripAllCaverns ev).s.cav c = (tripCavern true c e).s.cav c := after.cav
  have hd' : e.s.cavDef c = some d := by rw [before.state]; exact hd
  rw [own, tripCavern_present hd']
  by_cases hc : c < e.s.cvc.caverns.length
  · rw [changeCavern_cav hd' hc]
    exact Cavern.trip_not_open e.s d _
  · -- Past the end of the table a record is read as that of an absent cavern.
    have absent : (changeCavern c (·.trip true e.s d) e).s.cav c = {} := by
      refine List.getD_eq_default _ _ (not_lt.1 ?_)
      exact fun k => hc (by rwa [← State.updCav_length e.s c])
    rw [absent]
    exact ⟨nofun, rfl⟩

/-! ### A trip command of station scope at the units (R57, R156) -/

/-- A unit that is given the trip command counts no longer, and no other begins to. -/
theorem tripUnit_counts {ev : Ev} {u v : Nat} (h : ((tripUnit ev u).s.unit v).state.counts = true) :
    (ev.s.unit v).state.counts = true := by
  unfold tripUnit at h
  split at h
  · exact beginStop_counts h
  · exact h

theorem tripUnit_stops (ev : Ev) (u : Nat) : ((tripUnit ev u).s.unit u).state.counts = false := by
  unfold tripUnit
  cases counts : (ev.s.unit u).state.counts with
  | false => rw [if_neg Bool.false_ne_true, counts]
  | true =>
    rw [if_pos rfl]
    have inTable : u < ev.s.cdm.units.length := by
      by_contra out
      rw [State.unit, List.getD_eq_default _ _ (not_lt.1 out)] at counts
      cases counts
    change ((ev.s.beginStop u).unit u).state.counts = false
    rw [State.beginStop, State.unit_updUnit, if_pos ⟨rfl, inTable⟩]
    rfl

/-- Units given the trip command one after another: none of them counts at the end. -/
theorem foldl_tripUnit_counts {l : List Nat} {ev : Ev} {v : Nat}
    (h : ((l.foldl tripUnit ev).s.unit v).state.counts = true) : (ev.s.unit v).state.counts = true ∧ v ∉ l := by
  induction l generalizing ev with
  | nil => exact ⟨h, nofun⟩
  | cons u l ih =>
    obtain ⟨before, later⟩ := ih h
    refine ⟨tripUnit_counts before, fun among => ?_⟩
    rcases List.mem_cons.1 among with rfl | rest
    · exact Bool.false_ne_true ((tripUnit_stops ev v).symm.trans before)
    · exact later rest

theorem foldl_tripUnit_units (l : List Nat) (ev : Ev) :
    (l.foldl tripUnit ev).s.cdm.units.length = ev.s.cdm.units.length := by
  induction l generalizing ev with
  | nil => rfl
  | cons u l ih =>
    refine (ih _).trans ?_
    unfold tripUnit
    split
    · exact State.updUnit_length _ _ _
    · rfl

theorem tripUnits_unit (ev : Ev) : (tripUnits ev).s.unit = ((List.range 6).foldl tripUnit ev).s.unit := by
  unfold tripUnits
  generalize (List.range 6).foldl tripUnit ev = e
  rfl

/-- Where the part has its six units, none counts after a trip command. -/
theorem tripUnits_counts {ev : Ev} (h : ev.s.cdm.units.length = 6) (u : Nat) :
    ((tripUnits ev).s.unit u).state.counts = false := by
  rw [tripUnits_unit, ← Bool.not_eq_true]
  intro counts
  obtain ⟨before, out⟩ := foldl_tripUnit_counts counts
  have large : ev.s.cdm.units.length ≤ u := by rw [h]; exact not_lt.1 (mt List.mem_range.2 out)
  rw [State.unit, List.getD_eq_default _ _ large] at before
  cases before

/-! ### The planner's held step after a trip (R104, R156) -/

/-- A duty with no demand and no pending start or stop. -/
def State.withDutyIdle (s : State) (d : Duty) : State :=
  s.updDuty d fun q => { q with demand := 0, startPending := none, stopPending := none }

/-- Where the station is TRIPPED and no unit counts, a review leaves a duty with no pending start or stop. -/
theorem review_of_stopped {d : Duty} {ev : Ev} (tripped : ev.s.tru.tripped = true)
    (stopped : ∀ u, (ev.s.unit u).state.counts = false) :
    review d ev = ev.map fun s => (s.withStartPending d none).withStopPending d none := by
  have unwarranted : (ev.s.withStartPending d none).stopWarranted d = none := by
    refine stopWarranted_none_iff.2 fun u running => ?_
    have counts := stopped u
    rw [withStartPending_unit] at running
    rw [running.2.1] at counts
    cases counts
  rw [review, reviewStart_idle (.inl tripped)]
  exact reviewStop_none unwarranted

/-- Demands of 0 handed, and both duties' pending deadlines removed, in the order of a held step's reviews. -/
theorem demands_reviewed_idle (s : State) :
    (((((s.updDuty .inject fun q => { q with demand := 0 }).updDuty .boost fun q =>
      { q with demand := 0 }).withStartPending .inject none).withStopPending .inject none).withStartPending .boost
        none).withStopPending .boost none = (s.withDutyIdle .inject).withDutyIdle .boost := by
  simp only [State.withStartPending, State.withStopPending, State.withDutyIdle, State.updDuty]

/-- Then the demands of a held step leave both duties idle, and nothing else. -/
theorem handDemands_of_stopped {ev : Ev} (tripped : ev.s.tru.tripped = true)
    (stopped : ∀ u, (ev.s.unit u).state.counts = false) :
    handDemands 0 0 ev = ev.map fun s => (s.withDutyIdle .inject).withDutyIdle .boost := by
  let demanded : Ev := ev.map fun s =>
    (s.updDuty .inject fun q => { q with demand := 0 }).updDuty .boost fun q => { q with demand := 0 }
  let reviewed : Ev := demanded.map fun s => (s.withStartPending .inject none).withStopPending .inject none
  have inject : review .inject demanded = reviewed := review_of_stopped tripped stopped
  have boost : review .boost reviewed =
      reviewed.map fun s => (s.withStartPending .boost none).withStopPending .boost none :=
    review_of_stopped tripped stopped
  calc handDemands 0 0 ev
    _ = review .boost (review .inject demanded) := rfl
    _ = reviewed.map fun s => (s.withStartPending .boost none).withStopPending .boost none := by rw [inject, boost]
    _ = ev.map fun s => (s.withDutyIdle .inject).withDutyIdle .boost :=
      congrArg (fun s => { ev with s := s }) (demands_reviewed_idle ev.s)

/-- The order of a cavern that is not open changes nothing of it. -/
theorem distribute_closed {c : Nat} {ev : Ev} (h : (ev.s.cav c).state.isOpen = false) (sp : Int) (w : Walk) :
    (distribute sp w ev).s.cav c = ev.s.cav c := by
  obtain ⟨skip, reach⟩ := foldl_reaches (f := fun e c => giveOrder (ev.s.orderFor sp w c) c e) (R := CavernsTold)
    CavernsTold.refl CavernsTold.trans (fun _ _ u h => giveOrder_told h _ u) c (List.range 8) List.nodup_range ev
  by_cases among : c ∈ List.range 8
  · obtain ⟨e, before, after⟩ := reach among
    rw [giveOrder_closed (by rw [before.cav, h])] at after
    exact after.cav.trans before.cav
  · exact (skip among).cav

section
variable {ev u : Ev} {x : State}

/-- A step changes nothing but caverns, units, the planner's record, watches, notices and the link's record. -/
theorem StepTaken.leaves (h : StepTaken ev u x) :
    x = { ev.s with cvc := x.cvc, cdm := x.cdm, fpl := x.fpl, wnu := x.wnu, slu := x.slu } := by
  rw [h.state, (distribute_only _ _ u).state, h.only.state]

theorem StepTaken.cdm (h : StepTaken ev u x) : x.cdm = u.s.cdm :=
  (congrArg State.cdm h.state).trans (distribute_cdm _ _ u)

/-- A step leaves a cavern that is not open as it finds it. -/
theorem StepTaken.cav_closed (h : StepTaken ev u x) {c : Nat} (closed : (ev.s.cav c).state.isOpen = false) :
    x.cav c = ev.s.cav c := by
  have found : u.s.cav c = ev.s.cav c := (congrArg (fun s : State => s.cav c) h.only.state).trans rfl
  have left : x.cav c = (distribute x.fpl.setpoint (u.s.stepWalk x.fpl.setpoint) u).s.cav c :=
    (congrArg (fun s : State => s.cav c) h.state).trans rfl
  rw [left, distribute_closed (by rw [found, closed]), found]

end

/-! ### A station trip (R156) -/

theorem tripCavern_only (station : Bool) (c : Nat) (ev : Ev) : CavernsOnly ev (tripCavern station c ev) := by
  unfold tripCavern
  split
  · exact changeCavern_only c _ ev
  · exact .refl ev

theorem tripAllCaverns_only (ev : Ev) : CavernsOnly ev (tripAllCaverns ev) :=
  foldl_rel CavernsOnly.refl CavernsOnly.trans (fun u c => tripCavern_only true c u) _ ev

theorem tripUnit_only (ev : Ev) (u : Nat) : UnitsOnly ev (tripUnit ev u) := by
  unfold tripUnit
  split <;> exact {}

theorem tripUnits_only (ev : Ev) : UnitsOnly ev (tripUnits ev) := by
  have commanded : UnitsOnly ev ((List.range 6).foldl tripUnit ev) :=
    foldl_rel (R := UnitsOnly) (fun _ => {}) UnitsOnly.trans tripUnit_only _ ev
  unfold tripUnits
  generalize (List.range 6).foldl tripUnit ev = e at commanded ⊢
  exact commanded.trans {}

/-- What the command of a station trip leaves: the station TRIPPED and the planner HELD, no present cavern that is
OPENING or open, and, where the part has its six units, none that counts; but for caverns, units, watches, notices and
the link nothing else has changed. -/
structure Commanded (ev v : Ev) : Prop where
  state : v.s =
    { ev.s with
      tru := { ev.s.tru with tripped := true }, fpl := { ev.s.fpl with active := false }
      cvc := v.s.cvc, cdm := v.s.cdm, wnu := v.s.wnu, slu := v.s.slu }
  closed : ∀ c, c < 8 → ev.s.cavDef c ≠ none → (v.s.cav c).state ≠ .opening ∧ (v.s.cav c).state.isOpen = false
  stopped : ev.s.cdm.units.length = 6 → ∀ u, (v.s.unit u).state.counts = false

/-- A station trip is its command and then the planner's held step. -/
theorem tripStation_taken (ev : Ev) :
    ∃ v, Commanded ev v ∧ StepTaken v (handDemands 0 0 v) (tripStation ev).s := by
  unfold tripStation
  dsimp only
  generalize ha : (ev.map fun s => { s with tru := { s.tru with tripped := true } }) = a
  have caverns := tripAllCaverns_only a
  have closed (c : Nat) (h8 : c < 8) (present : a.s.cavDef c ≠ none) := tripAllCaverns_not_open h8 present
  generalize tripAllCaverns a = b at caverns closed ⊢
  have units := tripUnits_only b
  have stopped (six : b.s.cdm.units.length = 6) := tripUnits_counts six
  generalize tripUnits b = v at units stopped ⊢
  have state : v.s = { a.s with cvc := v.s.cvc, cdm := v.s.cdm, wnu := v.s.wnu, slu := v.s.slu } := by
    rw [units.state, caverns.state]
  have cav : v.s.cav = b.s.cav := (congrArg State.cav units.state).trans rfl
  have six : b.s.cdm = a.s.cdm := (congrArg State.cdm caverns.state).trans rfl
  subst ha
  refine ⟨v.map fun s => { s with fpl := { s.fpl with active := false } },
    ⟨?_, fun c h8 present => ?_, fun k u => ?_⟩, heldStep_demanded .trip _⟩
  · rw [Ev.map_s, state]
    rfl
  · exact (congrFun cav c).symm ▸ closed c h8 present
  · exact stopped (by rw [six]; exact k) u

section
variable {ev v : Ev} {x : State} (commanded : Commanded ev v) (taken : StepTaken v (handDemands 0 0 v) x)
include commanded taken

theorem tripped_tru : x.tru = { ev.s.tru with tripped := true } := by
  rw [taken.leaves, commanded.state]

theorem tripped_not_open {c : Nat} (h8 : c < 8) (present : ev.s.cavDef c ≠ none) :
    (x.cav c).state ≠ .opening ∧ (x.cav c).state.isOpen = false := by
  have closed := commanded.closed c h8 present
  rwa [taken.cav_closed closed.2]

variable (six : ev.s.cdm.units.length = 6)
include six

/-- The compressors after a station trip: as the command has left them, with both duties idle. -/
theorem tripped_cdm : x.cdm = ((v.s.withDutyIdle .inject).withDutyIdle .boost).cdm := by
  rw [taken.cdm, handDemands_of_stopped (by rw [commanded.state]) (commanded.stopped six), Ev.map_s]

theorem tripped_counts (u : Nat) : (x.unit u).state.counts = false := by
  have same : x.unit u = v.s.unit u := 
    (congrArg (fun c : Cdm => c.units.getD u {}) (tripped_cdm commanded taken six)).trans rfl
  rw [same]
  exact commanded.stopped six u

theorem tripped_duty (q : Duty) :
    (x.duty q).demand = 0 ∧ (x.duty q).startPending = none ∧ (x.duty q).stopPending = none := by
  cases q <;> rw [State.duty, tripped_cdm commanded taken six] <;> exact ⟨rfl, rfl, rfl⟩

end

/-- A station trip leaves the planner HELD with setpoint 0. -/
theorem tripStation_held (ev : Ev) : (tripStation ev).s.fpl.active = false ∧ (tripStation ev).s.fpl.setpoint = 0 := by
  unfold tripStation
  dsimp only
  generalize tripUnits (tripAllCaverns (ev.map fun s => { s with tru := { s.tru with tripped := true } })) = b
  exact ⟨(heldStep_within .trip _).held rfl, rfl⟩

/-- A launch of station scope: its record, the station trip, and the entry in N1. -/
theorem launchTrip_station (ev : Ev) (code : Nat) (w : Option (Nat × Nat)) (u : Option Nat) :
    launchTrip ev { code := code, scope := none, watch := w, unit := u } =
      (tripStation (ev.map fun s => s.record { code := code, scope := none, watch := w, unit := u })).map
        fun s => s.joinNotice 0 (.trip code) code := rfl

/-- What an entry leaves of the channels rests on them and on the clock alone. -/
theorem joinNotice_wnu_congr {s t : State} (wnu : t.wnu = s.wnu) (mu : t.mu = s.mu) (n : Nat) (src : NoticeSource)
    (code : Nat) : (t.joinNotice n src code).wnu = (s.joinNotice n src code).wnu := by
  simp only [State.joinNotice, State.updNotice, State.clock, wnu, mu]

/-- Settles O51: the ESD input by its level and the phase, the end of an event by what is owed, a launch of cavern scope
by its one cavern, and a station trip by its command and the held step that follows it. -/
theorem stationTripStopsTheStation : Obligations.StationTripStopsTheStation := by
  refine ⟨fun s => ⟨fun b same => same ▸ exec_esd_same, exec_esd_asserted, exec_esd_released, exec_esd_recorded⟩,
    fun ev => ⟨sortLaunches_perm _, (sortLaunches_sorted _).imp Launch.before_iff.1, fplStep_restep _ _,
      finish_of_launches, finish_of_restep, finish_of_quiet⟩,
    fun ev code c w u => ?cavern, fun c ev => rfl, fun ev code w v => ?station⟩
  case cavern =>
    intro l y r
    have told := tripCavern_tripped false c (ev.map fun s => s.record l)
    have launched : y = (tripCavern false c (ev.map fun s => s.record l)).map fun s =>
        s.joinNotice 0 (.trip code) code := launchTrip_cavern ev code c w u
    rw [launched]
    refine ⟨told.launches, told.raised, ?state, told.others, told.injMerit, told.wdMerit, fun absent => ?absent,
      fun d present inTable => ?present⟩
    case state =>
      rw [Ev.map_s, told.state]
      rfl
    case absent =>
      rw [tripCavern_absent (ev := ev.map fun s => s.record l) absent]
      exact ⟨rfl, rfl⟩
    case present =>
      rw [tripCavern_present (ev := ev.map fun s => s.record l) present]
      exact ⟨changeCavern_cav present inTable, changeCavern_restep_of_state⟩
  case station =>
    intro l x
    have launched : launchTrip ev l = (tripStation (ev.map fun s => s.record l)).map fun s =>
        s.joinNotice 0 (.trip code) code := launchTrip_station ev code w v
    have left : x = (launchTrip ev l).s := rfl
    rw [left, launched]
    obtain ⟨v, commanded, taken⟩ := tripStation_taken (ev.map fun s => s.record l)
    obtain ⟨launches, restep, tripped, wnu, slu⟩ := tripStation_ends (ev.map fun s => s.record l)
    obtain ⟨held, setpoint⟩ := tripStation_held (ev.map fun s => s.record l)
    have frame := tripStation_frame (G := False) (B := False) (ev.map fun s => s.record l)
    generalize tripStation (ev.map fun s => s.record l) = z at *
    have placed : z.s.tru.current = some
        { code := code, scope := none, clock := ev.s.mu.clock, watch := w, acknowledged := false, secondFailures := []
          snapshot := ev.s.snapshot } := by
      rw [tripped_tru commanded taken]
      exact Tru.place_current _ _
    refine ⟨joinNotice_wnu_congr wnu (frame.mu id) _ _ _, slu, launches, restep, tripped, held, setpoint,
      ⟨_, placed, rfl, rfl, rfl, rfl, rfl, rfl, rfl⟩, fun c => tripped_not_open commanded taken,
      fun ⟨_, _, _, six, _⟩ =>
        ⟨fun u => tripped_counts commanded taken six u, fun q => tripped_duty commanded taken six q⟩,
      frame.mu id, frame.dtc id, frame.acb id, frame.su id, frame.pst⟩

end Sys2Proof.Machine
end

section
/-! PROOFS. The ranges of a written group: the fields out of range, those without meaning, and the lowest field of a
list (9.1, R165, R186). -/

namespace Sys2Proof.Machine

/-! ### The lowest of a list -/

theorem lowest_eq_min? (l : List Nat) : lowest l = l.min? := by
  cases l with
  | nil => rfl
  | cons x l => exact List.foldl_hom some (g₁ := min) (fun _ _ => rfl)

/-- The lowest of a list that holds just what has a property is the least with that property. -/
theorem isLowest_lowest {p : Nat → Prop} {l : List Nat} (h : ∀ k, k ∈ l ↔ p k) : isLowest p (lowest l) := by
  intro k
  rw [lowest_eq_min?, List.min?_eq_some_iff, h]
  refine and_congr_right fun _ => ⟨fun least j below holds => ?_, fun least j among => ?_⟩
  · exact below.not_ge (least j ((h j).2 holds))
  · exact not_lt.1 fun below => least j below ((h j).1 among)

/-! ### Ranges (9.1) -/

/-- The values a field may take, as intervals. -/
def FieldSpec.intervals (f : FieldSpec) : List (Int × Int) := (f.lo, f.hi) :: f.extra.map fun x => (x, x)

theorem Group.ranges_eq (g : Group) : g.ranges = g.specs.map FieldSpec.intervals := by cases g <;> rfl

theorem FieldSpec.allows_eq_false_iff {f : FieldSpec} {v : Int} :
    f.allows v = false ↔ ∀ p ∈ f.intervals, ¬(p.1 ≤ v ∧ v ≤ p.2) := by
  have single (x : Int) : x ≤ v ∧ v ≤ x ↔ x = v := ⟨fun h => le_antisymm h.1 h.2, fun h => ⟨h.le, h.ge⟩⟩
  simp only [FieldSpec.allows, FieldSpec.intervals, Bool.or_eq_false_iff, List.forall_mem_cons, List.forall_mem_map,
    single, List.contains_eq_mem, decide_eq_false_iff_not, ← Bool.decide_and, ← List.forall_mem_ne, eq_comm (a := v)]

section
variable (v : List Int) (k : Nat)

/-! ### Fields without meaning (R186) -/

theorem idle_site_iff : Group.idle .site v k = true ↔ Group.unjudged .site v k := by
  simp only [Group.idle, Group.unjudged, Bool.or_eq_true, Bool.and_eq_true, beq_iff_eq, decide_eq_true_eq,
    RunDir.code]
  refine or_congr_right ⟨fun ⟨⟨inside, place⟩, unused⟩ => ?_, fun ⟨i, six, unused, place⟩ => ?_⟩
  · exact ⟨(k - 96) / 4, by omega, unused, by omega⟩
  · obtain rfl : (k - 96) / 4 = i := by omega
    exact ⟨by omega, unused⟩

theorem idle_caverns_iff (inside : 1 ≤ k ∧ k ≤ 104) :
    Group.idle .caverns v k = true ↔ Group.unjudged .caverns v k := by
  simp only [Group.idle, Group.unjudged, cavernOrd, Bool.and_eq_true, bne_iff_ne, beq_iff_eq]
  refine ⟨fun ⟨place, absent⟩ => ⟨(k - 1) / 13, by omega, absent, by omega⟩, fun ⟨c, _, absent, _⟩ => ?_⟩
  obtain rfl : (k - 1) / 13 = c := by omega
  exact ⟨by omega, absent⟩

theorem idle_plant_iff (inside : 1 ≤ k ∧ k ≤ 124) : Group.idle .plant v k = true ↔ Group.unjudged .plant v k := by
  unfold Group.idle Group.unjudged
  simp only [unitOrd, trainOrd]
  split
  case isTrue unit =>
    simp only [Bool.and_eq_true, bne_iff_ne, beq_iff_eq]
    refine ⟨fun ⟨place, absent⟩ => .inl ⟨(k - 1) / 10, by omega, absent, by omega⟩, fun h => ?_⟩
    rcases h with ⟨u, _, absent, _⟩ | ⟨t, _⟩
    · obtain rfl : (k - 1) / 10 = u := by omega
      exact ⟨by omega, absent⟩
    · omega
  case isFalse other =>
    split
    case isTrue train =>
      simp only [Bool.and_eq_true, bne_iff_ne, beq_iff_eq]
      refine ⟨fun ⟨place, absent⟩ => .inr ⟨(k - 61) / 12, by omega, absent, by omega⟩, fun h => ?_⟩
      rcases h with ⟨u, _⟩ | ⟨t, _, absent, _⟩
      · omega
      · obtain rfl : (k - 61) / 12 = t := by omega
        exact ⟨by omega, absent⟩
    case isFalse water =>
      refine ⟨nofun, fun h => ?_⟩
      rcases h with ⟨u, _⟩ | ⟨t, _⟩ <;> omega

theorem Group.idle_iff (g : Group) (inside : 1 ≤ k ∧ k ≤ g.specs.length) : g.idle v k = true ↔ g.unjudged v k := by
  cases g with
  | site => exact idle_site_iff v k
  | caverns => exact idle_caverns_iff v k inside
  | plant => exact idle_plant_iff v k inside

/-- The ordinals listed as out of range are those of fields that have a meaning and are outside their ranges. -/
theorem mem_badRanges (g : Group) : k ∈ badRanges g v ↔ g.outside v k := by
  have listed : k ∈ badRanges g v ↔
      ∃ i f, g.specs[i]? = some f ∧ i + 1 = k ∧ g.idle v k = false ∧ f.allows (num v k) = false := by
    simp only [badRanges, List.mem_filterMap, List.mem_mapIdx, List.getElem?_eq_some_iff]
    refine ⟨?_, ?_⟩
    · rintro ⟨_, ⟨i, inside, rfl⟩, kept⟩
      simp only [Option.ite_none_left_eq_some, Bool.or_eq_true, not_or, Bool.not_eq_true, Option.some.injEq] at kept
      obtain ⟨⟨judged, outside⟩, rfl⟩ := kept
      exact ⟨i, _, ⟨inside, rfl⟩, rfl, judged, outside⟩
    · rintro ⟨i, f, ⟨inside, rfl⟩, rfl, judged, outside⟩
      exact ⟨_, ⟨i, inside, rfl⟩, by simp [judged, outside]⟩
  rw [listed, Group.outside, Group.ranges_eq]
  refine ⟨fun ⟨i, f, field, place, judged, outside⟩ => ?_, fun ⟨positive, judged, l, field, outside⟩ => ?_⟩
  · subst place
    obtain ⟨inside, -⟩ := List.getElem?_eq_some_iff.1 field
    refine ⟨by omega, ?_, f.intervals, by simp [field], FieldSpec.allows_eq_false_iff.1 outside⟩
    rw [← Group.idle_iff v _ g ⟨by omega, inside⟩, judged]
    exact Bool.false_ne_true
  · rw [List.getElem?_map, Option.map_eq_some_iff] at field
    obtain ⟨f, field, rfl⟩ := field
    obtain ⟨inside, -⟩ := List.getElem?_eq_some_iff.1 field
    rw [← Group.idle_iff v _ g ⟨positive, by omega⟩, Bool.not_eq_true] at judged
    exact ⟨k - 1, f, field, by omega, judged, FieldSpec.allows_eq_false_iff.2 outside⟩

end

end Sys2Proof.Machine
end

section
/-! PROOFS. The rules between the fields of a written SITE group, and those against the other groups (R166). -/

namespace Sys2Proof.Machine

/-! ### Tables that have to ascend -/

theorem mem_notAscending {k o : Nat} {l : List (Int × Int)} : k ∈ notAscending o l ↔
    ∃ i p q, l[i]? = some p ∧ l[i + 1]? = some q ∧ k = o + 2 + 2 * i ∧ q.1 ≤ p.1 := by
  induction o, l using notAscending.induct with
  | case1 o p q rest ih =>
    rw [notAscending, List.mem_append, ih]
    constructor
    · rintro (here | ⟨i, x, y, hx, hy, place, falls⟩)
      · obtain ⟨falls, place⟩ : q.1 ≤ p.1 ∧ k = o + 2 := by simpa using here
        exact ⟨0, p, q, rfl, rfl, place, falls⟩
      · exact ⟨i + 1, x, y, hx, hy, by omega, falls⟩
    · rintro ⟨i | i, x, y, hx, hy, place, falls⟩
      · obtain ⟨rfl, rfl⟩ : p = x ∧ q = y := by simpa using And.intro hx hy
        exact .inl (by simp [falls, place])
      · exact .inr ⟨i, x, y, hx, hy, by omega, falls⟩
  | case2 l o short =>
    have none : notAscending o l = [] := by
      unfold notAscending
      split
      · exact absurd rfl (short _ _ _)
      · rfl
    rw [none]
    refine ⟨nofun, fun ⟨i, p, q, hp, hq, _⟩ => ?_⟩
    match l, short with
    | [], _ => cases hp
    | [_], _ => cases hq
    | a :: b :: rest, short => exact absurd rfl (short a b rest)

/-- A table of points falls at the ordinals whose value is not above that of the point before. -/
theorem mem_notAscending_points {k o n : Nat} {v : List Int} : k ∈ notAscending o (points v o n) ↔
    ∃ i, i + 1 < n ∧ k = o + 2 + 2 * i ∧ num v k ≤ num v (k - 2) := by
  have point (i : Nat) (p : Int × Int) : (points v o n)[i]? = some p ↔
      i < n ∧ (num v (o + 2 * i), num v (o + 2 * i + 1)) = p := by
    rw [points, List.getElem?_map]
    by_cases inside : i < n <;> simp [inside]
  have value (i : Nat) : (num v (o + 2 * (i + 1)) ≤ num v (o + 2 * i)) =
      (num v (o + 2 + 2 * i) ≤ num v (o + 2 + 2 * i - 2)) := by
    rw [show o + 2 * (i + 1) = o + 2 + 2 * i by omega, show o + 2 + 2 * i - 2 = o + 2 * i by omega]
  rw [mem_notAscending]
  constructor
  · rintro ⟨i, p, q, hp, hq, rfl, falls⟩
    obtain ⟨-, rfl⟩ := (point _ _).1 hp
    obtain ⟨inside, rfl⟩ := (point _ _).1 hq
    exact ⟨i, inside, rfl, (value i).mp falls⟩
  · rintro ⟨i, inside, rfl, falls⟩
    exact ⟨i, _, _, (point _ _).2 ⟨by omega, rfl⟩, (point _ _).2 ⟨inside, rfl⟩, rfl, (value i).mpr falls⟩

/-! ### The channels that groups name -/

theorem mem_cavernChannels {ch : Nat} {l : Option (List CavernDef)} : ch ∈ cavernChannels l ↔
    ∃ x, l = some x ∧ ∃ d, d ∈ x ∧ d.present = true ∧ d.channel = some ch := by
  cases l <;> simp [cavernChannels]

theorem mem_dewChannels {ch : Nat} {p : Option Plant} : ch ∈ dewChannels p ↔
    ∃ x, p = some x ∧ ∃ d, d ∈ x.trains ∧ d.present = true ∧ d.dewChannel = ch := by
  cases p <;> simp [dewChannels]

theorem mem_inletChannels {ch : Nat} {p : Option Plant} : ch ∈ inletChannels p ↔
    ∃ x, p = some x ∧ ∃ d, d ∈ x.trains ∧ d.present = true ∧ d.inletChannel = ch := by
  cases p <;> simp [inletChannels]

section
variable {s : State} {ch : Nat} {r : Role}

theorem liveNames_caverns_iff : s.liveNames .caverns ch r ↔ r = .pressure ∧ ch ∈ cavernChannels s.pst.caverns.live := by
  rw [State.liveNames, mem_cavernChannels]

theorem liveNames_plant_iff : s.liveNames .plant ch r ↔ (r = .dewpoint ∧ ch ∈ dewChannels s.pst.plant.live) ∨
    (r = .temperature ∧ ch ∈ inletChannels s.pst.plant.live) := by
  rw [State.liveNames, mem_dewChannels, mem_inletChannels]
  grind

end

/-! ### SITE's own rules -/

section
variable (s : State) (v : List Int)

/-- Zero and span fields that break a rule: a span equal to its zero, a figure of a PRESSURE channel out of range. -/
def badSpans : List Nat := (List.range 16).flatMap fun i =>
  let z := num v (33 + 4 * i)
  let sp := num v (34 + 4 * i)
  let out (x : Int) : Bool := num v (32 + 4 * i) == 0 && !(0 ≤ x && x ≤ 25000)
  (if out z then [33 + 4 * i] else []) ++ (if sp == z || out sp then [34 + 4 * i] else [])

/-- Runs that are bound to a train and are not WITHDRAW. -/
def badBindings : List Nat := (List.range 6).filterMap fun i =>
  if num v (98 + 4 * i) ≠ 255 ∧ num v (96 + 4 * i) ≠ 1 then some (98 + 4 * i) else none

/-- The header field, where it names no PRESSURE channel of the write or one that another group names. -/
def badHeader : List Nat := match (siteOf v).header with
  | none => []
  | some h =>
    if ((siteOf v).channels[h]?).any (fun d => d.role == .pressure) &&
        !(cavernChannels s.pst.caverns.live ++ dewChannels s.pst.plant.live ++
          inletChannels s.pst.plant.live).contains h then [] else [29]

/-- The start hour, where it is another under a LOADED book. -/
def badHour : List Nat := if s.acb.loaded && (siteOf v).startHour != s.startHour then [3] else []

theorem badSite_eq : badSite s v = notAscending 13 (points v 13 4) ++ notAscending 21 (points v 21 4) ++ badSpans v ++
    badBindings v ++ badHeader s v ++ badHour s v ++ badRoles (siteOf v) s.pst.caverns.live s.pst.plant.live := rfl

variable {s : State} {v : List Int} {k : Nat}

theorem mem_badSpans : k ∈ badSpans v ↔
    (∃ i, i < 16 ∧ k = 34 + 4 * i ∧ num v k = num v (33 + 4 * i)) ∨
    (∃ i, i < 16 ∧ (k = 33 + 4 * i ∨ k = 34 + 4 * i) ∧ num v (32 + 4 * i) = 0 ∧ ¬(0 ≤ num v k ∧ num v k ≤ 25000)) := by
  simp only [badSpans, List.mem_flatMap, List.mem_range, List.mem_append, List.mem_ite_nil_right, List.mem_singleton,
    Bool.or_eq_true, Bool.and_eq_true, beq_iff_eq, Bool.not_eq_true', ← Bool.decide_and, decide_eq_false_iff_not]
  constructor
  · rintro ⟨i, inside, ⟨⟨role, out⟩, rfl⟩ | ⟨same | ⟨role, out⟩, rfl⟩⟩
    · exact .inr ⟨i, inside, .inl rfl, role, out⟩
    · exact .inl ⟨i, inside, rfl, same⟩
    · exact .inr ⟨i, inside, .inr rfl, role, out⟩
  · rintro (⟨i, inside, rfl, same⟩ | ⟨i, inside, rfl | rfl, role, out⟩)
    · exact ⟨i, inside, .inr ⟨.inl same, rfl⟩⟩
    · exact ⟨i, inside, .inl ⟨⟨role, out⟩, rfl⟩⟩
    · exact ⟨i, inside, .inr ⟨.inr ⟨role, out⟩, rfl⟩⟩

theorem mem_badBindings : k ∈ badBindings v ↔
    ∃ i, i < 6 ∧ k = 98 + 4 * i ∧ num v k ≠ 255 ∧ num v (96 + 4 * i) ≠ 1 := by
  simp only [badBindings, List.mem_filterMap, List.mem_range, Option.ite_none_right_eq_some, Option.some.injEq]
  constructor
  · rintro ⟨i, inside, ⟨bound, other⟩, rfl⟩
    exact ⟨i, inside, rfl, bound, other⟩
  · rintro ⟨i, inside, rfl, bound, other⟩
    exact ⟨i, inside, ⟨bound, other⟩, rfl⟩

theorem roleOfCode_eq_iff {n : Int} {r : Role} (h : r ≠ .generic) : roleOfCode n = r ↔ n = r.code := by
  unfold roleOfCode
  split <;> cases r <;> simp_all [Role.code]

/-- A channel of a written SITE group has a role where the field says so. -/
theorem siteOf_role {ch : Nat} {r : Role} (h : r ≠ .generic) :
    ((siteOf v).channels[ch]?).any (fun d => d.role == r) = true ↔ ch < 16 ∧ num v (32 + 4 * ch) = r.code := by
  rw [← roleOfCode_eq_iff h, siteOf, List.getElem?_map]
  by_cases inside : ch < 16 <;> simp [inside]

theorem idx_eq_some_iff {ch : Nat} : idx v k = some ch ↔ num v k ≠ 255 ∧ nat v k = ch := by
  simp [idx]

theorem mem_badHour : k ∈ badHour s v ↔ k = 3 ∧ s.acb.loaded = true ∧ nat v 3 ≠ s.startHour := by
  simp only [badHour, List.mem_ite_nil_right, Bool.and_eq_true, bne_iff_ne, List.mem_singleton]
  exact and_comm

/-- A channel that a group other than SITE names, with the role it needs there. -/
theorem namedElsewhere_iff {ch : Nat} {p : Role → Prop} : (∃ h r, h ≠ Group.site ∧ s.liveNames h ch r ∧ p r) ↔
    (ch ∈ cavernChannels s.pst.caverns.live ∧ p .pressure) ∨ (ch ∈ dewChannels s.pst.plant.live ∧ p .dewpoint) ∨
      (ch ∈ inletChannels s.pst.plant.live ∧ p .temperature) := by
  constructor
  · rintro ⟨_ | _ | _, r, other, live, holds⟩
    · exact absurd rfl other
    · obtain ⟨rfl, named⟩ := liveNames_caverns_iff.1 live
      exact .inl ⟨named, holds⟩
    · rcases liveNames_plant_iff.1 live with ⟨rfl, named⟩ | ⟨rfl, named⟩
      · exact .inr (.inl ⟨named, holds⟩)
      · exact .inr (.inr ⟨named, holds⟩)
  · rintro (⟨named, holds⟩ | ⟨named, holds⟩ | ⟨named, holds⟩)
    · exact ⟨.caverns, _, nofun, liveNames_caverns_iff.2 ⟨rfl, named⟩, holds⟩
    · exact ⟨.plant, _, nofun, liveNames_plant_iff.2 (.inl ⟨rfl, named⟩), holds⟩
    · exact ⟨.plant, _, nofun, liveNames_plant_iff.2 (.inr ⟨rfl, named⟩), holds⟩

/-- The header channel of a write is named twice where another group names it. -/
theorem namedTwice_site_iff {ch : Nat} (named : Group.names .site v k ch) : s.namedTwice .site v k ch ↔
    ch ∈ cavernChannels s.pst.caverns.live ∨ ch ∈ dewChannels s.pst.plant.live ∨
      ch ∈ inletChannels s.pst.plant.live := by
  have first : ¬∃ j, j < k ∧ Group.names .site v j ch := by
    rintro ⟨j, before, at29, -⟩
    exact before.ne (at29.trans named.1.symm)
  rw [State.namedTwice, or_iff_left first]
  simpa only [and_true] using namedElsewhere_iff (s := s) (ch := ch) (p := fun _ => True)

theorem mem_badHeader : k ∈ badHeader s v ↔ ∃ ch, Group.names .site v k ch ∧
    (16 ≤ ch ∨ num v (32 + 4 * ch) ≠ 0 ∨ s.namedTwice .site v k ch) := by
  have header : (siteOf v).header = idx v 29 := rfl
  cases named : idx v 29 with
  | none =>
    have none : num v 29 = 255 := by simpa [idx] using named
    simp [badHeader, header, named, Group.names, none]
  | some ch =>
    obtain ⟨given, rfl⟩ := idx_eq_some_iff.1 named
    have role : ((siteOf v).channels[nat v 29]?).any (fun d => d.role == .pressure) = true ↔
        nat v 29 < 16 ∧ num v (32 + 4 * nat v 29) = 0 := siteOf_role (r := .pressure) nofun
    have listed : k ∈ badHeader s v ↔ k = 29 ∧ (16 ≤ nat v 29 ∨ num v (32 + 4 * nat v 29) ≠ 0 ∨
        nat v 29 ∈ cavernChannels s.pst.caverns.live ∨ nat v 29 ∈ dewChannels s.pst.plant.live ∨
          nat v 29 ∈ inletChannels s.pst.plant.live) := by
      simp only [badHeader, header, named, List.mem_ite_nil_left, List.mem_singleton, Bool.and_eq_true, role,
        Bool.not_eq_true', List.contains_eq_mem, decide_eq_false_iff_not, List.mem_append, or_assoc, not_and_or,
        not_not, not_lt]
      exact and_comm
    rw [listed]
    constructor
    · rintro ⟨rfl, offends⟩
      have here : Group.names .site v 29 (nat v 29) := ⟨rfl, given, rfl⟩
      exact ⟨_, here, by rwa [namedTwice_site_iff here]⟩
    · rintro ⟨ch, here, offends⟩
      rw [namedTwice_site_iff here] at offends
      obtain ⟨rfl, -, rfl⟩ := here
      exact ⟨rfl, offends⟩

theorem mem_badRoles : k ∈ badRoles (siteOf v) s.pst.caverns.live s.pst.plant.live ↔
    ∃ ch h r, ch < 16 ∧ k = 32 + 4 * ch ∧ h ≠ Group.site ∧ s.liveNames h ch r ∧ num v k ≠ r.code := by
  have role {ch : Nat} (inside : ch < 16) (r : Role) (h : r ≠ .generic) :
      ((siteOf v).channels[ch]?).any (fun d => d.role == r) = true ↔ num v (32 + 4 * ch) = r.code :=
    (siteOf_role h).trans (and_iff_right inside)
  have offends (ch : Nat) := namedElsewhere_iff (s := s) (ch := ch)
    (p := fun r => num v (32 + 4 * ch) ≠ r.code)
  simp only [badRoles, List.mem_filterMap, List.mem_range, Option.ite_none_left_eq_some, Option.some.injEq,
    Bool.and_eq_true, Bool.or_eq_true, Bool.not_eq_true', List.contains_eq_mem, decide_eq_false_iff_not, not_and_or,
    not_or, not_not, or_assoc]
  constructor
  · rintro ⟨ch, inside, named, rfl⟩
    rw [role inside .pressure nofun, role inside .dewpoint nofun, role inside .temperature nofun] at named
    obtain ⟨h, r, other, live, differs⟩ := (offends ch).2 named
    exact ⟨ch, h, r, inside, rfl, other, live, differs⟩
  · rintro ⟨ch, h, r, inside, rfl, other, live, differs⟩
    refine ⟨ch, inside, ?_, rfl⟩
    rw [role inside .pressure nofun, role inside .dewpoint nofun, role inside .temperature nofun]
    exact (offends ch).1 ⟨h, r, other, live, differs⟩

/-- Both ratchet tables of a SITE group ascend, or a figure that does not is named. -/
theorem mem_ratchets : (k ∈ notAscending 13 (points v 13 4) ∨ k ∈ notAscending 21 (points v 21 4)) ↔
    k ∈ [15, 17, 19, 23, 25, 27] ∧ num v k ≤ num v (k - 2) := by
  rw [mem_notAscending_points, mem_notAscending_points]
  simp only [List.mem_cons, List.not_mem_nil, or_false]
  constructor
  · rintro (⟨i, inside, place, falls⟩ | ⟨i, inside, place, falls⟩) <;> exact ⟨by omega, falls⟩
  · rintro ⟨place, falls⟩
    by_cases first : k ≤ 19
    · exact .inl ⟨(k - 15) / 2, by omega, by omega, falls⟩
    · exact .inr ⟨(k - 23) / 2, by omega, by omega, falls⟩

/-- The ordinals listed as breaking a rule of a SITE group are those that break one. -/
theorem mem_badSite : k ∈ badSite s v ↔ s.breaksRule .site v k := by
  simp only [badSite_eq, State.breaksRule, List.mem_append, mem_ratchets, mem_badSpans, mem_badBindings,
    mem_badHeader, mem_badHour, mem_badRoles, or_assoc]

end

end Sys2Proof.Machine
end

section
/-! PROOFS. The rules of a written CAVERNS group and of a written PLANT group (R166), and the lowest field that offends
(R165). -/

namespace Sys2Proof.Machine

section
variable {s : State} {v : List Int} {k ch : Nat}

/-- A channel that a VALID group other than the one written names. -/
theorem namedByOther_iff {g : Group} : (∃ h r, h ≠ g ∧ s.liveNames h ch r) ↔
    (g ≠ .site ∧ s.headerChannel = some ch) ∨ (g ≠ .caverns ∧ ch ∈ cavernChannels s.pst.caverns.live) ∨
      (g ≠ .plant ∧ (ch ∈ dewChannels s.pst.plant.live ∨ ch ∈ inletChannels s.pst.plant.live)) := by
  constructor
  · rintro ⟨_ | _ | _, r, other, live⟩
    · exact .inl ⟨other.symm, live.1⟩
    · exact .inr (.inl ⟨other.symm, (liveNames_caverns_iff.1 live).2⟩)
    · exact .inr (.inr ⟨other.symm, (liveNames_plant_iff.1 live).imp And.right And.right⟩)
  · rintro (⟨other, named⟩ | ⟨other, named⟩ | ⟨other, named | named⟩)
    · exact ⟨.site, .pressure, other.symm, named, rfl⟩
    · exact ⟨.caverns, _, other.symm, liveNames_caverns_iff.2 ⟨rfl, named⟩⟩
    · exact ⟨.plant, _, other.symm, liveNames_plant_iff.2 (.inl ⟨rfl, named⟩)⟩
    · exact ⟨.plant, _, other.symm, liveNames_plant_iff.2 (.inr ⟨rfl, named⟩)⟩

/-- Where SITE is INVALID, or VALID with the channel in a role, the channel has no other role. -/
theorem role_all_eq_false_iff {r : Role} : (s.role ch).all (· == r) = false ↔ s.otherRole ch r := by
  rw [State.otherRole]
  cases s.role ch <;> simp

/-! ### CAVERNS -/

theorem cavernsOf_getElem? {c : Nat} (h8 : c < 8) : (cavernsOf v)[c]? = some (cavernOf v (1 + 13 * c)) := by
  simp [cavernsOf, h8, cavernOrd]

theorem cavernsOf_getD {c : Nat} (h8 : c < 8) : (cavernsOf v).getD c {} = cavernOf v (1 + 13 * c) := by
  rw [List.getD_eq_getElem?_getD, cavernsOf_getElem? h8, Option.getD_some]

theorem cavernOf_present : (cavernOf v k).present = true ↔ num v k ≠ 0 := by
  unfold cavernOf
  split <;> simp_all

/-- A present cavern of a written group names the channel of its field, unless it is none. -/
theorem cavernOf_channel (present : num v k ≠ 0) : (cavernOf v k).channel = idx v (k + 1) := by
  rw [cavernOf, if_neg present]

theorem cavernOf_limits (present : num v k ≠ 0) :
    (cavernOf v k).pMin = nat v (k + 2) ∧ (cavernOf v k).pMax = nat v (k + 3) := by
  rw [cavernOf, if_neg present]
  exact ⟨rfl, rfl⟩

/-- The channel that cavern `c` of a written group names. -/
theorem names_cavern_iff {c : Nat} (h8 : c < 8) : Group.names .caverns v (2 + 13 * c) ch ↔
    (cavernOf v (1 + 13 * c)).present = true ∧ (cavernOf v (1 + 13 * c)).channel = some ch := by
  have own : Group.names .caverns v (2 + 13 * c) ch ↔
      num v (1 + 13 * c) ≠ 0 ∧ num v (2 + 13 * c) ≠ 255 ∧ nat v (2 + 13 * c) = ch := by
    refine ⟨fun ⟨b, _, place, h⟩ => ?_, fun h => ⟨c, h8, rfl, h⟩⟩
    obtain rfl : b = c := by omega
    exact h
  rw [own, cavernOf_present, ← idx_eq_some_iff]
  refine and_congr_right fun present => ?_
  rw [cavernOf_channel present, show 1 + 13 * c + 1 = 2 + 13 * c by omega]

/-- The caverns before `c` in a written group name the channels of the fields before its own. -/
theorem mem_earlierCaverns {c : Nat} (h8 : c < 8) : ch ∈ cavernChannels (some ((cavernsOf v).take c)) ↔
    ∃ j, j < 2 + 13 * c ∧ Group.names .caverns v j ch := by
  rw [mem_cavernChannels]
  constructor
  · rintro ⟨_, ⟨⟩, d, among, present, channel⟩
    obtain ⟨b, hb, rfl⟩ := List.mem_take_iff_getElem.1 among
    have inside : b < 8 := by omega
    have record : (cavernsOf v)[b]'(by simp [cavernsOf, inside]) = cavernOf v (1 + 13 * b) := by
      simp [cavernsOf, cavernOrd]
    rw [record] at present channel
    exact ⟨2 + 13 * b, by omega, (names_cavern_iff inside).2 ⟨present, channel⟩⟩
  · rintro ⟨j, before, named⟩
    obtain ⟨b, inside, rfl, -⟩ := id named
    obtain ⟨present, channel⟩ := (names_cavern_iff inside).1 named
    refine ⟨_, rfl, _, List.mem_of_getElem? (i := b) ?_, present, channel⟩
    rw [List.getElem?_take_of_lt (by omega), cavernsOf_getElem? inside]

/-- A cavern of a written group breaks a rule on its channel where the channel has another role, or is named twice. -/
theorem cavernChannelOk_eq_false_iff {c : Nat} (h8 : c < 8) : cavernChannelOk s (cavernsOf v) c = false ↔
    ∃ ch, Group.names .caverns v (2 + 13 * c) ch ∧
      (s.otherRole ch .pressure ∨ s.namedTwice .caverns v (2 + 13 * c) ch) := by
  have twice (ch : Nat) : s.namedTwice .caverns v (2 + 13 * c) ch ↔ s.headerChannel = some ch ∨
      (ch ∈ dewChannels s.pst.plant.live ∨ ch ∈ inletChannels s.pst.plant.live) ∨
        ch ∈ cavernChannels (some ((cavernsOf v).take c)) := by
    rw [State.namedTwice, namedByOther_iff, mem_earlierCaverns h8]
    simp [or_assoc]
  have given (ch : Nat) : (((cavernsOf v)[c]?).bind fun d => if d.present then d.channel else none) = some ch ↔
      Group.names .caverns v (2 + 13 * c) ch := by
    rw [names_cavern_iff h8, cavernsOf_getElem? h8, Option.bind_some, Option.ite_none_right_eq_some]
  unfold cavernChannelOk
  generalize (((cavernsOf v)[c]?).bind fun d => if d.present then d.channel else none) = channel at given ⊢
  cases channel with
  | none => exact ⟨nofun, fun ⟨ch, named, _⟩ => nomatch (given ch).2 named⟩
  | some x =>
    have only (ch : Nat) : Group.names .caverns v (2 + 13 * c) ch ↔ x = ch := by rw [← given, Option.some.injEq]
    simp only [only, exists_eq_left', twice, Bool.and_eq_false_iff, role_all_eq_false_iff, bne_eq_false_iff_eq,
      Bool.not_eq_false', List.contains_eq_mem, decide_eq_true_eq, List.mem_append, or_assoc]

/-- The ordinals listed as breaking a rule of a CAVERNS group are those that break one. -/
theorem mem_badCaverns : k ∈ badCaverns s v ↔ s.breaksRule .caverns v k := by
  have listed : k ∈ badCaverns s v ↔ ∃ c, c < 8 ∧
      ((cavernChannelOk s (cavernsOf v) c = false ∧ k = 2 + 13 * c) ∨
        (num v (1 + 13 * c) ≠ 0 ∧ nat v (4 + 13 * c) ≤ nat v (3 + 13 * c)) ∧ k = 4 + 13 * c) := by
    simp only [badCaverns, List.mem_flatMap, List.mem_range, List.mem_append, List.mem_ite_nil_left,
      List.mem_ite_nil_right, List.mem_singleton, Bool.not_eq_true]
    refine exists_congr fun c => and_congr_right fun h8 => or_congr ?_ ?_
    · rw [show cavernOrd c + 1 = 2 + 13 * c by rw [cavernOrd]; omega]
    · rw [cavernsOf_getD h8, show cavernOrd c + 3 = 4 + 13 * c by rw [cavernOrd]; omega, Bool.and_eq_true,
        cavernOf_present, decide_eq_true_eq]
      refine and_congr_left fun _ => and_congr_right fun present => ?_
      obtain ⟨pMin, pMax⟩ := cavernOf_limits present
      rw [pMin, pMax, show 1 + 13 * c + 2 = 3 + 13 * c by omega, show 1 + 13 * c + 3 = 4 + 13 * c by omega]
  rw [listed, State.breaksRule]
  constructor
  · rintro ⟨c, h8, ⟨broken, rfl⟩ | ⟨⟨present, falls⟩, rfl⟩⟩
    · exact .inr ((cavernChannelOk_eq_false_iff h8).1 broken)
    · exact .inl ⟨c, h8, rfl, present, by rwa [show 4 + 13 * c - 1 = 3 + 13 * c by omega]⟩
  · rintro (⟨c, h8, rfl, present, falls⟩ | ⟨ch, named, broken⟩)
    · exact ⟨c, h8, .inr ⟨⟨present, by rwa [show 4 + 13 * c - 1 = 3 + 13 * c by omega] at falls⟩, rfl⟩⟩
    · obtain ⟨c, h8, rfl, -⟩ := id named
      exact ⟨c, h8, .inl ⟨(cavernChannelOk_eq_false_iff h8).2 ⟨ch, named, broken⟩, rfl⟩⟩

/-! ### PLANT -/

theorem plantOf_unit {u : Nat} (h6 : u < 6) : (plantOf v).units.getD u {} = unitOf v (1 + 10 * u) := by
  simp [plantOf, h6, unitOrd]

theorem plantOf_train {t : Nat} (h4 : t < 4) : (plantOf v).trains.getD t {} = trainOf v (61 + 12 * t) := by
  simp [plantOf, h4, trainOrd]

theorem unitOf_present : (unitOf v k).present = true ↔ num v k ≠ 0 := by
  unfold unitOf
  split <;> simp_all

theorem trainOf_present : (trainOf v k).present = true ↔ num v k ≠ 0 := by
  unfold trainOf
  split <;> simp_all

theorem unitOf_budget (present : num v k ≠ 0) : (unitOf v k).budget = nat v (k + 3) := by
  rw [unitOf, if_neg present]

section
variable {t : Nat}

theorem trainOf_channels (present : num v (61 + 12 * t) ≠ 0) : (trainOf v (61 + 12 * t)).dewChannel =
    nat v (67 + 12 * t) ∧ (trainOf v (61 + 12 * t)).inletChannel = nat v (71 + 12 * t) := by
  rw [trainOf, if_neg present, show 67 + 12 * t = 61 + 12 * t + 6 by omega,
    show 71 + 12 * t = 61 + 12 * t + 10 by omega]
  exact ⟨rfl, rfl⟩

theorem names_train_iff (h4 : t < 4) (place : k = 67 + 12 * t ∨ k = 71 + 12 * t) :
    Group.names .plant v k ch ↔ num v (61 + 12 * t) ≠ 0 ∧ nat v k = ch := by
  refine ⟨fun ⟨n, _, at', named⟩ => ?_, fun named => ⟨t, h4, place, named⟩⟩
  obtain rfl : n = t := by omega
  exact named

theorem names_dew_iff (h4 : t < 4) : Group.names .plant v (67 + 12 * t) ch ↔
    (trainOf v (61 + 12 * t)).present = true ∧ (trainOf v (61 + 12 * t)).dewChannel = ch := by
  rw [names_train_iff h4 (.inl rfl), trainOf_present]
  exact and_congr_right fun present => by rw [(trainOf_channels present).1]

theorem names_inlet_iff (h4 : t < 4) : Group.names .plant v (71 + 12 * t) ch ↔
    (trainOf v (61 + 12 * t)).present = true ∧ (trainOf v (61 + 12 * t)).inletChannel = ch := by
  rw [names_train_iff h4 (.inr rfl), trainOf_present]
  exact and_congr_right fun present => by rw [(trainOf_channels present).2]

/-- The trains of a written group before train `t`. -/
def earlierTrains (v : List Int) (t : Nat) : Option Plant :=
  some { plantOf v with trains := (plantOf v).trains.take t }

theorem mem_earlierTrains (h4 : t < 4) {p : TrainDef → Prop} :
    (∃ x, earlierTrains v t = some x ∧ ∃ d, d ∈ x.trains ∧ p d) ↔ ∃ n, n < t ∧ p (trainOf v (61 + 12 * n)) := by
  have record {n : Nat} (inside : n < 4) : (plantOf v).trains[n]? = some (trainOf v (61 + 12 * n)) := by
    simp [plantOf, inside, trainOrd]
  constructor
  · rintro ⟨_, ⟨⟩, d, among, holds⟩
    obtain ⟨n, hn, rfl⟩ := List.mem_take_iff_getElem.1 among
    have here := record (show n < 4 by omega)
    rw [List.getElem?_eq_getElem (by omega), Option.some.injEq] at here
    rw [here] at holds
    exact ⟨n, by omega, holds⟩
  · rintro ⟨n, before, holds⟩
    refine ⟨_, rfl, _, List.mem_of_getElem? (i := n) ?_, holds⟩
    rw [List.getElem?_take_of_lt before, record (by omega)]

/-- The trains before `t` in a written group name the channels of the fields before its own. -/
theorem mem_earlierChannels (h4 : t < 4) :
    (ch ∈ dewChannels (earlierTrains v t) ∨ ch ∈ inletChannels (earlierTrains v t)) ↔
      ∃ j, j < 61 + 12 * t ∧ Group.names .plant v j ch := by
  rw [mem_dewChannels, mem_inletChannels, mem_earlierTrains h4, mem_earlierTrains h4]
  constructor
  · rintro (⟨n, before, named⟩ | ⟨n, before, named⟩)
    · exact ⟨_, by omega, (names_dew_iff (by omega)).2 named⟩
    · exact ⟨_, by omega, (names_inlet_iff (by omega)).2 named⟩
  · rintro ⟨j, before, named⟩
    obtain ⟨n, inside, rfl | rfl, -⟩ := id named
    · exact .inl ⟨n, by omega, (names_dew_iff inside).1 named⟩
    · exact .inr ⟨n, by omega, (names_inlet_iff inside).1 named⟩

/-- A channel of a train of a written group is named twice by another group, or by an earlier field. -/
theorem namedTwice_plant_iff : s.namedTwice .plant v k ch ↔ s.headerChannel = some ch ∨
    ch ∈ cavernChannels s.pst.caverns.live ∨ ∃ j, j < k ∧ Group.names .plant v j ch := by
  rw [State.namedTwice, namedByOther_iff]
  simp [or_assoc]

/-- What the model judges of a train's channel. -/
theorem trainChannelOk_eq_false_iff {r : Role} {inlet : Bool} :
    trainChannelOk s (plantOf v) t ch r inlet = false ↔ ch = 255 ∨ s.otherRole ch r ∨ s.headerChannel = some ch ∨
      ch ∈ cavernChannels s.pst.caverns.live ∨
      (ch ∈ dewChannels (earlierTrains v t) ∨ ch ∈ inletChannels (earlierTrains v t)) ∨
      (inlet = true ∧ ((plantOf v).trains.getD t {}).dewChannel = ch) := by
  have earlier : (some { plantOf v with trains := (plantOf v).trains.take t } : Option Plant) = earlierTrains v t := rfl
  simp only [trainChannelOk, earlier, Bool.and_eq_false_iff, role_all_eq_false_iff, bne_eq_false_iff_eq,
    Bool.not_eq_false', List.contains_eq_mem, decide_eq_true_eq, List.mem_append, Bool.and_eq_true, beq_iff_eq,
    or_assoc]

/-- A field of a written PLANT group that names a channel breaks a rule on it. -/
def State.breaksChannel (s : State) (v : List Int) (k : Nat) (r : Role) : Prop :=
  ∃ ch, Group.names .plant v k ch ∧ (ch = 255 ∨ s.otherRole ch r ∨ s.namedTwice .plant v k ch)

theorem dewChannel_breaks_iff (h4 : t < 4) : (trainOf v (61 + 12 * t)).present = true ∧
    trainChannelOk s (plantOf v) t (trainOf v (61 + 12 * t)).dewChannel .dewpoint false = false ↔
      s.breaksChannel v (67 + 12 * t) .dewpoint := by
  have earlier (ch : Nat) : (∃ j, j < 67 + 12 * t ∧ Group.names .plant v j ch) ↔
      ∃ j, j < 61 + 12 * t ∧ Group.names .plant v j ch := by
    refine exists_congr fun j => and_congr_left fun ⟨n, _, place, _⟩ => ?_
    omega
  simp only [State.breaksChannel, names_dew_iff h4, namedTwice_plant_iff, earlier, and_assoc, exists_and_left,
    exists_eq_left', trainChannelOk_eq_false_iff, mem_earlierChannels h4, Bool.false_eq_true, false_and, or_false]

theorem inletChannel_breaks_iff (h4 : t < 4) : (trainOf v (61 + 12 * t)).present = true ∧
    trainChannelOk s (plantOf v) t (trainOf v (61 + 12 * t)).inletChannel .temperature true = false ↔
      s.breaksChannel v (71 + 12 * t) .temperature := by
  have earlier (ch : Nat) : (∃ j, j < 71 + 12 * t ∧ Group.names .plant v j ch) ↔
      (∃ j, j < 61 + 12 * t ∧ Group.names .plant v j ch) ∨ Group.names .plant v (67 + 12 * t) ch := by
    constructor
    · rintro ⟨j, before, named⟩
      obtain ⟨n, _, place, _⟩ := id named
      rcases (show j < 61 + 12 * t ∨ j = 67 + 12 * t by omega) with before | rfl
      · exact .inl ⟨j, before, named⟩
      · exact .inr named
    · rintro (⟨j, before, named⟩ | named)
      · exact ⟨j, by omega, named⟩
      · exact ⟨_, by omega, named⟩
  simp only [State.breaksChannel, names_inlet_iff h4, namedTwice_plant_iff, earlier, names_dew_iff h4, and_assoc,
    exists_and_left, exists_eq_left', trainChannelOk_eq_false_iff, mem_earlierChannels h4, true_and,
    plantOf_train h4]
  exact and_congr_right fun present => by simp only [present, true_and]

end

theorem mem_waterTable : k ∈ notAscending 109 (points v 109 8) ↔
    k ∈ [111, 113, 115, 117, 119, 121, 123] ∧ num v k ≤ num v (k - 2) := by
  rw [mem_notAscending_points]
  simp only [List.mem_cons, List.not_mem_nil, or_false]
  constructor
  · rintro ⟨i, inside, place, falls⟩
    exact ⟨by omega, falls⟩
  · rintro ⟨place, falls⟩
    exact ⟨(k - 111) / 2, by omega, by omega, falls⟩

/-- Units of a written group whose start budget is below the starts in their history. -/
def badBudgets (s : State) (v : List Int) : List Nat := (List.range 6).flatMap fun u =>
  let d := (plantOf v).units.getD u {}
  if d.present && d.budget < (s.unit u).history.length then [unitOrd u + 3] else []

/-- Trains of a written group that break a rule on a channel. -/
def badTrains (s : State) (v : List Int) : List Nat := (List.range 4).flatMap fun t =>
  let d := (plantOf v).trains.getD t {}
  if d.present then
    (if trainChannelOk s (plantOf v) t d.dewChannel .dewpoint false then [] else [trainOrd t + 6]) ++
      (if trainChannelOk s (plantOf v) t d.inletChannel .temperature true then [] else [trainOrd t + 10])
  else []

theorem badPlant_eq : badPlant s v = badBudgets s v ++ badTrains s v ++ notAscending 109 (points v 109 8) := rfl

theorem mem_badBudgets : k ∈ badBudgets s v ↔
    ∃ u, u < 6 ∧ k = 4 + 10 * u ∧ num v (1 + 10 * u) ≠ 0 ∧ nat v k < (s.unit u).history.length := by
  simp only [badBudgets, List.mem_flatMap, List.mem_range, List.mem_ite_nil_right, List.mem_singleton]
  refine exists_congr fun u => and_congr_right fun h6 => ?_
  rw [plantOf_unit h6, Bool.and_eq_true, unitOf_present, decide_eq_true_eq, and_comm,
    show unitOrd u + 3 = 4 + 10 * u by rw [unitOrd]; omega]
  refine and_congr_right fun place => and_congr_right fun present => ?_
  rw [unitOf_budget present, place, show 1 + 10 * u + 3 = 4 + 10 * u by omega]

theorem mem_badTrains : k ∈ badTrains s v ↔
    ∃ t, t < 4 ∧ ((k = 67 + 12 * t ∧ s.breaksChannel v k .dewpoint) ∨
      (k = 71 + 12 * t ∧ s.breaksChannel v k .temperature)) := by
  simp only [badTrains, List.mem_flatMap, List.mem_range, List.mem_ite_nil_right, List.mem_append,
    List.mem_ite_nil_left, List.mem_singleton, Bool.not_eq_true]
  refine exists_congr fun t => and_congr_right fun h4 => ?_
  rw [plantOf_train h4, and_or_left, ← and_assoc, ← and_assoc, dewChannel_breaks_iff h4, inletChannel_breaks_iff h4,
    show trainOrd t + 6 = 67 + 12 * t by rw [trainOrd]; omega,
    show trainOrd t + 10 = 71 + 12 * t by rw [trainOrd]; omega]
  refine or_congr ?_ ?_ <;>
  · rw [and_comm]
    exact and_congr_right fun place => by rw [place]

/-- The ordinals listed as breaking a rule of a PLANT group are those that break one. -/
theorem mem_badPlant : k ∈ badPlant s v ↔ s.breaksRule .plant v k := by
  simp only [badPlant_eq, State.breaksRule, List.mem_append, mem_badBudgets, mem_badTrains, mem_waterTable, or_assoc]
  refine or_congr_right (or_congr_left ⟨?_, ?_⟩)
  · rintro ⟨t, h4, ⟨rfl, broken⟩ | ⟨rfl, broken⟩⟩
    · rwa [if_pos (by omega)]
    · rwa [if_neg (by omega)]
  · rintro ⟨ch, named, broken⟩
    obtain ⟨t, h4, rfl | rfl, -⟩ := id named
    · rw [if_pos (by omega)] at broken
      exact ⟨t, h4, .inl ⟨rfl, ch, named, broken⟩⟩
    · rw [if_neg (by omega)] at broken
      exact ⟨t, h4, .inr ⟨rfl, ch, named, broken⟩⟩

end

/-! ### The field named (R165) -/

/-- The field that a write is refused for is the lowest that is out of range or breaks a rule. -/
theorem badField_isLowest (s : State) (g : Group) (v : List Int) :
    isLowest (fun k => g.outside v k ∨ s.breaksRule g v k) (badField s g v) := by
  refine isLowest_lowest fun k => ?_
  rw [List.mem_append, mem_badRanges]
  refine or_congr_right ?_
  cases g with
  | site => exact mem_badSite
  | caverns => exact mem_badCaverns
  | plant => exact mem_badPlant

end Sys2Proof.Machine
end

section
/-! PROOFS. The judging of a written group: a channel in loop check (R7, R165), what is not at rest (R167), and the
checks of R165 in their order. -/

namespace Sys2Proof.Machine

section
variable {s : State} {v : List Int} {k : Nat}

/-! ### Channels in loop check -/

theorem inCheck_iff {ch : Nat} : s.inCheck ch = true ↔ (s.chan ch).mode = .check := beq_iff_eq

/-- The header field of a write that names a channel in loop check. -/
def checkedHeader (s : State) (v : List Int) : List Nat :=
  match (siteOf v).header with
  | some h => if s.inCheck h then [29] else []
  | none => []

theorem mem_checkedHeader : k ∈ checkedHeader s v ↔ ∃ ch, Group.names .site v k ch ∧ (s.chan ch).mode = .check := by
  have header : (siteOf v).header = idx v 29 := rfl
  have names (ch : Nat) : Group.names .site v k ch ↔ k = 29 ∧ idx v 29 = some ch := by
    rw [idx_eq_some_iff]
    exact Iff.rfl
  rw [checkedHeader, header]
  simp only [names]
  cases idx v 29 with
  | none => simp
  | some ch => simp [inCheck_iff, and_comm]

/-- The lowest field that names a channel in loop check is the one that a write is refused for. -/
theorem checkedField_isLowest (s : State) (g : Group) (v : List Int) :
    isLowest (fun k => ∃ ch, (g.names v k ch ∨ (g = .site ∧ ch < 16 ∧ k = 32 + 4 * ch)) ∧ (s.chan ch).mode = .check)
      (checkedField s g v) := by
  cases g with
  | site =>
    refine isLowest_lowest (l := checkedHeader s v ++ ((List.range 16).filter s.inCheck).map fun ch => 32 + 4 * ch)
      fun k => ?_
    simp only [List.mem_append, mem_checkedHeader, List.mem_map, List.mem_filter, List.mem_range, inCheck_iff,
      true_and, or_and_right, exists_or]
    refine or_congr_right (exists_congr fun ch => ?_)
    rw [and_right_comm, eq_comm (a := 32 + 4 * ch), and_assoc]
  | caverns =>
    refine isLowest_lowest fun k => ?_
    simp only [List.mem_flatMap, List.mem_range, List.mem_ite_nil_right, List.mem_singleton, reduceCtorEq, false_and,
      or_false]
    constructor
    · rintro ⟨c, h8, checked, rfl⟩
      rw [cavernsOf_getD h8, Bool.and_eq_true, Option.any_eq_true] at checked
      obtain ⟨present, ch, channel, checked⟩ := checked
      refine ⟨ch, ?_, inCheck_iff.1 checked⟩
      rw [show cavernOrd c + 1 = 2 + 13 * c by rw [cavernOrd]; omega]
      exact (names_cavern_iff h8).2 ⟨present, channel⟩
    · rintro ⟨ch, named, checked⟩
      obtain ⟨c, h8, rfl, -⟩ := id named
      obtain ⟨present, channel⟩ := (names_cavern_iff h8).1 named
      refine ⟨c, h8, ?_, ?_⟩
      · rw [cavernsOf_getD h8, present, channel]
        exact inCheck_iff.2 checked
      · rw [cavernOrd]
        omega
  | plant =>
    refine isLowest_lowest fun k => ?_
    simp only [List.mem_flatMap, List.mem_range, List.mem_ite_nil_right, List.mem_append, List.mem_singleton,
      inCheck_iff, reduceCtorEq, false_and, or_false]
    constructor
    · rintro ⟨t, h4, present, ⟨checked, place⟩ | ⟨checked, place⟩⟩ <;> rw [plantOf_train h4] at present checked
      · obtain rfl : k = 67 + 12 * t := by rw [place, trainOrd]; omega
        exact ⟨_, (names_dew_iff h4).2 ⟨present, rfl⟩, checked⟩
      · obtain rfl : k = 71 + 12 * t := by rw [place, trainOrd]; omega
        exact ⟨_, (names_inlet_iff h4).2 ⟨present, rfl⟩, checked⟩
    · rintro ⟨ch, named, checked⟩
      obtain ⟨t, h4, rfl | rfl, -⟩ := id named
      · obtain ⟨present, rfl⟩ := (names_dew_iff h4).1 named
        rw [← plantOf_train h4] at present checked
        exact ⟨t, h4, present, .inl ⟨checked, by rw [trainOrd]; omega⟩⟩
      · obtain ⟨present, rfl⟩ := (names_inlet_iff h4).1 named
        rw [← plantOf_train h4] at present checked
        exact ⟨t, h4, present, .inr ⟨checked, by rw [trainOrd]; omega⟩⟩

/-! ### What is not at rest (R167) -/

theorem notAtRest_site_active (h : s.fpl.active = true) : notAtRest s .site = some ⟨.condition, 4⟩ := if_pos h

theorem notAtRest_site_flight (held : s.fpl.active = false) (flight : s.su.current ≠ none) :
    notAtRest s .site = some ⟨.condition, 5⟩ := by
  simp [notAtRest, held, State.inFlight, Option.isSome_iff_ne_none, flight]

theorem notAtRest_site_rests (held : s.fpl.active = false) (idle : s.su.current = none) : notAtRest s .site = none := by
  simp [notAtRest, held, State.inFlight, idle]

/-- A cavern is neither SHUT nor OUT_OF_SERVICE. -/
def State.cavernMoves (s : State) (c : Nat) : Prop := (s.cav c).state ≠ .shut ∧ (s.cav c).state ≠ .outOfService

/-- A unit is STARTING, RUNNING or STOPPING. -/
def State.unitRuns (s : State) (u : Nat) : Prop :=
  (s.unit u).state = .starting ∨ (s.unit u).state = .running ∨ (s.unit u).state = .stopping

theorem cavernMoves_iff (c : Nat) : ((s.cav c).state != .shut && (s.cav c).state != .outOfService) = true ↔
    s.cavernMoves c := by
  rw [Bool.and_eq_true, bne_iff_ne, bne_iff_ne, State.cavernMoves]

theorem unitRuns_iff (u : Nat) : ((s.unit u).state.counts || (s.unit u).state == .stopping) = true ↔ s.unitRuns u := by
  rw [State.unitRuns]
  cases (s.unit u).state <;> simp [UnitState.counts]

theorem notAtRest_caverns_moves {c : Nat} (h8 : c < 8) (moves : s.cavernMoves c)
    (first : ∀ b, b < c → ¬s.cavernMoves b) : notAtRest s .caverns = some ⟨.cavern, c⟩ := by
  rw [notAtRest, find?_range_lowest cavernMoves_iff h8 moves first, Option.map_some]

theorem notAtRest_caverns_rests (still : ∀ c, c < 8 → ¬s.cavernMoves c) : notAtRest s .caverns = none := by
  rw [notAtRest, find?_range_none cavernMoves_iff still, Option.map_none]

theorem notAtRest_plant_runs {u : Nat} (h6 : u < 6) (runs : s.unitRuns u) (first : ∀ b, b < u → ¬s.unitRuns b) :
    notAtRest s .plant = some ⟨.unit, u⟩ := by
  simp only [notAtRest, find?_range_lowest unitRuns_iff h6 runs first]

theorem notAtRest_plant_stopped (stopped : ∀ u, u < 6 → ¬s.unitRuns u) : notAtRest s .plant =
    ((List.range 4).find? fun t => s.trainState t != .offline).map fun t => ⟨.train, t⟩ := by
  simp only [notAtRest, find?_range_none unitRuns_iff stopped]

theorem notAtRest_plant_online (stopped : ∀ u, u < 6 → ¬s.unitRuns u) {n : Nat} (h4 : n < 4)
    (online : s.trainState n ≠ .offline) (first : ∀ b, b < n → s.trainState b = .offline) :
    notAtRest s .plant = some ⟨.train, n⟩ := by
  rw [notAtRest_plant_stopped stopped, find?_range_lowest (fun _ => bne_iff_ne) h4 online
    (fun b hb => not_not_intro (first b hb)), Option.map_some]

theorem notAtRest_plant_rests (stopped : ∀ u, u < 6 → ¬s.unitRuns u)
    (offline : ∀ n, n < 4 → s.trainState n = .offline) :
    notAtRest s .plant = none := by
  rw [notAtRest_plant_stopped stopped, find?_range_none (fun _ => bne_iff_ne)
    (fun n hn => not_not_intro (offline n hn)), Option.map_none]

end

/-! ### The checks in their order (R165) -/

section
variable {s : State} {g : Group} {all : List Byte}

theorem judgeWrite_badLength (h : all.length ≠ g.size) : judgeWrite s g all = some (.no .badLength {}) := if_pos h

theorem judgeWrite_busy (length : all.length = g.size) (h : s.groupCommit g = some .committing) :
    judgeWrite s g all = some (.no .busy {}) := by
  rw [judgeWrite, if_neg (not_not_intro length), if_pos h]
  rfl

theorem judgeWrite_settling (length : all.length = g.size) (free : s.groupCommit g ≠ some .committing)
    (h : ∃ d, s.pst.profile = some d ∧ passed s.clock d = false) : judgeWrite s g all = some (.no .settling {}) := by
  obtain ⟨d, running, early⟩ := h
  rw [judgeWrite, if_neg (not_not_intro length), if_neg free, if_pos (by simp [running, early])]
  rfl

theorem profileRuns_eq_false (settled : ∀ d, s.pst.profile = some d → passed s.clock d = true) :
    (s.pst.profile.any fun d => !passed s.clock d) = false := by
  rw [Option.any_eq_false]
  exact fun d running => by rw [settled d running]; rfl

section
variable (length : all.length = g.size) (free : s.groupCommit g ≠ some .committing)
  (settled : ∀ d, s.pst.profile = some d → passed s.clock d = true)
include length free settled

/-- Past length, commit and deadline, a write is judged by its fields. -/
theorem judgeWrite_badField {n : Nat} (bad : badField s g (parseFields g.specs all) = some n) :
    judgeWrite s g all = some (.no .badField ⟨.field, min n 255⟩) := by
  simp only [judgeWrite, not_not_intro length, free, profileRuns_eq_false settled, Bool.false_eq_true, bad, if_false]
  rfl

/-- Past its fields, a write is judged by the channels in loop check. -/
theorem judgeWrite_checked {n : Nat} (good : badField s g (parseFields g.specs all) = none)
    (checked : checkedField s g (parseFields g.specs all) = some n) :
    judgeWrite s g all = some (.no .wrongState ⟨.field, min n 255⟩) := by
  simp only [judgeWrite, not_not_intro length, free, profileRuns_eq_false settled, Bool.false_eq_true, good, checked,
    if_false]

/-- Past the loop checks, a write is judged by what is at rest. -/
theorem judgeWrite_rest (good : badField s g (parseFields g.specs all) = none)
    (live : checkedField s g (parseFields g.specs all) = none) :
    judgeWrite s g all = (notAtRest s g).map fun d => .no .notAtRest d := by
  simp only [judgeWrite, not_not_intro length, free, profileRuns_eq_false settled, Bool.false_eq_true, good, live,
    if_false]

end

end

end Sys2Proof.Machine
end

section
/-! PROOFS. The commit queue (R170), and what an applied write brings to the blocks and to the store (R168). -/

namespace Sys2Proof.Machine

/-! ### The commit queue (R170) -/

section
variable (s : State) (g : Group)

/-- Beginning the next commit moves the queue, and nothing else. -/
theorem beginCommit_eq : ∃ w q, s.beginCommit = { s with pst := { s.pst with writing := w, queue := q } } := by
  unfold State.beginCommit
  split
  · exact ⟨_, _, rfl⟩
  · exact ⟨s.pst.writing, s.pst.queue, rfl⟩

theorem beginCommit_idle {s : State} (idle : s.pst.writing = none) : s.beginCommit =
    { s with pst := { s.pst with writing := s.pst.queue.head?, queue := s.pst.queue.tail } } := by
  obtain ⟨⟩ := s
  rename_i pst _
  obtain ⟨⟩ := pst
  rename_i queue _ _ _ _
  cases idle
  cases queue <;> rfl

theorem beginCommit_busy {s : State} {h : Group} (busy : s.pst.writing = some h) : s.beginCommit = s := by
  unfold State.beginCommit
  rw [busy]

/-- A group that enters the commit queue is COMMITTING, and the queue has moved. -/
theorem enterCommit_eq : ∃ w q, s.enterCommit g = { s.setCommit g (some .committing) with
    pst := { (s.setCommit g (some .committing)).pst with writing := w, queue := q } } := by
  obtain ⟨w, q, eq⟩ := beginCommit_eq
    (({ s with pst := { s.pst with queue := s.pst.queue ++ [g] } } : State).setCommit g (some .committing))
  exact ⟨w, q, by rw [State.enterCommit, eq]; cases g <;> rfl⟩

theorem setCommit_queue (c : Option CommitState) :
    (s.setCommit g c).pst.writing = s.pst.writing ∧ (s.setCommit g c).pst.queue = s.pst.queue := by
  cases g <;> exact ⟨rfl, rfl⟩

theorem enterCommit_busy {s : State} {h : Group} (busy : s.pst.writing = some h) :
    (s.enterCommit g).pst.writing = some h ∧ (s.enterCommit g).pst.queue = s.pst.queue ++ [g] := by
  have queued := setCommit_queue { s with pst := { s.pst with queue := s.pst.queue ++ [g] } } g (some .committing)
  rw [State.enterCommit, beginCommit_busy (queued.1.trans busy)]
  exact ⟨queued.1.trans busy, queued.2⟩

theorem enterCommit_idle {s : State} (idle : s.pst.writing = none) (empty : s.pst.queue = []) :
    (s.enterCommit g).pst.writing = some g ∧ (s.enterCommit g).pst.queue = [] := by
  have queued := setCommit_queue { s with pst := { s.pst with queue := s.pst.queue ++ [g] } } g (some .committing)
  have alone := queued.2.trans (congrArg (· ++ [g]) empty)
  rw [State.enterCommit, beginCommit_idle (queued.1.trans idle)]
  exact ⟨congrArg List.head? alone, congrArg List.tail alone⟩

theorem groupCommit_enterCommit_self : (s.enterCommit g).groupCommit g = some .committing := by
  obtain ⟨w, q, eq⟩ := enterCommit_eq s g
  rw [eq]
  cases g <;> rfl

end

/-! ### A SITE write (R9, R12, R107, R154) -/

section
variable (s : State) (old : Option Site) (p : Site) (recalibrate : Bool)

/-- The contents of a SITE write in force, with the calibration pass it asks for and the dispatch deadline it starts. -/
def State.siteInForce : State := { s with
  pst := { s.pst with site := { s.pst.site with live := some p } }
  mu := { s.mu with pass := if recalibrate && s.mu.pass == .none then .pending else s.mu.pass }
  fpl := { s.fpl with dispatch := s.fpl.dispatch.or (some (s.after p.dispatchInterval)) } }

/-- A SITE write's contents in force, with the runs and the header fitted to them. -/
def State.siteFitted : State := ((s.siteInForce p recalibrate).fitRuns s.site).fitHeader s.site

theorem applySite_eq (ev : Ev) : applySite p recalibrate ev =
    siteToBook ev.s.site false { ev with s := ev.s.siteFitted p recalibrate } := by
  rw [State.siteFitted, State.siteInForce, applySite]
  cases ev.s.fpl.dispatch <;> rfl

/-- A header kept keeps its record. -/
theorem fitHeader_same (h : s.headerChannel = old.bind Site.header) : s.fitHeader old = s := if_pos h.symm

theorem fitHeader_channel {ch : Nat} (new : s.headerChannel = some ch) (h : old.bind Site.header ≠ some ch) :
    s.fitHeader old =
      { s with fpl := { s.fpl with header := (s.chan ch).value, headerQuality := (s.chan ch).quality } } := by
  rw [State.fitHeader, new, if_neg h]

theorem fitHeader_absent (new : s.headerChannel = none) (h : old.bind Site.header ≠ none) : s.fitHeader old =
    { s with
      fpl := { s.fpl with header := 0, headerQuality := .lost }, tru := { s.tru with headerAbove := false } } := by
  rw [State.fitHeader, new, if_neg h]

/-- The header's fitting reaches the planner and the trip record alone. -/
theorem fitHeader_frame : Frame True False False s (s.fitHeader old) := by
  unfold State.fitHeader
  split
  · exact {}
  · split <;> exact {}

theorem siteFitted_pst :
    (s.siteFitted p recalibrate).pst = { s.pst with site := { s.pst.site with live := some p } } :=
  (fitHeader_frame _ _).pst

theorem siteFitted_acb : (s.siteFitted p recalibrate).acb = s.acb := (fitHeader_frame _ _).acb id

theorem siteFitted_mu :
    (s.siteFitted p recalibrate).mu = ((s.siteInForce p recalibrate).fitRuns s.site).mu := (fitHeader_frame _ _).mu id

theorem siteFitted_clock : (s.siteFitted p recalibrate).clock = s.clock := by
  rw [State.clock, siteFitted_mu]
  rfl

end

section
variable {s : State} {p : Site} {recalibrate : Bool}

/-- A SITE write that names the header named before leaves the header's record and status. -/
theorem siteFitted_sameHeader (h : p.header = s.headerChannel) :
    (s.siteFitted p recalibrate).fpl =
      { s.fpl with dispatch := (s.siteFitted p recalibrate).fpl.dispatch } ∧
    (s.siteFitted p recalibrate).tru = s.tru := by
  rw [State.siteFitted, fitHeader_same ((s.siteInForce p recalibrate).fitRuns s.site) s.site h]
  exact ⟨rfl, rfl⟩

/-- A SITE write that names a new header channel takes the header's record from it. -/
theorem siteFitted_header {ch : Nat} (new : p.header = some ch) (h : s.headerChannel ≠ some ch) :
    (s.siteFitted p recalibrate).fpl.header = (s.chan ch).value ∧
    (s.siteFitted p recalibrate).fpl.headerQuality = (s.chan ch).quality ∧
    (s.siteFitted p recalibrate).tru = s.tru := by
  rw [State.siteFitted, fitHeader_channel ((s.siteInForce p recalibrate).fitRuns s.site) s.site new h]
  exact ⟨rfl, rfl, rfl⟩

/-- A SITE write that ends the header clears the header's record and status. -/
theorem siteFitted_noHeader (new : p.header = none) (h : s.headerChannel ≠ none) :
    (s.siteFitted p recalibrate).fpl.header = 0 ∧ (s.siteFitted p recalibrate).fpl.headerQuality = .lost ∧
    (s.siteFitted p recalibrate).tru = { s.tru with headerAbove := false } := by
  rw [State.siteFitted, fitHeader_absent ((s.siteInForce p recalibrate).fitRuns s.site) s.site new h]
  exact ⟨rfl, rfl, rfl⟩

theorem siteFitted_dispatch (s : State) (p : Site) (recalibrate : Bool) :
    (s.siteFitted p recalibrate).fpl.dispatch = s.fpl.dispatch.or (some (s.after p.dispatchInterval)) := by
  rw [State.siteFitted, State.fitHeader]
  split
  · rfl
  · split <;> rfl

end

/-! ### The application of a write (R168, R169) -/

section
variable (g : Group) (v : List Int) (ev : Ev)

/-- A write's contents brought to the blocks, before its deadlines and its commit. -/
def bringContents : Ev :=
  match g with
  | .site => applySite (siteOf v) (num v 31 == 1) ev
  | .caverns => applyCaverns (cavernsOf v) ev
  | .plant => applyPlant (plantOf v) ev

theorem applyWrite_eq : applyWrite g v ev = (bringContents g v ev).map fun s => s.settleAfterWrite.enterCommit g := by
  cases g <;> rfl

/-- The store with the contents of a write in force. -/
def Pst.withContents (p : Pst) (g : Group) (v : List Int) : Pst :=
  match g with
  | .site => { p with site := { p.site with live := some (siteOf v) } }
  | .caverns => { p with caverns := { p.caverns with live := some (cavernsOf v) } }
  | .plant => { p with plant := { p.plant with live := some (plantOf v) } }

theorem bringIn_mu_pst (s : State) (u : Nat) (d : UnitDef) :
    (s.bringIn u d).mu = s.mu ∧ (s.bringIn u d).pst = s.pst := by
  rw [State.bringIn, State.updDuty_mu, State.updDuty_pst]
  exact ⟨rfl, rfl⟩

theorem uncommanded_mu_pst (u : Nat) : (uncommanded u ev).s.mu = ev.s.mu ∧ (uncommanded u ev).s.pst = ev.s.pst := by
  rw [uncommanded, (raise_told _ _ _ _).state]
  exact ⟨rfl, rfl⟩

theorem fitUnit_mu_pst (write : Bool) (u : Nat) :
    (fitUnit write ev u).s.mu = ev.s.mu ∧ (fitUnit write ev u).s.pst = ev.s.pst := by
  obtain ⟨_, eq⟩ | ⟨_, _, _, eq⟩ | ⟨d, _, _, eq | eq⟩ := fitUnit_cases write ev u <;> rw [eq]
  · exact ⟨rfl, rfl⟩
  · exact ⟨rfl, rfl⟩
  · exact bringIn_mu_pst ev.s u d
  · obtain ⟨mu, pst⟩ := uncommanded_mu_pst (ev.map fun s => s.bringIn u d) u
    exact ⟨mu.trans (bringIn_mu_pst ev.s u d).1, pst.trans (bringIn_mu_pst ev.s u d).2⟩

theorem fitUnits_mu_pst (write : Bool) :
    (fitUnits write ev).s.mu = ev.s.mu ∧ (fitUnits write ev).s.pst = ev.s.pst :=
  foldl_rel (R := fun a b => b.s.mu = a.s.mu ∧ b.s.pst = a.s.pst) (fun _ => ⟨rfl, rfl⟩)
    (fun h k => ⟨k.1.trans h.1, k.2.trans h.2⟩) (fun e u => fitUnit_mu_pst e write u) _ ev

/-- What a write brings to the blocks leaves the clock, and of the store all but the live contents it replaces. -/
theorem bringContents_store : (bringContents g v ev).s.pst = ev.s.pst.withContents g v ∧
    (bringContents g v ev).s.clock = ev.s.clock := by
  cases g with
  | site =>
    have booked := siteToBook_frame (F := False) (G := False) ev.s.site false
      { ev with s := ev.s.siteFitted (siteOf v) (num v 31 == 1) }
    rw [bringContents, applySite_eq]
    exact ⟨booked.pst.trans (siteFitted_pst _ _ _), (congrArg Mu.clock (booked.mu id)).trans (siteFitted_clock _ _ _)⟩
  | caverns => exact ⟨rfl, rfl⟩
  | plant =>
    have units := fitUnits_mu_pst (plantFigured (plantOf v) ev) true
    have figured := (plantFigured_told (plantOf v) ev).state
    refine ⟨units.2.trans ?_, congrArg Mu.clock (units.1.trans ?_)⟩ <;> rw [figured] <;> rfl

end

end Sys2Proof.Machine
end

section
/-! PROOFS. WRITE_PROFILE staged, judged and applied, its commit and its deadlines (R164, R165, R168 to R170): O52. -/

namespace Sys2Proof.Machine

/-! ### Staging (R164) -/

section
variable {old : Option Staging} {g : Group} {k : Nat} {b : List Byte}

/-- A segment is the one expected when it is the first, or continues the write that is staged. -/
theorem extend_eq_some_iff {all : List Byte} : Staging.extend old g k b = some ⟨g, k + 1, all⟩ ↔
    (k = 0 ∧ all = b) ∨ ∃ x, 1 ≤ k ∧ old = some x ∧ x.group = g ∧ x.next = k ∧ all = x.bytes ++ b := by
  by_cases first : k = 0
  · simp [Staging.extend, first, eq_comm (a := b)]
  · rcases old with _ | x
    · simp [Staging.extend, first]
    · by_cases continues : x.group = g ∧ x.next = k
      · simp [Staging.extend, first, continues, Nat.one_le_iff_ne_zero, eq_comm (b := all)]
      · simp only [Staging.extend, first, continues, if_false, reduceCtorEq, false_and, false_or, false_iff]
        rintro ⟨y, -, same, group, next, -⟩
        cases same
        exact continues ⟨group, next⟩

/-- What is staged belongs to the group written, and awaits the next segment. -/
theorem extend_staged {x : Staging} (h : Staging.extend old g k b = some x) : x = ⟨g, k + 1, x.bytes⟩ := by
  unfold Staging.extend at h
  split at h
  next first => cases h; rw [first]
  next later =>
    split at h
    next y =>
      split at h
      next continues => cases h; rw [continues.1]
      next => cases h
    next => cases h

theorem extend_eq_none (h : ∀ all, Staging.extend old g k b ≠ some ⟨g, k + 1, all⟩) :
    Staging.extend old g k b = none := by
  by_contra some
  obtain ⟨x, staged⟩ := Option.ne_none_iff_exists'.1 some
  exact h x.bytes (staged.trans (congrArg Option.some (extend_staged staged)))

end

/-! ### The taking of a segment -/

section
variable {s : State} {g : Group} {k last : Nat} {b all : List Byte}

theorem takeWriteProfile_badSegment (h : 16 ≤ k) : takeWriteProfile g.code k last b s = (s.ev, .badField 2) := by
  rw [takeWriteProfile, groupOfCode_code]
  exact judged_first_bad _ _ _ _ (Nat.not_lt.2 h)

theorem takeWriteProfile_segment (h : k < 16) : takeWriteProfile g.code k last b s = takeSegment g k last b s := by
  rw [takeWriteProfile, groupOfCode_code]
  exact judged_all (by simp [h])

theorem takeSegment_unexpected (h : ∀ all, Staging.extend s.pst.staging g k b ≠ some ⟨g, k + 1, all⟩) :
    takeSegment g k last b s = ((s.setStaging none).ev, .refuse .wrongState) := by
  simp only [takeSegment, extend_eq_none h]

section
variable (h : Staging.extend s.pst.staging g k b = some ⟨g, k + 1, all⟩)
include h

theorem takeSegment_tooLong (long : g.size < all.length) :
    takeSegment g k last b s = ((s.setStaging none).ev, .refuse .badLength) := by
  simp only [takeSegment, h, long, if_true]

theorem takeSegment_staged (fits : all.length ≤ g.size) (more : last % 2 = 0) : takeSegment g k last b s =
    ((s.setStaging (some ⟨g, k + 1, all⟩)).ev, .ok [b2 all.length]) := by
  simp only [takeSegment, h, Nat.not_lt.2 fits, more, if_true, if_false]

theorem takeSegment_last (fits : all.length ≤ g.size) (done : last % 2 = 1) :
    takeSegment g k last b s = completeWrite g all (s.setStaging none) := by
  simp only [takeSegment, h, Nat.not_lt.2 fits, done, one_ne_zero, if_false]

end

theorem completeWrite_refused {a : Answer} (h : judgeWrite s g all = some a) : completeWrite g all s = (s.ev, a) := by
  simp only [completeWrite, h]

theorem completeWrite_applied (h : judgeWrite s g all = none) : completeWrite g all s =
    (applyWrite g (parseFields g.specs all) s.ev, .ok [b1 g.code, b1 1]) := by
  simp only [completeWrite, h]
  rfl

/-- A write is judged alike before the frame that carries it has arrived. -/
theorem judgeWrite_arrived (c : Instr) :
    judgeWrite ((s.arrived c).setStaging none) g all = judgeWrite (s.setStaging none) g all := by
  obtain ⟨q, arrived⟩ := arrived_eq s c
  rw [arrived]
  rfl

end

/-- A request that is refused and empties the staging record. -/
theorem refused_unstaged {c : Instr} {s : State} {e : QEntry} {take : State → Ev × Answer} {st : Status} {d : Detail}
    (x : exec c s = .next (serve c take s)) (h : takes c s e = true)
    (k : take (s.arrived c) = (((s.arrived c).setStaging none).ev, .no st d)) :
    exec c s = .next (((s.arrived c).setStaging none).formReply e st d []) := by
  have calm : ((s.arrived c).setStaging none).slu.resetPending = false :=
    (arrived_resetPending s c).trans (takes_parts h).2.1
  refine x.trans (congrArg _ ((serve_refused h k).trans ?_))
  exact congrArg (fun t => State.formReply t e st d []) (noteTaking_self calm e.arrival)

/-- A segment as WRITE_PROFILE carries it: refused at its index, refused and unstaged, staged, or the last of a write
that is judged and applied. -/
theorem exec_writeProfile {s : State} {e : QEntry} {t k last : Nat} {g : Group} {b : List Byte} (index : k < 16)
    (h : takes (.writeProfile t g.code k last b) s e = true) :
    let c : Instr := .writeProfile t g.code k last b
    let expected (all : List Byte) : Prop := Staging.extend s.pst.staging g k b = some ⟨g, k + 1, all⟩
    let refused (st : Status) (d : Detail) : Prop :=
      exec c s = .next (((s.arrived c).setStaging none).formReply e st d [])
    ((∀ all, ¬expected all) → refused .wrongState {}) ∧
    ∀ all, expected all → (g.size < all.length → refused .badLength {}) ∧
      (all.length ≤ g.size → (last % 2 = 0 →
        completes c s e (fun x => (x.setStaging (some ⟨g, k + 1, all⟩)).ev) fun _ => [b2 all.length]) ∧
        (last % 2 = 1 →
          (∀ st d, judgeWrite (s.setStaging none) g all = some (.no st d) → refused st d) ∧
          (judgeWrite (s.setStaging none) g all = none →
            completes c s e (fun x => applyWrite g (parseFields g.specs all) (x.setStaging none).ev)
              fun _ => [b1 g.code, b1 1]))) := by
  intro c expected refused
  have staging : (s.arrived c).pst.staging = s.pst.staging := by rw [arrived_pst]
  have take (u : State) := takeWriteProfile_segment (s := u) (g := g) (last := last) (b := b) index
  refine ⟨fun none => refused_unstaged rfl h ((take _).trans (takeSegment_unexpected (by rwa [staging]))),
    fun all staged => ?_⟩
  change Staging.extend s.pst.staging g k b = some _ at staged
  rw [← staging] at staged
  refine ⟨fun long => refused_unstaged rfl h ((take _).trans (takeSegment_tooLong staged long)), fun fits =>
    ⟨fun more => completes_of rfl h ((take _).trans (takeSegment_staged staged fits more)), fun done =>
      ⟨fun st d no => ?_, fun yes => ?_⟩⟩⟩
  · rw [← judgeWrite_arrived c] at no
    exact refused_unstaged rfl h ((take _).trans ((takeSegment_last staged fits done).trans (completeWrite_refused no)))
  · rw [← judgeWrite_arrived c] at yes
    exact completes_of rfl h ((take _).trans ((takeSegment_last staged fits done).trans (completeWrite_applied yes)))

/-! ### What an applied write leaves (R168, R169) -/

section
variable (g : Group) (v : List Int) (ev : Ev)

/-- The settlement deadline of an accepted write: the later of the one that runs and the new one (R169). -/
def laterSettle (old : Option Clk) (new : Clk) : Clk :=
  match old with
  | some d => if passed d new then d else new
  | none => new

theorem settleAfterWrite_pst (s : State) : s.settleAfterWrite.pst = { s.pst with
    profile := some (s.after 1), settle := some (laterSettle s.pst.settle (s.after s.settleInterval)) } := by
  simp only [State.settleAfterWrite, laterSettle]
  rcases s.pst.settle with _ | d
  · rfl
  · rw [apply_ite some]

/-- The store with the commit state of a group set. -/
def Pst.withCommit (p : Pst) (g : Group) (c : Option CommitState) : Pst :=
  match g with
  | .site => { p with site := { p.site with commit := c } }
  | .caverns => { p with caverns := { p.caverns with commit := c } }
  | .plant => { p with plant := { p.plant with commit := c } }

theorem setCommit_pst (s : State) (c : Option CommitState) : (s.setCommit g c).pst = s.pst.withCommit g c := by
  cases g <;> rfl

theorem enterCommit_pst (s : State) :
    ∃ w q, (s.enterCommit g).pst = { s.pst.withCommit g (some .committing) with writing := w, queue := q } := by
  obtain ⟨w, q, eq⟩ := enterCommit_eq s g
  exact ⟨w, q, by rw [eq, setCommit_pst]⟩

/-- The settlement interval that the store has in force once the write's contents are live. -/
def Pst.settleInterval (p : Pst) : Nat := (p.site.live.map Site.settleInterval).getD Config.settleInvalid

/-- The store of an applied write: the contents in force, the deadlines, and the group in the commit queue. -/
theorem applyWrite_pst : ∃ w q, (applyWrite g v ev).s.pst =
  { (ev.s.pst.withContents g v).withCommit g (some .committing) with
    profile := some (ev.s.after 1)
    settle := some (laterSettle ev.s.pst.settle (ev.s.after (ev.s.pst.withContents g v).settleInterval))
    writing := w, queue := q } := by
  obtain ⟨pst, clock⟩ := bringContents_store g v ev
  obtain ⟨w, q, entered⟩ := enterCommit_pst g (bringContents g v ev).s.settleAfterWrite
  refine ⟨w, q, ?_⟩
  have interval : (bringContents g v ev).s.settleInterval = (ev.s.pst.withContents g v).settleInterval :=
    congrArg Pst.settleInterval pst
  have settle : (ev.s.pst.withContents g v).settle = ev.s.pst.settle := by cases g <;> rfl
  rw [applyWrite_eq]
  refine entered.trans ?_
  rw [settleAfterWrite_pst, pst, interval, settle, State.after, State.after, clock]
  cases g <;> rfl

/-- The queue that an applied write finds is that of the event. -/
theorem applied_queue : (bringContents g v ev).s.settleAfterWrite.pst.writing = ev.s.pst.writing ∧
    (bringContents g v ev).s.settleAfterWrite.pst.queue = ev.s.pst.queue := by
  rw [settleAfterWrite_pst, (bringContents_store g v ev).1]
  cases g <;> exact ⟨rfl, rfl⟩

theorem applyWrite_groupCommit : (applyWrite g v ev).s.groupCommit g = some .committing := by
  rw [applyWrite_eq]
  exact groupCommit_enterCommit_self _ g

variable {ev}

theorem applyWrite_busy {h : Group} (busy : ev.s.pst.writing = some h) :
    (applyWrite g v ev).s.pst.writing = some h ∧ (applyWrite g v ev).s.pst.queue = ev.s.pst.queue ++ [g] := by
  obtain ⟨writing, queue⟩ := applied_queue g v ev
  rw [applyWrite_eq, ← queue]
  exact enterCommit_busy g (writing.trans busy)

theorem applyWrite_idle (idle : ev.s.pst.writing = none) (empty : ev.s.pst.queue = []) :
    (applyWrite g v ev).s.pst.writing = some g ∧ (applyWrite g v ev).s.pst.queue = [] := by
  obtain ⟨writing, queue⟩ := applied_queue g v ev
  rw [applyWrite_eq]
  exact enterCommit_idle g (writing.trans idle) (queue.trans empty)

end

/-! ### The end of a commit (R170) -/

section
variable {s : State} {g : Group}

/-- A group's commit ended: nothing is written, and the group has its new commit state. -/
def State.commitEnded (s : State) (g : Group) (c : CommitState) : State :=
  { s.setCommit g (some c) with pst := { (s.setCommit g (some c)).pst with writing := none } }

theorem exec_commitComplete (b : Bool) (run : s.phase = .running) (writing : s.pst.writing = some g) :
    exec (.commitComplete b) s = .next (commitDone g b s.ev).finish := by
  refine congrArg Host.Outcome.next ((occurs_eq run (by rw [writing]; rfl)).trans ?_)
  rw [State.ev_s, writing]

theorem exec_commitComplete_idle (b : Bool) (idle : s.pst.writing = none) : exec (.commitComplete b) s = .next s :=
  congrArg Host.Outcome.next (occurs_disabled (by rw [idle]; rfl))

theorem commitEnded_pst (s : State) (g : Group) (c : CommitState) : (s.commitEnded g c).beginCommit.pst =
    { s.pst.withCommit g (some c) with writing := s.pst.queue.head?, queue := s.pst.queue.tail } := by
  rw [beginCommit_idle rfl, State.commitEnded, setCommit_pst]
  cases g <;> rfl

theorem commitDone_verified : commitDone g true s.ev =
    raise .profileCommitted (some g.code) ((s.storeImage g).commitEnded g .committed).beginCommit.ev := rfl

theorem commitDone_failed : (commitDone g false s.ev).finish = (s.commitEnded g .failed).beginCommit :=
  finish_of_quiet rfl rfl

/-- The telling of a verified commit leaves its store. -/
theorem commitDone_verified_pst : (commitDone g true s.ev).finish.pst =
    { (s.storeImage g).pst.withCommit g (some .committed) with
      writing := (s.storeImage g).pst.queue.head?, queue := (s.storeImage g).pst.queue.tail } := by
  have ended := finish_frame (G := False) (B := False) (commitDone g true s.ev)
  have told := raise_frame (F := False) (G := False) (B := False) .profileCommitted (some g.code) (data := .none)
    ((s.storeImage g).commitEnded g .committed).beginCommit.ev
  rw [ended.pst, commitDone_verified, told.pst, State.ev_s, commitEnded_pst]

theorem storeImage_queue : (s.storeImage g).pst.queue = s.pst.queue := by
  cases g <;> rfl

theorem store_live {α : Type} {r : GroupRec α} {x : α} (h : r.live = some x) :
    r.store = { r with live := some x, image := some ⟨x, true⟩ } := by
  rw [GroupRec.store, h]

/-- The commit state of a group, and whether it is VALID, as the store has them. -/
def Pst.standing (p : Pst) : Group → Option CommitState × Bool
  | .site => (p.site.commit, p.site.live.isSome)
  | .caverns => (p.caverns.commit, p.caverns.live.isSome)
  | .plant => (p.plant.commit, p.plant.live.isSome)

theorem standing_eq (t : State) (g : Group) : t.pst.standing g = (t.groupCommit g, t.groupValid g) := by
  cases g <;> rfl

theorem standing_withCommit_self (p : Pst) (c : Option CommitState) : ((p.withCommit g c).standing g).1 = c := by
  cases g <;> rfl

theorem standing_withCommit_other {h : Group} (other : h ≠ g) (p : Pst) (c : Option CommitState) :
    (p.withCommit g c).standing h = p.standing h := by
  cases g <;> cases h <;> trivial

theorem standing_storeImage {h : Group} (other : h ≠ g) : (s.storeImage g).pst.standing h = s.pst.standing h := by
  cases g <;> cases h <;> trivial

/-- A verified commit: its group COMMITTED and its contents the image, the next group written, the others kept. -/
theorem commitDone_verified_store {t : State} (h : t.pst = (commitDone g true s.ev).finish.pst) :
    t.groupCommit g = some .committed ∧ t.pst.writing = s.pst.queue.head? ∧ t.pst.queue = s.pst.queue.tail ∧
      (∀ p, g = .site → s.pst.site.live = some p → t.pst.site = ⟨some p, some .committed, some ⟨p, true⟩⟩) ∧
      (∀ p, g = .caverns → s.pst.caverns.live = some p → t.pst.caverns = ⟨some p, some .committed, some ⟨p, true⟩⟩) ∧
      (∀ p, g = .plant → s.pst.plant.live = some p → t.pst.plant = ⟨some p, some .committed, some ⟨p, true⟩⟩) ∧
      ∀ h, h ≠ g → t.groupCommit h = s.groupCommit h ∧ t.groupValid h = s.groupValid h := by
  rw [commitDone_verified_pst, storeImage_queue] at h
  have standing (k : Group) : t.pst.standing k = ((s.storeImage g).pst.withCommit g (some .committed)).standing k :=
    (congrArg (Pst.standing · k) h).trans (by cases k <;> rfl)
  have whole {α : Type} {r : GroupRec α} {x : α} (live : r.live = some x) :
      { r.store with commit := some .committed } = (⟨some x, some .committed, some ⟨x, true⟩⟩ : GroupRec α) := by
    rw [store_live live]
  refine ⟨?_, congrArg Pst.writing h, congrArg Pst.queue h, ?_, ?_, ?_, fun other differs => ?_⟩
  · have self := standing g
    rw [standing_eq] at self
    exact (congrArg Prod.fst self).trans (standing_withCommit_self _ _)
  · rintro p rfl live
    exact (congrArg Pst.site h).trans (whole live)
  · rintro p rfl live
    exact (congrArg Pst.caverns h).trans (whole live)
  · rintro p rfl live
    exact (congrArg Pst.plant h).trans (whole live)
  · have kept := standing other
    rw [standing_withCommit_other differs, standing_storeImage differs, standing_eq, standing_eq] at kept
    exact Prod.ext_iff.1 kept

/-- A failed commit: its group FAILED, the next group written, the contents and the images kept. -/
theorem commitDone_failed_store {t : State} (h : t = (commitDone g false s.ev).finish) :
    t.groupCommit g = some .failed ∧ t.pst.writing = s.pst.queue.head? ∧ t.pst.queue = s.pst.queue.tail ∧
      t.pst.site.live = s.pst.site.live ∧ t.pst.site.image = s.pst.site.image ∧
      t.pst.caverns.live = s.pst.caverns.live ∧ t.pst.caverns.image = s.pst.caverns.image ∧
      t.pst.plant.live = s.pst.plant.live ∧ t.pst.plant.image = s.pst.plant.image := by
  have store := congrArg State.pst (h.trans commitDone_failed)
  rw [commitEnded_pst] at store
  refine ⟨?_, congrArg Pst.writing store, congrArg Pst.queue store, ?_⟩
  · have self := congrArg (Pst.standing · g) store
    rw [standing_eq] at self
    exact (congrArg Prod.fst self).trans (by cases g <;> rfl)
  · rw [store]
    cases g <;> exact ⟨rfl, rfl, rfl, rfl, rfl, rfl⟩

end

/-- A deadline of the store that has passed is taken off, and nothing else takes place. -/
theorem happens_quiet {enabled : State → Bool} {f : State → State} {s : State} (run : s.phase = .running)
    (h : enabled s = true) : occurs enabled (fun ev => ev.map f) s = f s :=
  (occurs_eq run h).trans (finish_of_quiet rfl rfl)

/-- Settles O52: a segment by what is staged, a write by the checks of R165 in their order, and each by what it leaves
in the store, whose frames the blocks' own effects keep. -/
theorem profileWritesStageApplyAndCommit : Obligations.ProfileWritesStageApplyAndCommit := by
  refine ⟨?segment, ?judged, ?checks, ?applied, ?site, ?commit⟩
  case segment =>
    intro s e t k j g b all index c expected refused
    refine ⟨fun m out h => refuses_of rfl h (takeWriteProfile_badSegment out), fun h => ?_⟩
    obtain ⟨unexpected, taken⟩ := exec_writeProfile index h
    have staged (all : List Byte) : Staging.extend s.pst.staging g k b = some ⟨g, k + 1, all⟩ ↔ expected all :=
      extend_eq_some_iff
    exact ⟨fun none => unexpected fun all => mt (staged all).1 (none all),
      fun some => (taken all ((staged all).2 some)).1,
      fun some fits => ((taken all ((staged all).2 some)).2 fits).1,
      fun some fits => ((taken all ((staged all).2 some)).2 fits).2⟩
  case judged =>
    intro s g all v judged
    exact ⟨judgeWrite_badLength, judgeWrite_busy, fun length free => ⟨judgeWrite_settling length free, fun settled =>
      ⟨fun n => judgeWrite_badField length free settled, fun good =>
        ⟨fun n => judgeWrite_checked length free settled good, judgeWrite_rest length free settled good⟩⟩⟩⟩
  case checks =>
    intro s g v
    exact ⟨badField_isLowest s g v, checkedField_isLowest s g v, notAtRest_site_active, notAtRest_site_flight,
      notAtRest_site_rests, ⟨fun c => notAtRest_caverns_moves, notAtRest_caverns_rests⟩,
      ⟨fun u => notAtRest_plant_runs, fun stopped =>
        ⟨fun n => notAtRest_plant_online stopped, notAtRest_plant_rests stopped⟩⟩⟩
  case applied =>
    intro ev g v x new
    obtain ⟨w, q, store⟩ := applyWrite_pst g v ev
    have newer : ev.s.after (ev.s.pst.withContents g v).settleInterval = new := by
      refine congrArg ev.s.after (congrArg (Option.getD · 5) (congrArg (Option.map _) ?_))
      refine Eq.trans ?_ (congrArg (·.site.live) store).symm
      cases g <;> rfl
    rw [newer] at store
    have settle : x.pst.settle = some (laterSettle ev.s.pst.settle new) := congrArg Pst.settle store
    refine ⟨?_, ?_, ?_, applyWrite_groupCommit g v ev, congrArg Pst.profile store, fun none => ?_, fun d some => ?_,
      fun h => applyWrite_busy g v, applyWrite_idle g v⟩
    · rintro rfl
      exact ⟨congrArg (·.site.live) store, congrArg (·.caverns) store, congrArg (·.plant) store⟩
    · rintro rfl
      exact ⟨congrArg (·.caverns.live) store, congrArg (·.site) store, congrArg (·.plant) store⟩
    · rintro rfl
      exact ⟨congrArg (·.plant.live) store, congrArg (·.site) store, congrArg (·.caverns) store⟩
    · rw [settle, none, laterSettle]
    · rw [settle, some, laterSettle]
  case site =>
    intro ev v p
    have mu := siteFitted_mu ev.s p (num v 31 == 1)
    refine ⟨ev.s.siteFitted p (num v 31 == 1),
      (applyWrite_eq .site v ev).trans (congrArg (Ev.map · _) (applySite_eq _ _ _)),
      siteFitted_pst _ _ _, siteFitted_acb _ _ _, (congrArg Mu.channels mu).trans rfl, siteFitted_clock _ _ _,
      (congrArg Mu.pass mu).trans ?_, siteFitted_dispatch _ _ _,
      siteFitted_sameHeader, fun ch => siteFitted_header, siteFitted_noHeader⟩
    simp only [State.fitRuns, State.siteInForce, Bool.and_eq_true, beq_iff_eq]
  case commit =>
    intro s g run
    refine ⟨fun writing => ?_, fun idle b => exec_commitComplete_idle b idle,
      fun passed => congrArg _ (happens_quiet run passed), fun early => congrArg _ (occurs_disabled early),
      fun passed => congrArg _ (happens_quiet run passed), fun early => congrArg _ (occurs_disabled early)⟩
    have verified := exec_commitComplete true run writing
    have failed := exec_commitComplete false run writing
    rw [commitDone_failed] at failed
    exact ⟨verified, ⟨_, verified, commitDone_verified_store rfl⟩, failed,
      ⟨_, failed, commitDone_failed_store commitDone_failed.symm⟩⟩

end Sys2Proof.Machine
end

section
/-! PROOFS. What a start leaves alone: the frame of the missed boundaries, of the beginning and of the completion, the
supply and the reset input, and the loading and judging of the groups (R172, R173). -/

namespace Sys2Proof.Machine

/-! ### Missed boundaries -/

section
variable {F : Prop}

theorem enterPeriod_frame (s : State) (b : Clk) (metered : Bool) : Frame F True True s (s.enterPeriod b metered) := by
  cases metered
  · exact {}
  · exact {}

theorem enterMissed_frame (l : List Clk) (s : State) : Frame F True True s (l.foldl State.enterMissed s) := by
  induction l generalizing s with
  | nil => exact .refl s
  | cons b l ih => exact ((enterPeriod_frame s b _).trans {}).trans (ih _)

theorem missedLoaded_frame (start : Clk) (s : State) : Frame F True True s (missedLoaded start s) := by
  unfold missedLoaded
  exact iteState_frame (enterMissed_frame _ _) ((enterMissed_frame _ _).trans {})

theorem skipBook_frame {G : Prop} (ev : Ev) : Frame F G True ev.s (skipBook ev).s :=
  Frame.trans {} (raiseCurtailments_frame _ _ { ev with s := _ })

theorem discardMissed_frame (ev : Ev) (b : Clk) : Frame F True True ev.s (discardMissed ev b).s := by
  unfold discardMissed discardBoundary unloadedBoundary
  refine Frame.trans ?_ (reconfirm_frame _ _)
  exact Frame.trans {} (advanceBook_frame _ _)

theorem missedUnloaded_frame (start : Clk) (ev : Ev) : Frame F True True ev.s (missedUnloaded start ev).s := by
  unfold missedUnloaded
  have taken := foldl_frame (F := F) (G := True) (B := True) discardMissed discardMissed_frame
    (boundariesAfter (min (missedCount start ev.s.clock) (Config.missedSingly - ev.s.su.missedTaken)) start) ev
  exact ite_frame taken ((taken.trans {}).trans (skipBook_frame _))

/-- The missed boundaries reach the meters, the book and the settlement, and the watches. -/
theorem missedBoundaries_frame (ev : Ev) : Frame F True True ev.s (missedBoundaries ev).s := by
  unfold missedBoundaries
  split
  · exact .refl _
  · exact ite_frame (.refl _) (ite_frame (missedLoaded_frame _ _) (missedUnloaded_frame _ _))

end

/-! ### The Compressor Duty Manager at a start -/

theorem fitUnit_false_state (ev : Ev) (u : Nat) :
    (fitUnit false ev u).s = { ev.s with cdm := (fitUnit false ev u).s.cdm } := by
  cases hd : ev.s.unitDef u with
  | none => rw [fitUnit_absent hd]; rfl
  | some d =>
    cases present : (ev.s.unit u).present with
    | true => rw [fitUnit_stays hd present]
    | false =>
      rw [fitUnit_comes hd present, Bool.false_and, if_neg Bool.false_ne_true, Ev.map_s, State.bringIn]
      cases d.duty <;> rfl

/-- At a start the units are fitted to the group and nothing is told. -/
theorem fitUnits_false_state (ev : Ev) : (fitUnits false ev).s = { ev.s with cdm := (fitUnits false ev).s.cdm } :=
  foldl_rel (R := fun a b => b.s = { a.s with cdm := b.s.cdm }) (fun _ => rfl)
    (fun h k => k.trans (by rw [h])) fitUnit_false_state _ ev

theorem startCdm_state (s : State) (cold : Bool) : s.startCdm cold = { s with cdm := (s.startCdm cold).cdm } := by
  unfold State.startCdm
  dsimp only
  rw [fitUnits_false_state]
  rfl

/-! ### The beginning of a start (R172, R174, R175) -/

section
variable (s : State) (cold : Bool)

/-- The Compressor Duty Manager as the start restores it, by the clock that the meters keep. -/
def State.cdmRestored : Cdm := (((s.startMu cold).startCvc cold).startCdm cold).cdm

/-- Every block is restored from its own record and the meters'. -/
theorem restoreBlocks_eq : s.restoreBlocks cold = ({ s with
    mu := (s.startMu cold).mu, cvc := ((s.startMu cold).startCvc cold).cvc, cdm := s.cdmRestored cold
    dtc := ((s.startMu cold).startDtc cold).dtc, acb := (s.startAcb cold).acb
    fpl := (s.startMu cold).startFpl.fpl, su := (s.startSu cold).su, wnu := (s.startWnu cold).wnu
    tru := (s.startTru cold).tru, slu := s.startSlu.slu } : State).disarm := by
  rw [State.restoreBlocks, startCdm_state, ← State.cdmRestored]
  cases cold <;> rfl

end

section
variable (s : State) (p : Bool)

/-- The blocks as the beginning of a start restores them, before the book and the missed boundaries. -/
def State.restored : State := ((s.startGroups p).startPst p).restoreBlocks !(s.startGroups p).domainValid

theorem beginStart_eq :
    beginStart p s = (missedBoundaries (siteToBook s.site true (s.restored p).ev)).finish := rfl

theorem restored_pst : (s.restored p).pst = ((s.startGroups p).startPst p).pst := by
  rw [State.restored, restoreBlocks_eq]
  rfl

theorem restored_phase : (s.restored p).phase = .starting p := by
  rw [State.restored, restoreBlocks_eq]
  rfl

theorem beginStart_frame : Frame True True True (s.restored p) (beginStart p s) :=
  ((siteToBook_frame s.site true (s.restored p).ev).trans (missedBoundaries_frame _)).trans (finish_frame _)

theorem startGroups_domainValid : (s.startGroups p).domainValid = (s.pst.mark && s.pst.checkMatches) := by
  unfold State.startGroups State.judgePlant State.judgeCaverns
  split <;> dsimp only <;> split <;> rfl

theorem beginStart_phase : (beginStart p s).phase = .starting p :=
  (beginStart_frame s p).phase.trans (restored_phase s p)

theorem beginStart_startKind : (beginStart p s).pst.startKind =
    if s.pst.mark && s.pst.checkMatches then (if p then .retained else .controller) else .cold := by
  rw [(beginStart_frame s p).pst, restored_pst, ← startGroups_domainValid s p]
  rfl

end

/-! ### The completion of a start (R175) -/

section
variable (s : State)

/-- What the missed boundaries leave when a start completes. -/
def missedAtCompletion : Ev := missedBoundaries ({ s with phase := .running } : State).ev

/-- The blocks whose timers, supervision and records begin at the completion. -/
def State.taken (s : State) : State := ((((s.startFpl).superviseAll).completeStartDtc).startSlu).clearNotices

/-- The one event of a completion, up to its end. -/
def completion : Ev :=
  beginDue (readEsd ((List.range 6).foldl completeStartUnit
    (heldStep .start ((missedAtCompletion s).map State.taken))))

theorem completeStart_eq : completeStart s =
    [Group.site, Group.caverns, Group.plant].foldl reenterCommit (completion s).finish := rfl

/-- A held step and what follows it at the completion, from the blocks taken. -/
theorem completion_within : Within (missedAtCompletion s).s.taken (completion s).finish := by
  unfold completion
  refine finished (Within.trans ?_ (beginDue_within _))
  refine Within.trans ?_ (readEsd_within _)
  exact (heldStep_within .start ((missedAtCompletion s).map State.taken)).trans
    (foldl_within _ completeStartUnit_within _ _)

theorem reenterCommits_within (t : State) :
    Within t ([Group.site, Group.caverns, Group.plant].foldl reenterCommit t) :=
  ((reenterCommit_within t .site).trans (reenterCommit_within _ .caverns)).trans (reenterCommit_within _ .plant)

theorem completeStart_within : Within (missedAtCompletion s).s.taken (completeStart s) := by
  rw [completeStart_eq]
  exact (completion_within s).trans (reenterCommits_within _)

theorem taken_held (t : State) : t.taken.fpl.active = false := rfl

theorem completeStart_phase : (completeStart s).phase = .running := by
  rw [(completeStart_within s).phase]
  exact (missedBoundaries_within ({ s with phase := .running } : State).ev).phase

theorem completeStart_held : (completeStart s).fpl.active = false := (completeStart_within s).held (taken_held _)

end

end Sys2Proof.Machine
end

section
/-! PROOFS. The groups at a start (R173), and the supply and the reset input (R172). -/

namespace Sys2Proof.Machine

/-! ### One group -/

section
variable {α : Type} {power : Bool} {r : GroupRec α}

theorem load_checked {i : Image α} (h : r.image = some i) (checked : i.checked = true) :
    r.load = ⟨some i.contents, some .committed, some i⟩ := by
  rw [GroupRec.load, h]
  exact if_pos checked

theorem load_unchecked (h : ∀ i, r.image = some i → i.checked = false) : r.load = ⟨none, none, r.image⟩ := by
  unfold GroupRec.load
  split
  next i image => exact if_neg (by simp [h i image])
  next => rfl

theorem start_loads (h : power = true ∨ r.live = none) : r.start power = r.load := if_pos (by simpa using h)

theorem start_keeps (reset : power = false) (valid : r.live ≠ none) : r.start power = r :=
  if_neg (by simpa [reset] using valid)

end

/-! ### The judging of CAVERNS and PLANT -/

section
variable {s : State}

/-- A train's channels pass the rules against the groups in force. -/
def State.trainOk (s : State) (l : Plant) (n : Nat) : Prop :=
  (l.trains.getD n {}).present = true →
    trainChannelOk s l n (l.trains.getD n {}).dewChannel .dewpoint false = true ∧
    trainChannelOk s l n (l.trains.getD n {}).inletChannel .temperature true = true

theorem cavernsBreak_iff {l : List CavernDef} (h : s.pst.caverns.live = some l) :
    s.cavernsBreak = true ↔ ∃ c, c < 8 ∧ cavernChannelOk s l c = false := by
  simp [State.cavernsBreak, h]

theorem plantBreaks_iff {l : Plant} (h : s.pst.plant.live = some l) :
    s.plantBreaks = true ↔ ∃ n, n < 4 ∧ ¬s.trainOk l n := by
  simp [State.plantBreaks, State.trainOk, h, imp_iff_not_or]

/-- PLANT judged leaves every other group. -/
theorem judgePlant_eq : ∃ q, s.judgePlant = { s with pst := { s.pst with plant := q } } := by
  unfold State.judgePlant
  split
  · exact ⟨_, rfl⟩
  · exact ⟨s.pst.plant, rfl⟩

theorem judgeCaverns_eq : ∃ q, s.judgeCaverns = { s with pst := { s.pst with caverns := q } } := by
  unfold State.judgeCaverns
  dsimp only
  split
  · exact ⟨_, rfl⟩
  · exact ⟨s.pst.caverns, rfl⟩

/-- The groups loaded or kept by the start kind, before CAVERNS and PLANT are judged. -/
def State.loadGroups (s : State) (p : Bool) : State := { s with pst := { s.pst with
  site := s.pst.site.start p, caverns := s.pst.caverns.start p, plant := s.pst.plant.start p } }

theorem startGroups_site (p : Bool) : (s.startGroups p).pst.site = s.pst.site.start p := by
  obtain ⟨caverns, first⟩ := judgeCaverns_eq (s := s.loadGroups p)
  obtain ⟨plant, second⟩ := judgePlant_eq (s := (s.loadGroups p).judgeCaverns)
  rw [State.startGroups, ← State.loadGroups, second, first]
  rfl

theorem startGroups_caverns (p : Bool) : (s.startGroups p).pst.caverns = (s.loadGroups p).judgeCaverns.pst.caverns := by
  obtain ⟨plant, second⟩ := judgePlant_eq (s := (s.loadGroups p).judgeCaverns)
  rw [State.startGroups, ← State.loadGroups, second]

/-- What PLANT is judged against: SITE and the CAVERNS group as judged. -/
theorem startGroups_judged (p : Bool) : ({ s.startGroups p with
    pst := { (s.startGroups p).pst with plant := s.pst.plant.start p } } : State) =
    (s.loadGroups p).judgeCaverns := by
  obtain ⟨caverns, first⟩ := judgeCaverns_eq (s := s.loadGroups p)
  obtain ⟨plant, second⟩ := judgePlant_eq (s := (s.loadGroups p).judgeCaverns)
  rw [State.startGroups, ← State.loadGroups, second, first]
  rfl

theorem judgeCaverns_pst {q : GroupRec Plant} {l : List CavernDef} (live : s.pst.caverns.live = some l)
    (h : q = s.pst.plant.invalid) :
    let alone : State := { s with pst := { s.pst with plant := q } }
    ((∀ c, c < 8 → cavernChannelOk alone l c = true) → s.judgeCaverns.pst.caverns = s.pst.caverns) ∧
    ((∃ c, c < 8 ∧ cavernChannelOk alone l c = false) → s.judgeCaverns.pst.caverns = s.pst.caverns.invalid) := by
  intro alone
  subst h
  have breaks : alone.cavernsBreak = true ↔ ∃ c, c < 8 ∧ cavernChannelOk alone l c = false := cavernsBreak_iff live
  refine ⟨fun good => ?_, fun bad => ?_⟩
  · have sound : ¬alone.cavernsBreak = true := by
      rintro h
      obtain ⟨c, inside, bad⟩ := breaks.1 h
      exact Bool.false_ne_true (bad.symm.trans (good c inside))
    exact congrArg (fun t : State => t.pst.caverns) (if_neg sound)
  · exact congrArg (fun t : State => t.pst.caverns) (if_pos (breaks.2 bad))

theorem judgePlant_pst {l : Plant} (live : s.pst.plant.live = some l) :
    ((∀ n, n < 4 → s.trainOk l n) → s.judgePlant.pst.plant = s.pst.plant) ∧
    ((∃ n, n < 4 ∧ ¬s.trainOk l n) → s.judgePlant.pst.plant = s.pst.plant.invalid) := by
  have breaks := plantBreaks_iff live
  refine ⟨fun good => ?_, fun bad => ?_⟩
  · have sound : ¬s.plantBreaks = true := by
      rintro h
      obtain ⟨n, inside, bad⟩ := breaks.1 h
      exact bad (good n inside)
    exact congrArg (fun t : State => t.pst.plant) (if_neg sound)
  · exact congrArg (fun t : State => t.pst.plant) (if_pos (breaks.2 bad))

theorem judgeCaverns_plant : s.judgeCaverns.pst.plant = s.pst.plant := by
  obtain ⟨q, eq⟩ := judgeCaverns_eq (s := s)
  rw [eq]

end

/-! ### The three clauses -/

/-- The supply and the reset input: what each does by the phase it finds (R172). -/
theorem supply_and_reset (s : State) (p : Bool) :
    (s.phase = .off → s.resetInput = false → exec .mainSupplyUp s = .next (beginStart true s)) ∧
    (s.phase = .off → s.resetInput = true → exec .mainSupplyUp s = .next { s with phase := .held true }) ∧
    (s.phase ≠ .off → exec .mainSupplyUp s = .next s) ∧
    exec .mainSupplyLost s = .next { s with phase := .off } ∧
    (s.phase = .off → exec .backupSupplyLost s = .next { s with pst := { s.pst with mark := false } }) ∧
    (s.phase ≠ .off → exec .backupSupplyLost s = .next s) ∧
    (s.phase = .running → exec .resetInputAsserted s = .next { s with resetInput := true, phase := .held false }) ∧
    (s.phase = .starting p → exec .resetInputAsserted s = .next { s with resetInput := true, phase := .held p }) ∧
    (s.phase = .off → exec .resetInputAsserted s = .next { s with resetInput := true }) ∧
    (s.phase = .held p → s.resetInput = true →
      exec .resetInputReleased s = .next (beginStart p { s with resetInput := false })) ∧
    (s.phase = .off → exec .resetInputReleased s = .next { s with resetInput := false }) ∧
    (s.phase = .starting p → exec .startComplete s = .next (completeStart s)) ∧
    (s.phase = .running ∨ s.phase = .off → exec .startComplete s = .next s) := by
  have up : exec .mainSupplyUp s = execMainSupplyUp s := rfl
  have lost : exec .backupSupplyLost s = execBackupSupplyLost s := rfl
  have asserted : exec .resetInputAsserted s = execResetInputAsserted s := rfl
  have released : exec .resetInputReleased s = execResetInputReleased s := rfl
  have complete : exec .startComplete s = execStartComplete s := rfl
  refine ⟨fun off free => ?_, fun off held => ?_, fun on => ?_, rfl, fun off => ?_, fun on => ?_, fun run => ?_,
    fun starts => ?_, fun off => ?_, fun waits held => ?_, fun off => ?_, fun starts => ?_, fun h => ?_⟩
  · rw [up, execMainSupplyUp, if_pos off, if_neg (by simp [free])]
  · rw [up, execMainSupplyUp, if_pos off, if_pos held]
  · rw [up, execMainSupplyUp, if_neg on]
  · rw [lost, execBackupSupplyLost, if_pos off]
  · rw [lost, execBackupSupplyLost, if_neg on]
  · rw [asserted, execResetInputAsserted, run]
    rfl
  · rw [asserted, execResetInputAsserted, starts]
    rfl
  · rw [asserted, execResetInputAsserted, off, Phase.reset, ← off]
  · simp only [released, execResetInputReleased, waits, held, if_true]
  · simp only [released, execResetInputReleased, off]
  · simp only [complete, execStartComplete, starts]
  · rcases h with run | off
    · simp only [complete, execStartComplete, run]
    · simp only [complete, execStartComplete, off]

/-- The groups at a start: SITE as loaded, CAVERNS judged alone with it, PLANT judged after both (R173). -/
theorem groups_at_start (s : State) (p : Bool) :
    let g := s.startGroups p
    let alone : State :=
      { s with pst :=
        { s.pst with
          site := s.pst.site.start p, caverns := s.pst.caverns.start p
          plant := { s.pst.plant.start p with live := none, commit := none } } }
    let judged : State := { g with pst := { g.pst with plant := s.pst.plant.start p } }
    g.pst.site = s.pst.site.start p ∧
    (∀ l, (s.pst.caverns.start p).live = some l →
      ((∀ c, c < 8 → cavernChannelOk alone l c = true) → g.pst.caverns = s.pst.caverns.start p) ∧
      ((∃ c, c < 8 ∧ cavernChannelOk alone l c = false) →
        g.pst.caverns = (s.pst.caverns.start p).invalid)) ∧
    ∀ l, (s.pst.plant.start p).live = some l →
      ((∀ n, n < 4 → judged.trainOk l n) → g.pst.plant = s.pst.plant.start p) ∧
      ((∃ n, n < 4 ∧ ¬judged.trainOk l n) → g.pst.plant = (s.pst.plant.start p).invalid) := by
  intro g alone judged
  refine ⟨startGroups_site p, fun l live => ?_, fun l live => ?_⟩
  · have caverns : g.pst.caverns = _ := startGroups_caverns p
    rw [caverns]
    exact judgeCaverns_pst (s := s.loadGroups p) live rfl
  · have against : judged = (s.loadGroups p).judgeCaverns := startGroups_judged p
    have plant : (s.loadGroups p).judgeCaverns.pst.plant = s.pst.plant.start p := judgeCaverns_plant
    rw [against, ← plant]
    exact judgePlant_pst (by rw [plant]; exact live)

end Sys2Proof.Machine
end

section
/-! PROOFS. The blocks at a start, each from its own record and the start kind (R9, R11, R17, R18, R21, R37, R39, R60,
R61, R80, R102, R121, R140, R161, R162, R184). -/

namespace Sys2Proof.Machine

/-! ### Caverns (R21, R37, R39) -/

/-- A cavern's record as a start leaves it, in the state it takes. -/
def Cavern.restarted (r : Cavern) (cold present : Bool) (st : CavernState) : Cavern :=
  { r with
    present := present, state := st, target := none, command := .driveClose
    last := if cold then .none else r.last
    dwell := none, travel := none, injPermit := 0, wdPermit := 0, setpoint := 0, pressure := 0, quality := .lost
    envelope := .inside }

/-- The state that a start gives a cavern of the group in force. -/
def Cavern.stateAtStart (r : Cavern) (cold : Bool) (d : CavernDef) : CavernState :=
  if d.channel.isNone then .outOfService
  else if cold then .shut
  else if r.present then
    (if r.state = .outOfService ∨ r.state = .tripped ∨ r.state = .valveFault then r.state else .shut)
  else .outOfService

section
variable {r : Cavern} {cold : Bool}

theorem restart_state (r : Cavern) : (r.restart false).state =
    if r.state = .outOfService ∨ r.state = .tripped ∨ r.state = .valveFault then r.state else .shut := by
  cases h : r.state <;> simp [Cavern.restart, h]

theorem stateAtStart_still (d : CavernDef) : (r.stateAtStart cold d).flows = false := by
  unfold Cavern.stateAtStart
  repeat' split
  case isTrue.isTrue h => rcases h with h | h | h <;> rw [h] <;> rfl
  all_goals rfl

theorem fit_restart_absent (t : State) : (r.restart cold).fit t none cold = r.restarted cold false .outOfService := rfl

/-- A cavern of the group, fitted while every channel is LOST. -/
theorem fit_restart_present {t : State} {d : CavernDef} (lost : t.pressureOf d = (0, .lost)) :
    (r.restart cold).fit t (some d) cold = r.restarted cold true (r.stateAtStart cold d) := by
  have state : (if d.channel.isNone then CavernState.outOfService else if cold then .shut
      else if (r.restart cold).present then (r.restart cold).state else .outOfService) = r.stateAtStart cold d := by
    cases cold
    · rw [restart_state]
      rfl
    · rfl
  simp only [Cavern.fit, state, lost]
  rw [Cavern.recompute_still d (stateAtStart_still d)]
  simp [Cavern.restart, Cavern.restarted]

end

section
variable (s : State) (cold : Bool)

/-- The Cavern Controller restarted, its caverns still to be fitted to the group. -/
def State.cvcRestarted : State := { s.startMu cold with cvc :=
  { caverns := s.cvc.caverns.map (·.restart cold)
    injMerit := if cold then [] else s.cvc.injMerit
    wdMerit := if cold then [] else s.cvc.wdMerit } }

theorem cvcRestarted_lost (d : CavernDef) : (s.cvcRestarted cold).pressureOf d = (0, .lost) := by
  have blank (ch : Nat) : (s.cvcRestarted cold).chan ch = {} := by
    refine (List.getD_eq_getElem?_getD ..).trans ?_
    rw [State.cvcRestarted, State.startMu, List.getElem?_replicate]
    split <;> rfl
  unfold State.pressureOf
  split
  · rw [blank]
  · rfl

theorem restoreBlocks_cav {c : Nat} (h : c < s.cvc.caverns.length) : (s.restoreBlocks cold).cav c =
    ((s.cav c).restart cold).fit (s.cvcRestarted cold) (s.cavDef c) cold := by
  have cavs : (s.restoreBlocks cold).cav c = ((s.cvcRestarted cold).fitCaverns cold).cav c := by
    rw [restoreBlocks_eq]
    rfl
  rw [cavs]
  simp [State.fitCaverns, State.cvcRestarted, State.cav, h]
  rfl

theorem cvcRestarted_present (c : Nat) : ((s.cvcRestarted cold).cav c).present = (!cold && (s.cav c).present) := by
  simp only [State.cav, State.cvcRestarted, List.getD_eq_getElem?_getD, List.getElem?_map]
  cases s.cvc.caverns[c]? <;> simp [Cavern.restart]

/-- A merit list at a start: what it keeps of the group's caverns, and then those that it does not have (R37). -/
theorem restoreBlocks_merit : let merit (l : List Nat) : List Nat :=
      (if cold then [] else l).filter (fun c => (s.cavDef c).isSome) ++ (List.range 8).filter fun c =>
        (s.cavDef c).isSome && !(!cold && (s.cav c).present) && !(if cold then [] else l).contains c
    (s.restoreBlocks cold).cvc.injMerit = merit s.cvc.injMerit ∧
    (s.restoreBlocks cold).cvc.wdMerit = merit s.cvc.wdMerit := by
  intro merit
  have listed (l : List Nat) : fitMerit (s.cvcRestarted cold) (if cold then [] else l) = merit l := by
    simp only [fitMerit, cvcRestarted_present]
    rfl
  have lists : (s.restoreBlocks cold).cvc = ((s.cvcRestarted cold).fitCaverns cold).cvc := by
    rw [restoreBlocks_eq]
    rfl
  rw [lists]
  exact ⟨listed _, listed _⟩

end

/-! ### Compressor units and duties (R40, R60) -/

section
variable (s : State) (cold : Bool)

/-- Every unit settled in its state, as a start leaves it. -/
def State.settleUnits : State :=
  { s with cdm := { s.cdm with units := s.cdm.units.map (·.settleState cold) } }

/-- The Compressor Duty Manager restarted, its units still to be fitted to the group. -/
def State.cdmRestarted : State := { s with cdm :=
  { units := s.cdm.units.map (·.restart cold s.clock)
    inject := { order := if cold then [] else s.cdm.inject.order }
    boost := { order := if cold then [] else s.cdm.boost.order } } }

theorem startCdm_eq : s.startCdm cold = (fitUnits false (s.cdmRestarted cold).ev).s.settleUnits cold := by
  rw [State.startCdm, State.cdmRestarted, State.settleUnits]

variable {s cold} {u : Nat}

theorem cdmRestarted_unit (h : u < s.cdm.units.length) :
    (s.cdmRestarted cold).unit u = (s.unit u).restart cold s.clock := by
  simp [State.cdmRestarted, State.unit, h]

theorem settleUnits_unit (h : u < s.cdm.units.length) : (s.settleUnits cold).unit u = (s.unit u).settleState cold := by
  simp [State.settleUnits, State.unit, h]

theorem fitUnit_size (write : Bool) (ev : Ev) (u : Nat) :
    (fitUnit write ev u).s.cdm.units.length = ev.s.cdm.units.length :=
  (fitUnit_fitted write (Nat.succ_ne_self u) ev).size

/-- A unit as the start leaves it is the unit as it is fitted, settled in its state. -/
theorem startCdm_unit (six : u < 6) (h : u < s.cdm.units.length) : ∃ e : Ev,
    e.s.unit u = (s.unit u).restart cold s.clock ∧ e.s.unitDef u = s.unitDef u ∧ u < e.s.cdm.units.length ∧
    (s.startCdm cold).unit u = ((fitUnit false e u).s.unit u).settleState cold := by
  obtain ⟨e, before, after⟩ := (foldl_reaches UnitFitted.refl UnitFitted.trans
    (fun i j e ne => fitUnit_fitted false ne.symm e) u (List.range 6) List.nodup_range
    (s.cdmRestarted cold).ev).2 (List.mem_range.2 six)
  have inside : u < e.s.cdm.units.length := by
    rw [before.size]
    simpa [State.cdmRestarted] using h
  refine ⟨e, before.unit.trans (cdmRestarted_unit h), congrFun before.defs u, inside, ?_⟩
  have final : u < (fitUnits false (s.cdmRestarted cold).ev).s.cdm.units.length := by
    rw [fitUnits, after.size, (fitUnit_size false e u)]
    exact inside
  rw [startCdm_eq, ← after.unit, settleUnits_unit final]
  rfl

theorem startCdm_unit_absent (six : u < 6) (h : u < s.cdm.units.length) (gone : s.unitDef u = none) :
    (s.startCdm cold).unit u = ((s.unit u).restart cold s.clock).away := by
  obtain ⟨e, unit, defs, inside, fitted⟩ := startCdm_unit six h (cold := cold)
  rw [fitted, fitUnit_absent_unit inside (defs.trans gone), unit]
  cases cold <;> rfl

/-- A unit that is not there before the start, or in a COLD START, is brought in. -/
theorem startCdm_unit_comes (six : u < 6) (h : u < s.cdm.units.length) {d : UnitDef} (hd : s.unitDef u = some d)
    (absent : (!cold && (s.unit u).present) = false) : (s.startCdm cold).unit u =
      { (s.unit u).restart cold s.clock with
        present := true, state := if cold then .off else .resting, failures := 0, duty := d.duty } := by
  obtain ⟨e, unit, defs, inside, fitted⟩ := startCdm_unit six h (cold := cold)
  have gone : (e.s.unit u).present = false := by rw [unit]; exact absent
  rw [fitted, fitUnit_comes (defs.trans hd) gone, Bool.false_and, if_neg Bool.false_ne_true, Ev.map_s, bringIn_unit,
    State.unit_updUnit_self inside, unit]
  cases cold <;> rfl

/-- A unit that a retained start finds present stays, and rests unless it is out of use. -/
theorem startCdm_unit_stays (six : u < 6) (h : u < s.cdm.units.length) {d : UnitDef} (hd : s.unitDef u = some d)
    (present : (s.unit u).present = true) : (s.startCdm false).unit u =
      { (s.unit u).restart false s.clock with
        state := if (s.unit u).state = .maintenance ∨ (s.unit u).state = .lockedOut then (s.unit u).state
          else .resting } := by
  obtain ⟨e, unit, defs, inside, fitted⟩ := startCdm_unit six h (cold := false)
  rw [fitted, fitUnit_stays (defs.trans hd) (by rw [unit]; exact present), unit]
  cases state : (s.unit u).state <;> simp [CompUnit.settleState, CompUnit.restart, state]

/-! ### Duties -/

/-- A duty that runs nothing, with no demand and no timer: its list and nothing else. -/
def DutyRec.idle (q : DutyRec) : Prop :=
  q.running = [] ∧ q.demand = 0 ∧ q.startPending = none ∧ q.stopPending = none

theorem DutyRec.idle_eq {q : DutyRec} (h : q.idle) : q = { order := q.order } := by
  obtain ⟨order, running, demand, start, stop⟩ := q
  obtain ⟨rfl, rfl, rfl, rfl⟩ := h
  rfl

theorem leaveDuty_idle {q : Duty} (h : (s.duty q).idle) (u : Nat) : ((s.leaveDuty u).duty q).idle := by
  cases q <;> exact h

theorem leaveOrder_idle {q : Duty} (h : (s.duty q).idle) (u : Nat) : ((s.leaveOrder u).duty q).idle := by
  obtain ⟨running, rest⟩ := h
  have left : without (s.duty q).running u = [] := by rw [running]; rfl
  cases q <;> exact ⟨left, rest⟩

theorem fitUnit_idle {q : Duty} (ev : Ev) (u : Nat) (h : (ev.s.duty q).idle) :
    ((fitUnit false ev u).s.duty q).idle := by
  cases hd : ev.s.unitDef u with
  | none =>
    rw [fitUnit_absent hd]
    exact leaveOrder_idle (leaveDuty_idle (s := ev.s.updUnit u CompUnit.away) h u) u
  | some d =>
    cases present : (ev.s.unit u).present with
    | true => rwa [fitUnit_stays hd present]
    | false =>
      rw [fitUnit_comes hd present, Bool.false_and, if_neg Bool.false_ne_true, Ev.map_s, State.bringIn]
      have left := leaveDuty_idle h u
      cases d.duty <;> cases q <;> exact left

theorem fitUnits_idle {q : Duty} (ev : Ev) (h : (ev.s.duty q).idle) : ((fitUnits false ev).s.duty q).idle :=
  foldl_rel (R := fun a b => (a.s.duty q).idle → (b.s.duty q).idle) (fun _ => id) (fun f g x => g (f x)) fitUnit_idle
    _ ev h

theorem cdmRestarted_duty (q : Duty) :
    (s.cdmRestarted cold).duty q = { order := if cold then [] else (s.duty q).order } := by
  cases q <;> rfl

theorem cdmRestarted_present (u : Nat) :
    ((s.cdmRestarted cold).unit u).present = (!cold && (s.unit u).present) := by
  simp only [State.unit, State.cdmRestarted, List.getD_eq_getElem?_getD, List.getElem?_map]
  cases s.cdm.units[u]? <;> simp [CompUnit.restart]

theorem settleUnits_duty (q : Duty) : (s.settleUnits cold).duty q = s.duty q := by
  cases q <;> rfl

/-- A duty at a start: its list without the units that are not there, and with those that come at its end. -/
theorem startCdm_duty (q : Duty) : (s.startCdm cold).duty q =
    { order := (if cold then [] else (s.duty q).order).filter (fun u => decide (6 ≤ u) ||
          (s.unitDef u).isSome && (!cold && (s.unit u).present)) ++
        (List.range 6).filter fun u => (s.unitDef u).any fun d => !(!cold && (s.unit u).present) && d.duty == q } := by
  have idle : ((s.startCdm cold).duty q).idle := by
    rw [startCdm_eq, settleUnits_duty]
    exact fitUnits_idle _ (by rw [State.ev_s, cdmRestarted_duty]; exact ⟨rfl, rfl, rfl, rfl⟩)
  have keeps (u : Nat) : (s.cdmRestarted cold).keepsPlace u =
      ((s.unitDef u).isSome && (!cold && (s.unit u).present)) :=
    congrArg (_ && ·) (cdmRestarted_present u)
  have enters (u : Nat) : (s.cdmRestarted cold).entersDuty q u =
      (s.unitDef u).any fun d => !(!cold && (s.unit u).present) && d.duty == q := by
    rw [State.entersDuty, cdmRestarted_present]
    rfl
  have order := foldl_fitUnit_order false (s.cdmRestarted cold).ev q 6
  simp only [State.ev_s, keeps, funext enters, cdmRestarted_duty] at order
  rw [DutyRec.idle_eq idle, startCdm_eq, settleUnits_duty, fitUnits, order]

end

/-! ### Trains (R61, R80) -/

section
variable {s : State} {cold : Bool} {n : Nat}

theorem Train.fit_congr_clock {s t : State} (h : t.clock = s.clock) (d : Option TrainDef) (r : Train) :
    r.fit t d = r.fit s d := by
  unfold Train.fit Tower.unknownBed State.after
  rw [h]

theorem restoreBlocks_train (h : n < s.dtc.trains.length) : (s.restoreBlocks cold).train n =
    ((s.train n).restart cold).fit (s.restoreBlocks cold) (s.trainDef n) := by
  have trains : (s.restoreBlocks cold).train n = ((s.startMu cold).startDtc cold).train n := by
    rw [restoreBlocks_eq]
    rfl
  have inside : n < ({ s.startMu cold with dtc := { trains := s.dtc.trains.map (·.restart cold) } } :
      State).dtc.trains.length := by simpa using h
  have clock : (s.startMu cold).clock = (s.restoreBlocks cold).clock := by rw [restoreBlocks_eq]; rfl
  have restarted : ({ s.startMu cold with dtc := { trains := s.dtc.trains.map (·.restart cold) } } :
      State).train n = (s.train n).restart cold := by simp [State.train, h]
  refine trains.trans ((fitTrains_train inside).trans ?_)
  rw [restarted]
  exact Train.fit_congr_clock clock _ _

end

/-! ### The blocks of a state with valid or invalid retention -/

section
variable (s : State) (valid : Bool)

theorem restoreBlocks_pst (cold : Bool) : (s.restoreBlocks cold).pst = s.pst := by
  rw [restoreBlocks_eq]
  rfl

/-- The definitions in force are those of the groups that the start has loaded. -/
theorem restoreBlocks_defs (cold : Bool) : (s.restoreBlocks cold).cavDef = s.cavDef ∧
    (s.restoreBlocks cold).unitDef = s.unitDef ∧ (s.restoreBlocks cold).trainDef = s.trainDef := by
  have pst := restoreBlocks_pst s cold
  refine ⟨?_, ?_, trainDef_of_pst pst⟩
  · funext c
    rw [State.cavDef, State.cavDef, pst]
  · funext u
    rw [State.unitDef, State.unitDef, pst]

theorem restored_mu : (s.restoreBlocks (!valid)).mu = { s.mu with
    channels := List.replicate 16
      { mode := .live, raw := none, value := 0, quality := .lost, hold := none, good := 0, test := none
        check := none, passHeld := false }
    runs := s.mu.runs.map fun r =>
      { r with
        cv := if valid then r.cv else 0, acc := if valid then r.acc else 0
        unvalued := if valid then r.unvalued else 0, last := none, rate := 0, zero := none }
    pass := .none, boundaries := [], clock := if valid then s.mu.clock else 0#32, set := valid && s.mu.set } := by
  rw [restoreBlocks_eq]
  cases valid <;> rfl

theorem restored_caverns {c : Nat} (h : c < s.cvc.caverns.length) :
    let x := s.restoreBlocks (!valid)
    let r := s.cav c
    let out (present : Bool) (st : CavernState) : Cavern :=
      { r with
        present := present, state := st, target := none, command := .driveClose
        last := if valid then r.last else .none
        dwell := none, travel := none, injPermit := 0, wdPermit := 0, setpoint := 0, pressure := 0, quality := .lost
        envelope := .inside }
    (x.cavDef c = none → x.cav c = out false .outOfService) ∧
    ∀ d, x.cavDef c = some d →
      (d.channel = none → x.cav c = out true .outOfService) ∧
      (d.channel ≠ none → valid = false → x.cav c = out true .shut) ∧
      (d.channel ≠ none → valid = true → r.present = false → x.cav c = out true .outOfService) ∧
      (d.channel ≠ none → valid = true → r.present = true →
        x.cav c = out true (if r.state = .outOfService ∨ r.state = .tripped ∨ r.state = .valveFault then r.state
          else .shut)) := by
  intro x r out
  have defs : x.cavDef = s.cavDef := (restoreBlocks_defs s (!valid)).1
  rw [defs]
  have restarted (present : Bool) (st : CavernState) : r.restarted (!valid) present st = out present st := by
    cases valid <;> rfl
  have fitted := restoreBlocks_cav s (!valid) h
  refine ⟨fun gone => ?_, fun d hd => ?_⟩
  · rw [gone] at fitted
    exact (fitted.trans (fit_restart_absent _)).trans (restarted false _)
  · rw [hd, fit_restart_present (cvcRestarted_lost _ _ _)] at fitted
    have here {st : CavernState} (state : r.stateAtStart (!valid) d = st) : x.cav c = out true st := by
      rw [← state, ← restarted]
      exact fitted
    refine ⟨fun none => here ?_, fun some cold => here ?_, fun some kept absent => here ?_,
      fun some kept present => here ?_⟩
    · simp [Cavern.stateAtStart, none]
    · simp [Cavern.stateAtStart, some, cold]
    · simp [Cavern.stateAtStart, some, kept, absent]
    · simp [Cavern.stateAtStart, some, kept, present]

theorem restored_merit : let x := s.restoreBlocks (!valid)
    let merit (l : List Nat) : List Nat :=
      let kept := if valid then l else []
      kept.filter (fun c => (x.cavDef c).isSome) ++ (List.range 8).filter fun c =>
        (x.cavDef c).isSome && !(valid && (s.cav c).present) && !kept.contains c
    x.cvc.injMerit = merit s.cvc.injMerit ∧ x.cvc.wdMerit = merit s.cvc.wdMerit := by
  intro x
  have defs : x.cavDef = s.cavDef := (restoreBlocks_defs s (!valid)).1
  have lists := restoreBlocks_merit s (!valid)
  rw [defs]
  cases valid <;> exact lists

theorem restored_cdm : (s.restoreBlocks (!valid)).cdm =
    (((s.startMu (!valid)).startCvc (!valid)).startCdm (!valid)).cdm := by
  rw [restoreBlocks_eq]
  rfl

theorem restored_units {u : Nat} (six : u < 6) (h : u < s.cdm.units.length) :
    let x := s.restoreBlocks (!valid)
    let r := s.unit u
    let kept : CompUnit :=
      { r with
        command := .stop, start := none, stop := none, minRun := none, minRunTaken := false, rest := none
        failures := if valid then r.failures else 0
        history := if valid then r.history.dropWhile fun h => passed s.mu.clock (h + 3600#32) else []
        runSeconds := if valid then r.runSeconds else 0, startCount := if valid then r.startCount else 0 }
    (x.unitDef u = none → x.unit u = { kept with present := false, state := .maintenance }) ∧
    ∀ d, x.unitDef u = some d →
      (valid = false → x.unit u = { kept with present := true, state := .off, failures := 0, duty := d.duty }) ∧
      (valid = true → r.present = false → x.unit u =
        { kept with present := true, state := .resting, failures := 0, duty := d.duty }) ∧
      (valid = true → r.present = true → x.unit u =
        { kept with state :=
          if r.state = .maintenance ∨ r.state = .lockedOut then r.state else .resting }) := by
  intro x r kept
  have defs : x.unitDef = s.unitDef := (restoreBlocks_defs s (!valid)).2.1
  rw [defs]
  have unit : x.unit u = (((s.startMu (!valid)).startCvc (!valid)).startCdm (!valid)).unit u :=
    congrFun (unit_of_cdm (restored_cdm s valid)) u
  refine ⟨fun gone => ?_, fun d hd => ⟨fun cold => ?_, fun kept absent => ?_, fun kept present => ?_⟩⟩
  · refine unit.trans ((startCdm_unit_absent (s := (s.startMu (!valid)).startCvc (!valid)) six h gone).trans ?_)
    cases valid <;> rfl
  · subst cold
    exact unit.trans (startCdm_unit_comes (s := (s.startMu true).startCvc true) (cold := true) six h hd rfl)
  · subst kept
    exact unit.trans (startCdm_unit_comes (s := (s.startMu false).startCvc false) (cold := false) six h hd absent)
  · subst kept
    exact unit.trans (startCdm_unit_stays (s := (s.startMu false).startCvc false) six h hd present)

theorem restored_duty (q : Duty) : let x := s.restoreBlocks (!valid)
    x.duty q =
    { order :=
        (if valid then (s.duty q).order else []).filter
            (fun u => 6 ≤ u || (x.unitDef u).isSome && (s.unit u).present) ++
          (List.range 6).filter fun u => (x.unitDef u).any fun d =>
            !(valid && (s.unit u).present) && d.duty == q
      running := [], demand := 0, startPending := none, stopPending := none } := by
  intro x
  have defs : x.unitDef = s.unitDef := (restoreBlocks_defs s (!valid)).2.1
  have duty : x.duty q = _ := (congrFun (duty_of_cdm (restored_cdm s valid)) q).trans
    (startCdm_duty (s := (s.startMu (!valid)).startCvc (!valid)) (cold := !valid) q)
  rw [defs, duty]
  cases valid <;> rfl

theorem restored_trains {n : Nat} (h : n < s.dtc.trains.length) :
    let x := s.restoreBlocks (!valid)
    let r := s.train n
    let bed (w : Tower) : Tower :=
      { w with
        state := if valid then w.state else .regenerating, loading := if valid then w.loading else 0
        residue := if valid then w.residue else 0, step := none, inletOpen := false }
    let unknown (d : TrainDef) (w : Tower) : Tower :=
      { w with
        state := .regenerating, loading := 0, residue := 0, step := some (x.after d.regen), inletOpen := false }
    let idle (present : Bool) (a b : Tower) : Train :=
      { present := present, inService := false, offSpec := false, offSpecDeadline := none, switch := none, towerA := a
        towerB := b }
    (x.trainDef n = none → x.train n = idle false (bed r.towerA) (bed r.towerB)) ∧
    ∀ d, x.trainDef n = some d →
      (valid = true → r.present = true → x.train n = idle true (bed r.towerA) (bed r.towerB)) ∧
      (valid = false ∨ r.present = false → x.train n = idle true (unknown d r.towerA) (unknown d r.towerB)) := by
  intro x r bed unknown idle
  have defs : x.trainDef = s.trainDef := (restoreBlocks_defs s (!valid)).2.2
  rw [defs]
  have fitted : x.train n = _ := restoreBlocks_train h
  refine ⟨fun gone => ?_, fun d hd => ⟨fun kept present => ?_, fun lost => ?_⟩⟩
  · rw [fitted, gone, Train.fit_goes]
    cases valid <;> rfl
  · subst kept
    rw [hd] at fitted
    have whole : r.restart false = idle true (bed r.towerA) (bed r.towerB) := by
      rw [Train.restart, present]
      rfl
    exact (fitted.trans (Train.fit_stays _ d (r := r.restart false) present)).trans whole
  · have away : (r.restart (!valid)).present = false := by
      rcases lost with cold | absent
      · rw [cold]; rfl
      · exact (congrArg (!(!valid) && ·) absent).trans (Bool.and_false _)
    rw [fitted, hd, Train.fit_comes _ _ away]
    rfl

theorem restored_watches : (s.restoreBlocks (!valid)).wnu.watches =
    if valid then s.wnu.watches.map fun w =>
      { w with
        latch := none
        state := if (w.state = .armed ∨ w.state = .fired) ∧
            w.defn.any (fun d => (s.restoreBlocks (!valid)).sourceGone d.source) = true then .disarmed
          else w.state }
    else List.replicate 24 {} := by
  have disarmed : (s.restoreBlocks (!valid)).wnu.watches = (s.startWnu (!valid)).wnu.watches.map fun w =>
      { w with
        state := if (w.state = .armed ∨ w.state = .fired) ∧
            w.defn.any (fun d => (s.restoreBlocks (!valid)).sourceGone d.source) = true then .disarmed
          else w.state } := by
    rw [restoreBlocks_eq, disarm_sourceGone]
    exact disarm_watches _
  rw [disarmed]
  cases valid
  · rfl
  · exact List.map_map

/-- The blocks that a start keeps whole or clears whole, and the deadline of the dispatch. -/
theorem restored_others : let x := s.restoreBlocks (!valid)
    (valid = true → x.acb = s.acb ∧ x.su = { s.su with missedTaken := 0 } ∧
      x.tru = { s.tru with headerAbove := false }) ∧
    (valid = false → x.acb = {} ∧ x.su = {} ∧ x.tru = { esd := s.tru.esd }) ∧
    x.wnu.channels = List.replicate 3 {} ∧ x.slu = { rate := (x.pst.site.live.map Site.linkRate).getD 1 } ∧
    x.fpl = { dispatch := x.pst.site.live.map fun q => x.after q.dispatchInterval } := by
  intro x
  have blocks : x = _ := restoreBlocks_eq s (!valid)
  rw [blocks]
  refine ⟨?_, ?_, rfl, rfl, rfl⟩
  · rintro rfl
    exact ⟨rfl, rfl, rfl⟩
  · rintro rfl
    exact ⟨rfl, rfl, rfl⟩

end

/-! ### The beginning of a start -/

section
variable (s : State) (p : Bool)

/-- The phase of a start, and the store with which its blocks are restored. -/
def State.startingWith (q : Pst) : State := { s with phase := .starting p, pst := q }

/-- The groups and the Profile Store at a start are all that the blocks are restored with. -/
theorem startPst_eq : ∃ q, (s.startGroups p).startPst p = s.startingWith p q := by
  obtain ⟨caverns, first⟩ := judgeCaverns_eq (s := s.loadGroups p)
  obtain ⟨plant, second⟩ := judgePlant_eq (s := (s.loadGroups p).judgeCaverns)
  rw [State.startGroups, ← State.loadGroups, second, first]
  exact ⟨_, rfl⟩

/-- What a start begins with, block by block. -/
theorem blocks_at_start (valid : Bool) (h : (s.pst.mark && s.pst.checkMatches) = valid) :
    let x := ((s.startGroups p).startPst p).restoreBlocks (!valid)
    beginStart p s = (missedBoundaries (siteToBook s.site true x.ev)).finish ∧
    (siteToBook s.site true x.ev).s.su = x.su ∧
    (beginStart p s).su = (missedBoundaries (siteToBook s.site true x.ev)).s.su ∧
    x.pst = { (s.startGroups p).pst with
      staging := none, profile := none, settle := none, queue := [], writing := none
      startKind := if valid then (if p then .retained else .controller) else .cold
      mark := true, checkMatches := true } := by
  intro x
  have domain : (s.startGroups p).domainValid = valid := (startGroups_domainValid s p).trans h
  have begins : beginStart p s = (missedBoundaries (siteToBook s.site true x.ev)).finish := by
    rw [beginStart_eq, State.restored, domain]
  refine ⟨begins, siteToBook_su _ _ _, ?_, ?_⟩
  · rw [begins]
    exact (finish_frame (G := False) (B := False) _).su id
  · rw [restoreBlocks_pst, ← domain]
    rfl

end

end Sys2Proof.Machine
end

section
/-! PROOFS. A start's missed boundaries and skip (R136, R138, R139), and the units at its completion (R60). -/

namespace Sys2Proof.Machine

/-! ### The units at the completion (R60) -/

section
variable {ev : Ev} {u : Nat} {d : UnitDef}

theorem uncommanded_raised (u : Nat) (ev : Ev) :
    (uncommanded u ev).raised = ev.raised ++ [⟨.unitLockedOut, some u, .cause .uncommanded⟩] :=
  (raise_tripsOnly _ _ _ _).raised

theorem uncommanded_state (inside : u < ev.s.cdm.units.length) :
    ((uncommanded u ev).s.unit u).state = .lockedOut := by
  rw [unit_of_cdm (uncommanded_cdm u ev), State.lockOut, leaveOrder_unit, State.unit_updUnit_self inside]

/-- A unit at the completion of a start, by its state and its running feedback. -/
theorem unit_at_completion (inside : u < ev.s.cdm.units.length) (hd : ev.s.unitDef u = some d) :
    let r := ev.s.unit u
    let x := completeStartUnit ev u
    (r.state = .resting → r.feedback = true → x.s.unit u =
      { r with
        command := .stop, state := .stopping, start := none, minRun := none, minRunTaken := false
        stop := some (ev.s.after d.stopTimeout) }) ∧
    (r.state = .resting → r.feedback = false → x.s.unit u = { r with rest := some (ev.s.after d.minRest) }) ∧
    (r.state = .off → r.feedback = true → (x.s.unit u).state = .lockedOut ∧
      x.raised = ev.raised ++ [⟨.unitLockedOut, some u, .cause .uncommanded⟩]) ∧
    (r.state = .off → r.feedback = false → x = ev) ∧ (r.state ≠ .resting → r.state ≠ .off → x = ev) := by
  intro r x
  have rests (state : r.state = .resting) : x = if r.feedback then ev.map fun s => s.beginStop u
      else ev.map fun s => s.updUnit u fun y => { y with rest := s.restUntil u } := by
    simp only [x, completeStartUnit, show (ev.s.unit u).state = _ from state]
    rfl
  have off (state : r.state = .off) : x = if r.feedback then uncommanded u ev else ev := by
    simp only [x, completeStartUnit, show (ev.s.unit u).state = _ from state]
    rfl
  refine ⟨fun state runs => ?_, fun state still => ?_, fun state runs => ?_, fun state still => ?_,
    fun moves stands => ?_⟩
  · rw [rests state, if_pos runs]
    exact beginStop_unit inside hd
  · rw [rests state, if_neg (Bool.eq_false_iff.1 still), Ev.map_s, State.unit_updUnit_self inside, restUntil_of_def hd]
  · rw [off state, if_pos runs]
    exact ⟨uncommanded_state inside, uncommanded_raised u ev⟩
  · rw [off state, if_neg (Bool.eq_false_iff.1 still)]
  · simp only [x, completeStartUnit]
    split
    next state => exact absurd state moves
    next state => exact absurd state stands
    all_goals rfl

end

/-! ### The skip (R138) -/

section
variable (ev : Ev)

/-- The state with its book emptied, brought to the clock, and its accounts marked (R138). -/
def State.skipped (s : State) : State := { s with acb := { s.acb with
  running := slotOfClock s.startHour s.clock
  caps := List.replicate 48 s.nominal
  accounts := s.acb.accounts.map Account.skipped } }

theorem curtail_told (change : Nat → Option Nat) (e : Ev) (a : Nat) : WatchesTold e (curtail change e a) := by
  unfold curtail
  split
  · exact raise_told _ _ _ _
  · exact { toExtends := .refl e }

/-- The accounts of a skip, emptied and then marked, are the accounts skipped. -/
theorem emptied_marked (s : State) : (s.emptyBooks.runningFromClock.acb.accounts.map fun a =>
    { a with fuel := 0, mark := a.mark || a.state != .closed }) = s.skipped.acb.accounts := List.map_map

theorem skipBook_eq : skipBook ev = (List.range 32).foldl
    (curtail fun a => firstChange (ev.s.account a) (ev.s.skipped.account a)) { ev with s := ev.s.skipped } := by
  rw [skipBook, raiseCurtailments_eq]
  simp only [emptied_marked]
  rfl

theorem skipBook_told : WatchesTold { ev with s := ev.s.skipped } (skipBook ev) := by
  rw [skipBook_eq]
  exact foldl_rel (R := WatchesTold) (fun e => { toExtends := .refl e }) WatchesTold.trans (curtail_told _) _ _

theorem skipped_slot (s : State) (a k : Nat) : (s.skipped.account a).slot k = {} :=
  getD_map_sets (f := Account.skipped) (g := fun r => Account.slot r k) (d := {})
    (fun _ => Account.slot_default k) (Account.slot_default k) _ a

/-- The skip: the book emptied and brought to the clock, and a CURTAILMENT for each account with a nomination (R138). -/
theorem skip_of_book :
    let x := skipBook ev
    let now := ev.s.mu.clock.toNat
    let changed (a : Nat) : Option Nat := (List.range 48).find? fun k => ((ev.s.account a).slot k).c != 0
    x.s = { ev.s with wnu := x.s.wnu, slu := x.s.slu, acb := x.s.acb } ∧
    x.s.acb = { ev.s.acb with
      running := if ev.s.startHour * 3600 ≤ now then (now - ev.s.startHour * 3600) % 86400 / 3600 else now / 3600
      caps := List.replicate 48
        { inj := (ev.s.site.map Site.nomInj).getD 0, wd := (ev.s.site.map Site.nomWd).getD 0, declared := false }
      accounts := ev.s.acb.accounts.map fun a =>
        { a with
          book := List.replicate 48 {}, fuel := 0
          mark := a.mark || (a.book.any fun k => k.c != 0) || a.state != .closed } } ∧
    x.raised = ev.raised ++ (List.range 32).filterMap fun a =>
      (changed a).map fun k => ⟨.curtailment, some a, .slot k⟩ := by
  intro x now changed
  have told : x.s = _ := (skipBook_told ev).state
  have change (a : Nat) : firstChange (ev.s.account a) (ev.s.skipped.account a) = changed a := by
    simp only [firstChange, skipped_slot]
    rfl
  refine ⟨?_, ?_, ?_⟩
  · rw [told]
    rfl
  · rw [told]
    rfl
  · simp only [x, skipBook_eq, foldl_curtail_raised, change]

end

/-! ### The boundaries missed (R20, R136) -/

/-- The boundary `k` hours after the period that begins at `start`. -/
def boundary (start : Clk) (k : Nat) : Clk := BitVec.ofNat 32 ((start.toNat / 3600 + k) % 1193047 * 3600)

section
variable (start clock : Clk)

theorem boundary_toNat (k : Nat) : (boundary start k).toNat = (start.toNat / 3600 + k) % 1193047 * 3600 := by
  rw [boundary, BitVec.toNat_ofNat, Nat.mod_eq_of_lt]
  omega

theorem nextBoundary_boundary : nextBoundary start = boundary start 1 := by
  rw [nextBoundary, boundary, ← Nat.mul_mod_mul_right]

theorem boundary_boundary (j k : Nat) : boundary (boundary start j) k = boundary start (j + k) := by
  rw [boundary, boundary_toNat, Nat.mul_div_cancel _ (by decide : 0 < 3600), Nat.mod_add_mod, Nat.add_assoc]
  rfl

theorem boundariesAfter_eq (n : Nat) :
    boundariesAfter n start = (List.range n).map fun k => boundary start (k + 1) := by
  induction n generalizing start with
  | zero => rfl
  | succ n ih =>
    rw [boundariesAfter, ih, nextBoundary_boundary, List.range_succ_eq_map, List.map_cons, List.map_map]
    refine congrArg _ (List.map_congr_left fun k _ => ?_)
    rw [boundary_boundary, Nat.add_comm 1]
    rfl

theorem missedCount_eq : missedCount start clock =
    (if start.toNat ≤ clock.toNat then 0 else 1193047) + clock.toNat / 3600 - start.toNat / 3600 := by
  have low := start.isLt
  unfold missedCount
  split <;> omega

/-- The period in which the clock stands begins at the last boundary missed. -/
theorem periodStart_eq :
    periodStart clock = boundary start (missedCount start clock) := by
  have low := start.isLt
  have high := clock.isLt
  rw [periodStart, boundary]
  congr 2
  by_cases early : start.toNat ≤ clock.toNat
  · simp only [missedCount, early, if_true]
    omega
  · simp only [missedCount, early, if_false]
    omega

end

/-! ### A LOADED book (R136) -/

section
variable (s : State) (start : Clk)

/-- The first `m` missed boundaries after `start` entered for closing, the first of this start METERED. -/
def State.missedEntered (m : Nat) : State := { s with
  mu := if 0 < m ∧ s.su.missedTaken = 0 then s.keepResidues.mu else s.mu
  su := { s.su with
    lastNumber := s.su.lastNumber + m, missedTaken := s.su.missedTaken + m
    openStart := some (if m = 0 then start else boundary start m)
    due := s.su.due ++ (List.range m).map fun k =>
      { number := s.su.lastNumber + 1 + k, start := if k = 0 then start else boundary start k
        snapshot := if k = 0 ∧ s.su.missedTaken = 0 then some s.meterSnapshot else none } } }

variable {s start}

theorem missedEntered_zero (h : s.su.openStart = some start) : s.missedEntered start 0 = s := by
  rw [State.missedEntered]
  simp [← h]

/-- The first boundary of a start is entered METERED. -/
theorem enterMissed_metered (fresh : s.su.missedTaken = 0) (b : Clk) : s.enterMissed b = { s with
    mu := s.keepResidues.mu
    su := { s.su with
      lastNumber := s.su.lastNumber + 1, openStart := some b, missedTaken := s.su.missedTaken + 1
      due := s.su.due ++ [{ number := s.su.lastNumber + 1, start := s.su.openStart.getD b
                            snapshot := some s.meterSnapshot }] } } := by
  rw [State.enterMissed, beq_iff_eq.2 fresh]
  rfl

/-- Every later one is entered UNMETERED. -/
theorem enterMissed_unmetered (later : s.su.missedTaken ≠ 0) (b : Clk) : s.enterMissed b = { s with su := { s.su with
    lastNumber := s.su.lastNumber + 1, openStart := some b, missedTaken := s.su.missedTaken + 1
    due := s.su.due ++ [{ number := s.su.lastNumber + 1, start := s.su.openStart.getD b, snapshot := none }] } } := by
  rw [State.enterMissed, beq_eq_false_iff_ne.2 later]
  rfl

theorem missedEntered_first (h : s.su.openStart = some start) (fresh : s.su.missedTaken = 0) :
    s.enterMissed (boundary start 1) = s.missedEntered start 1 := by
  rw [enterMissed_metered fresh, State.missedEntered]
  simp [fresh, h]

theorem missedEntered_later {m : Nat} (h : ¬(m = 0 ∧ s.su.missedTaken = 0)) :
    (s.missedEntered start m).enterMissed (boundary start (m + 1)) = s.missedEntered start (m + 1) := by
  have later : (s.missedEntered start m).su.missedTaken ≠ 0 := fun none => by
    simp only [State.missedEntered] at none
    omega
  have meters : (0 < m ∧ s.su.missedTaken = 0) ↔ (0 < m + 1 ∧ s.su.missedTaken = 0) := by omega
  rw [enterMissed_unmetered later]
  simp [State.missedEntered, meters, h, List.range_succ, Nat.add_right_comm _ 1 m, Nat.add_assoc]

theorem missedEntered_succ (h : s.su.openStart = some start) (m : Nat) :
    (s.missedEntered start m).enterMissed (boundary start (m + 1)) = s.missedEntered start (m + 1) := by
  by_cases first : m = 0 ∧ s.su.missedTaken = 0
  · obtain ⟨rfl, fresh⟩ := first
    rw [missedEntered_zero h]
    exact missedEntered_first h fresh
  · exact missedEntered_later first

theorem foldl_enterMissed (h : s.su.openStart = some start) (m : Nat) :
    (boundariesAfter m start).foldl State.enterMissed s = s.missedEntered start m := by
  rw [boundariesAfter_eq, List.foldl_map]
  induction m with
  | zero => exact (missedEntered_zero h).symm
  | succ m ih => rw [List.range_succ, List.foldl_append, ih, List.foldl_cons, List.foldl_nil, missedEntered_succ h]

end

section
variable {ev : Ev} {start : Clk}

theorem missedBoundaries_loaded (h : ev.s.su.openStart = some start) (set : ev.s.mu.set = true)
    (loaded : ev.s.acb.loaded = true) : missedBoundaries ev = ev.map (missedLoaded start) := by
  simp only [missedBoundaries, h, set, loaded]
  rfl

theorem missedBoundaries_unloaded (h : ev.s.su.openStart = some start) (set : ev.s.mu.set = true)
    (empty : ev.s.acb.loaded = false) : missedBoundaries ev = missedUnloaded start ev := by
  simp only [missedBoundaries, h, set, empty]
  rfl

theorem missedBoundaries_none (h : ev.s.su.openStart = none ∨ ev.s.mu.set = false) : missedBoundaries ev = ev := by
  unfold missedBoundaries
  split
  · rfl
  next start opened =>
    have unset : ev.s.mu.set = false := h.resolve_left (by simp [opened])
    rw [unset]
    rfl

/-- What a LOADED book makes of its missed boundaries: as many entered as there are places, and the rest skipped. -/
theorem missedLoaded_eq {s : State} (h : s.su.openStart = some start) :
    let n := missedCount start s.clock
    let taken := min n (48 - s.su.due.length)
    missedLoaded start s = { s.missedEntered start taken with su :=
      { (s.missedEntered start taken).su with
        skipped := s.su.skipped + (n - taken), openStart := some (if n = 0 then start else boundary start n) } } := by
  intro n taken
  have entered : (boundariesAfter taken start).foldl State.enterMissed s = s.missedEntered start taken :=
    foldl_enterMissed h taken
  have loaded : missedLoaded start s = if n = taken then s.missedEntered start taken
      else { s.missedEntered start taken with su :=
        { (s.missedEntered start taken).su with
          skipped := s.su.skipped + (n - taken), openStart := some (periodStart s.clock) } } := by
    rw [← entered]
    have skipped : ((boundariesAfter taken start).foldl State.enterMissed s).su.skipped = s.su.skipped := by
      rw [entered]
      rfl
    rw [← skipped]
    rfl
  rw [loaded]
  split
  next all =>
    rw [← all, Nat.sub_self]
    rfl
  next more =>
    have some : n ≠ 0 := by omega
    rw [if_neg some, periodStart_eq start s.clock]

/-! ### An UNLOADED book (R139) -/

theorem discardMissed_clock (e : Ev) (b : Clk) : (discardMissed e b).s.clock = e.s.clock := by
  unfold discardMissed discardBoundary unloadedBoundary
  rw [State.clock, (reconfirm_frame (F := False) (G := False) _ _).mu id, Ev.map_s,
    (advanceBook_frame (F := False) (G := False) _ _).mu id]
  rfl

theorem foldl_discardMissed_clock (l : List Clk) (e : Ev) : (l.foldl discardMissed e).s.clock = e.s.clock :=
  foldl_rel (R := fun a b => b.s.clock = a.s.clock) (fun _ => rfl) (fun h k => k.trans h) discardMissed_clock l e

/-- What an UNLOADED book makes of its missed boundaries: the first 48 of the start discarded singly, and one skip. -/
theorem missedUnloaded_eq :
    let n := missedCount start ev.s.clock
    let taken := min n (48 - ev.s.su.missedTaken)
    let y := ((List.range taken).map fun k => boundary start (k + 1)).foldl discardMissed ev
    (n = taken → missedUnloaded start ev = y) ∧
    (taken < n → missedUnloaded start ev =
      skipBook { y with s := { y.s with su := { y.s.su with openStart := some (boundary start n) } } }) := by
  intro n taken y
  have discarded : (boundariesAfter taken start).foldl discardMissed ev = y := by rw [boundariesAfter_eq]
  have unloaded : missedUnloaded start ev = if n = taken then y
      else skipBook { y with s := { y.s with su := { y.s.su with openStart := some (periodStart y.s.clock) } } } := by
    rw [← discarded]
    rfl
  refine ⟨fun all => unloaded.trans (if_pos all), fun more => ?_⟩
  rw [unloaded, if_neg more.ne', foldl_discardMissed_clock, periodStart_eq start]

end

/-- The missed boundaries of a start: none, those of a LOADED book, or those of an UNLOADED book (R136, R139). -/
theorem missed_boundaries (ev : Ev) :
    let m := missedBoundaries ev
    let su := ev.s.su
    (su.openStart = none ∨ ev.s.mu.set = false → m = ev) ∧
    ∀ start, su.openStart = some start → ev.s.mu.set = true →
      let now := ev.s.mu.clock.toNat
      let n : Nat := (if start.toNat ≤ now then 0 else 1193047) + now / 3600 - start.toNat / 3600
      let bound (k : Nat) : Clk := BitVec.ofNat 32 ((start.toNat / 3600 + k) % 1193047 * 3600)
      (ev.s.acb.loaded = true →
        let taken := min n (48 - su.due.length)
        m = { ev with s := { ev.s with
          mu := if 0 < taken ∧ su.missedTaken = 0 then ev.s.keepResidues.mu else ev.s.mu
          su := { su with
            lastNumber := su.lastNumber + taken, skipped := su.skipped + (n - taken)
            missedTaken := su.missedTaken + taken, openStart := some (if n = 0 then start else bound n)
            due := su.due ++ (List.range taken).map fun k =>
              { number := su.lastNumber + 1 + k, start := if k = 0 then start else bound k
                snapshot := if k = 0 ∧ su.missedTaken = 0 then some ev.s.meterSnapshot else none } } } }) ∧
      (ev.s.acb.loaded = false →
        let discard (e : Ev) (b : Clk) : Ev :=
          let day := b.toNat % 86400 == e.s.startHour * 3600 || b == 0#32
          let t := ({ e.s.keepResidues with
            su := { e.s.su with openStart := some b, missedTaken := e.s.su.missedTaken + 1 } } : State).advanceBook day
          reconfirm t.acb.running { e with s := t }
        let taken := min n (48 - su.missedTaken)
        let y := ((List.range taken).map fun k => bound (k + 1)).foldl discard ev
        (n = taken → m = y) ∧
        (taken < n →
          m = skipBook { y with s := { y.s with su := { y.s.su with openStart := some (bound n) } } })) := by
  intro m su
  refine ⟨missedBoundaries_none, fun start opened set => ?_⟩
  intro now n bound
  refine ⟨fun loaded => ?_, fun empty => ?_⟩
  · have entered := missedLoaded_eq opened
    rw [missedCount_eq] at entered
    exact (missedBoundaries_loaded opened set loaded).trans (congrArg (fun t => { ev with s := t }) entered)
  · have discarded := missedUnloaded_eq (ev := ev) (start := start)
    rw [missedCount_eq, ← missedBoundaries_unloaded opened set empty] at discarded
    exact discarded

end Sys2Proof.Machine
end

section
/-! PROOFS. The completion of a start (R60, R80, R136, R162, R170, R173, R184), and O53. -/

namespace Sys2Proof.Machine

/-! ### The link while no request waits -/

/-- With no request in the queue, the event leaves the link's record as it is. -/
structure Unheard (u v : Ev) : Prop where
  slu : u.s.slu.queue = [] → v.s.slu = u.s.slu := by exact fun _ => rfl

theorem Unheard.refl (u : Ev) : Unheard u u := {}

theorem Unheard.trans {u v w : Ev} (h : Unheard u v) (k : Unheard v w) : Unheard u w where
  slu empty := (k.slu (by rw [h.slu empty]; exact empty)).trans (h.slu empty)

theorem ite_unheard {p : Prop} [Decidable p] {u v w : Ev} (h : Unheard u v) (k : Unheard u w) :
    Unheard u (if p then v else w) := by
  split
  · exact h
  · exact k

theorem foldl_unheard {α : Type} {f : Ev → α → Ev} (each : ∀ u x, Unheard u (f u x)) (l : List α) (ev : Ev) :
    Unheard ev (l.foldl f ev) := foldl_rel Unheard.refl Unheard.trans each l ev

theorem answerAwaits_unheard {s : State} (empty : s.slu.queue = []) (w : Nat) : s.answerAwaits w = s := by
  rw [State.answerAwaits, empty]
  rfl

theorem firedState_slu {s : State} (empty : s.slu.queue = []) (w : Nat) (d : WatchDef) :
    (firedState w d s).slu = s.slu := by
  unfold firedState
  rw [answerAwaits_unheard (s := s.updWatch w _) empty]
  dsimp only
  split <;> split <;> rfl

theorem fireWatch_unheard (w : Nat) (d : WatchDef) (ev : Ev) : Unheard ev (fireWatch w d ev) where
  slu empty := by
    rw [fireWatch_eq]
    exact firedState_slu empty w d

theorem offerEvent_unheard (name : EventName) (index : Option Nat) (ev : Ev) (w : Nat) :
    Unheard ev (offerEvent name index ev w) := by
  unfold offerEvent
  dsimp only
  split
  · split
    · exact fireWatch_unheard _ _ _
    · exact .refl _
  · exact .refl _

theorem raise_unheard (name : EventName) (index : Option Nat) (ev : Ev) (data : EventData) :
    Unheard ev (raise name index ev data) :=
  Unheard.trans (v := { ev with raised := ev.raised ++ [⟨name, index, data⟩] }) {}
    (foldl_unheard (offerEvent_unheard name index) _ _)

theorem mapDuty_unheard (d : Duty) (f : DutyRec → DutyRec) (ev : Ev) :
    Unheard ev (ev.map fun s => s.updDuty d f) := ⟨fun _ => State.updDuty_slu _ _ _⟩

theorem startDecision_unheard (d : Duty) (ev : Ev) : Unheard ev (startDecision d ev) := by
  unfold startDecision
  split
  · dsimp only
    split <;> cases d <;> exact {}
  · exact (mapDuty_unheard d _ ev).trans (raise_unheard _ _ _ _)

theorem reviewStart_unheard (d : Duty) (ev : Ev) : Unheard ev (reviewStart d ev) :=
  ite_unheard (mapDuty_unheard d _ ev)
    (ite_unheard ((mapDuty_unheard d _ ev).trans (startDecision_unheard d _)) (mapDuty_unheard d _ ev))

theorem reviewStop_unheard (d : Duty) (ev : Ev) : Unheard ev (reviewStop d ev) := by
  unfold reviewStop
  dsimp only
  split
  · exact mapDuty_unheard d _ ev
  · refine ite_unheard (ite_unheard ?_ (mapDuty_unheard d _ ev)) (mapDuty_unheard d _ ev)
    cases d <;> exact {}

theorem handDemands_unheard (i b : Nat) (ev : Ev) : Unheard ev (handDemands i b ev) := by
  have reviewed (q : Duty) (e : Ev) : Unheard e (review q e) :=
    (reviewStart_unheard q e).trans (reviewStop_unheard q _)
  exact Unheard.trans {} ((reviewed .inject _).trans (reviewed .boost _))

theorem CavernsOnly.unheard {u v : Ev} (h : CavernsOnly u v) : Unheard u v where
  slu _ := by rw [h.state]

theorem heldStep_unheard (cause : StepCause) (ev : Ev) : Unheard ev (heldStep cause ev) := by
  unfold heldStep
  exact ((handDemands_unheard 0 0 ev).trans (distribute_only _ _ _).unheard).trans {}

theorem activeStep_unheard (cause : StepCause) (ev : Ev) : Unheard ev (activeStep cause ev) := by
  unfold activeStep
  exact ((handDemands_unheard _ _ ev).trans (distribute_only _ _ _).unheard).trans {}

theorem fplStep_unheard (cause : StepCause) (ev : Ev) : Unheard ev (fplStep cause ev) :=
  ite_unheard (activeStep_unheard cause ev) (heldStep_unheard cause ev)

theorem tripStation_unheard (ev : Ev) : Unheard ev (tripStation ev) := by
  obtain ⟨_, _, _, _, slu⟩ := tripStation_ends ev
  exact ⟨fun _ => slu⟩

theorem mapNotice_unheard (n : Nat) (src : NoticeSource) (code : Nat) (ev : Ev) :
    Unheard ev (ev.map fun s => s.joinNotice n src code) := ⟨fun _ => State.joinNotice_slu ev.s n src code⟩

theorem launchTrip_unheard (ev : Ev) (l : Launch) : Unheard ev (launchTrip ev l) := by
  unfold launchTrip
  dsimp only
  have recorded : Unheard ev (ev.map fun s => s.record l) := {}
  refine Unheard.trans ?_ (mapNotice_unheard _ _ _ _)
  split
  · exact recorded.trans (tripStation_unheard _)
  · exact recorded.trans (tripCavern_only _ _ _).unheard

theorem finishRounds_unheard (n : Nat) (ev : Ev) (empty : ev.s.slu.queue = []) :
    (finishRounds n ev).slu = ev.s.slu := by
  induction n generalizing ev with
  | zero => rfl
  | succ n ih =>
    have later {e : Ev} (step : Unheard ev e) : (finishRounds n e).slu = ev.s.slu :=
      (ih e (by rw [step.slu empty]; exact empty)).trans (step.slu empty)
    unfold finishRounds
    split
    · split
      · exact later (fplStep_unheard _ _)
      · rfl
    · exact later (Unheard.trans (v := { ev with launches := [] }) {} (foldl_unheard launchTrip_unheard _ _))

theorem completeStartUnit_unheard (ev : Ev) (u : Nat) : Unheard ev (completeStartUnit ev u) := by
  unfold completeStartUnit
  dsimp only
  split
  · exact ite_unheard {} {}
  · exact ite_unheard (Unheard.trans {} (raise_unheard _ _ _ _)) {}
  all_goals exact {}

theorem finish_unheard {ev : Ev} (empty : ev.s.slu.queue = []) : ev.finish.slu = ev.s.slu :=
  finishRounds_unheard 64 ev empty

/-! ### The station stays TRIPPED (R156) -/

theorem record_keeps_tripped (s : State) (l : Launch) : (s.record l).tru.tripped = s.tru.tripped := by
  unfold State.record Tru.place
  dsimp only
  split
  · rfl
  · split <;> rfl

theorem launchTrip_tripped (ev : Ev) (l : Launch) :
    (launchTrip ev l).s.tru.tripped = (l.scope.isNone || ev.s.tru.tripped) := by
  unfold launchTrip
  dsimp only
  rw [Ev.map_s, State.joinNotice_tru]
  cases l.scope with
  | none =>
    obtain ⟨_, _, tripped, _⟩ := tripStation_ends (ev.map fun s => s.record l)
    exact tripped
  | some c =>
    change (tripCavern false c (ev.map fun s => s.record l)).s.tru.tripped = _
    rw [(tripCavern_only false c (ev.map fun s => s.record l)).state]
    exact record_keeps_tripped ev.s l

theorem foldl_launchTrip_tripped (l : List Launch) (ev : Ev) :
    (l.foldl launchTrip ev).s.tru.tripped = ((l.any fun x => x.scope.isNone) || ev.s.tru.tripped) := by
  induction l generalizing ev with
  | nil => rfl
  | cons x l ih =>
    rw [List.foldl_cons, ih, launchTrip_tripped, List.any_cons, ← Bool.or_assoc, Bool.or_comm (l.any _)]

theorem finishRounds_stays_tripped (n : Nat) (ev : Ev) (h : ev.s.tru.tripped = true) :
    (finishRounds n ev).tru.tripped = true := by
  induction n generalizing ev with
  | zero => exact h
  | succ n ih =>
    unfold finishRounds
    split
    · split
      · exact ih _ ((fplStep_calm .restep ev).tripped.trans h)
      · exact h
    · refine ih _ ?_
      rw [foldl_launchTrip_tripped]
      exact Bool.or_eq_true_iff.2 (.inr h)

/-- A launch of station scope that is handed on trips the station by the event's end. -/
theorem finish_trips {ev : Ev} {l : Launch} (handed : l ∈ ev.launches) (station : l.scope = none) :
    ev.finish.tru.tripped = true := by
  rw [finish_of_launches (List.ne_nil_of_mem handed)]
  refine finishRounds_stays_tripped 64 _ ?_
  rw [foldl_launchTrip_tripped, Bool.or_eq_true, List.any_eq_true]
  exact .inl ⟨l, (sortLaunches_perm ev.launches).mem_iff.2 handed, by rw [station]; rfl⟩

/-! ### What the missed boundaries keep -/

section
variable (ev : Ev)

theorem discardMissed_dtc (e : Ev) (b : Clk) : (discardMissed e b).s.dtc = e.s.dtc := by
  unfold discardMissed discardBoundary unloadedBoundary
  rw [(reconfirm_frame (F := False) (G := False) _ _).dtc id, Ev.map_s,
    (advanceBook_frame (F := False) (G := False) _ _).dtc id]
  rfl

theorem missedEntered_clock (s : State) (start : Clk) (m : Nat) : (s.missedEntered start m).clock = s.clock := by
  have mu : (s.missedEntered start m).mu =
      if 0 < m ∧ s.su.missedTaken = 0 then s.keepResidues.mu else s.mu := rfl
  rw [State.clock, mu]
  split <;> rfl

theorem foldl_discardMissed_dtc (l : List Clk) (e : Ev) : (l.foldl discardMissed e).s.dtc = e.s.dtc :=
  foldl_rel (R := fun a b => b.s.dtc = a.s.dtc) (fun _ => rfl) (fun h k => k.trans h) discardMissed_dtc l e

theorem missedUnloaded_keeps (start : Clk) :
    (missedUnloaded start ev).s.dtc = ev.s.dtc ∧ (missedUnloaded start ev).s.clock = ev.s.clock := by
  unfold missedUnloaded
  dsimp only
  split
  · exact ⟨foldl_discardMissed_dtc _ ev, foldl_discardMissed_clock _ ev⟩
  · have skipped (e : Ev) := skipBook_frame (F := False) (G := False) e
    exact ⟨((skipped _).dtc id).trans (foldl_discardMissed_dtc _ ev),
      (congrArg Mu.clock ((skipped _).mu id)).trans (foldl_discardMissed_clock _ ev)⟩

/-- The trains and the clock are no concern of the missed boundaries. -/
theorem missedBoundaries_keeps :
    (missedBoundaries ev).s.dtc = ev.s.dtc ∧ (missedBoundaries ev).s.clock = ev.s.clock := by
  by_cases none : ev.s.su.openStart = none ∨ ev.s.mu.set = false
  · rw [missedBoundaries_none none]
    exact ⟨rfl, rfl⟩
  · obtain ⟨opened, set⟩ := not_or.1 none
    obtain ⟨start, opened⟩ := Option.ne_none_iff_exists'.1 opened
    rw [Bool.not_eq_false] at set
    cases loaded : ev.s.acb.loaded with
    | true =>
      rw [missedBoundaries_loaded opened set loaded, Ev.map_s, missedLoaded_eq opened]
      exact ⟨rfl, missedEntered_clock _ start _⟩
    | false =>
      rw [missedBoundaries_unloaded opened set loaded]
      exact missedUnloaded_keeps ev start

end

/-! ### The one event of the completion -/

section
variable (s : State)

/-- The completion up to the ESD input: the held step, and then the units by their running feedback. -/
def steppedAtCompletion : Ev :=
  (List.range 6).foldl completeStartUnit (heldStep .start ((missedAtCompletion s).map State.taken))

theorem completion_eq : completion s = beginDue (readEsd (steppedAtCompletion s)) := rfl

theorem completeStartUnit_frame {G B : Prop} (ev : Ev) (u : Nat) : Frame True G B ev.s (completeStartUnit ev u).s := by
  unfold completeStartUnit
  dsimp only
  split
  · exact ite_frame (updUnit_frame _ _ _) (updUnit_frame _ _ _)
  · exact ite_frame (uncommanded_frame _ _) (.refl _)
  all_goals exact .refl _

theorem steppedAtCompletion_frame {G B : Prop} :
    Frame True G B (missedAtCompletion s).s.taken (steppedAtCompletion s).s :=
  (heldStep_frame .start ((missedAtCompletion s).map State.taken)).trans
    (foldl_frame _ completeStartUnit_frame _ _)

theorem readEsd_state (ev : Ev) : (readEsd ev).s = ev.s := by
  unfold readEsd
  split <;> rfl

theorem beginDue_frame {F G : Prop} (ev : Ev) : Frame F G True ev.s (beginDue ev).s :=
  ite_frame (.refl _) (ite_frame (.refl _) (nextClose_frame _))

theorem completion_frame {G : Prop} : Frame True G True (missedAtCompletion s).s.taken (completion s).finish := by
  have began := beginDue_frame (F := True) (G := G) (readEsd (steppedAtCompletion s))
  rw [readEsd_state] at began
  rw [completion_eq]
  exact ((steppedAtCompletion_frame s).trans began).trans (finish_frame _)

theorem reenterCommit_eq (g : Group) : ∃ q, reenterCommit s g = { s with pst := q } := by
  unfold reenterCommit
  split
  · obtain ⟨w, q, eq⟩ := enterCommit_eq s g
    cases g <;> exact ⟨_, eq⟩
  · exact ⟨s.pst, rfl⟩

theorem completeStart_state : ∃ q, completeStart s = { (completion s).finish with pst := q } := by
  obtain ⟨_, site⟩ := reenterCommit_eq (completion s).finish .site
  obtain ⟨_, caverns⟩ := reenterCommit_eq (reenterCommit (completion s).finish .site) .caverns
  obtain ⟨q, plant⟩ := reenterCommit_eq (reenterCommit (reenterCommit (completion s).finish .site) .caverns) .plant
  refine ⟨q, ?_⟩
  rw [completeStart_eq, List.foldl_cons, List.foldl_cons, List.foldl_cons, List.foldl_nil, plant, caverns, site]

/-- The commit queue apart, a completion leaves what its one event leaves. -/
theorem completeStart_blocks : (completeStart s).dtc = (completion s).finish.dtc ∧
    (completeStart s).su = (completion s).finish.su ∧ (completeStart s).tru = (completion s).finish.tru ∧
    (completeStart s).slu = (completion s).finish.slu := by
  obtain ⟨q, eq⟩ := completeStart_state s
  generalize completeStart s = y at eq ⊢
  generalize (completion s).finish = x at eq ⊢
  subst eq
  exact ⟨rfl, rfl, rfl, rfl⟩

/-! ### What the completion leaves, block by block -/

theorem missedAtCompletion_pst : (missedAtCompletion s).s.pst = s.pst :=
  (missedBoundaries_frame (F := False) ({ s with phase := .running } : State).ev).pst

theorem missedAtCompletion_tru : (missedAtCompletion s).s.tru = s.tru :=
  (missedBoundaries_frame (F := False) ({ s with phase := .running } : State).ev).tru id

theorem missedAtCompletion_dtc : (missedAtCompletion s).s.dtc = s.dtc :=
  (missedBoundaries_keeps ({ s with phase := .running } : State).ev).1

theorem missedAtCompletion_clock : (missedAtCompletion s).s.clock = s.clock :=
  (missedBoundaries_keeps ({ s with phase := .running } : State).ev).2

theorem steppedAtCompletion_unheard :
    Unheard ((missedAtCompletion s).map State.taken) (steppedAtCompletion s) :=
  (heldStep_unheard .start _).trans (foldl_unheard completeStartUnit_unheard _ _)

theorem readEsd_unheard (ev : Ev) : Unheard ev (readEsd ev) := ⟨fun _ => congrArg State.slu (readEsd_state ev)⟩

theorem nextClose_slu (t : State) : t.nextClose.slu = t.slu := by
  unfold State.nextClose
  split <;> rfl

theorem beginDue_unheard (ev : Ev) : Unheard ev (beginDue ev) :=
  ite_unheard {} (ite_unheard {} ⟨fun _ => nextClose_slu ev.s⟩)

theorem completion_unheard : Unheard ((missedAtCompletion s).map State.taken) (completion s) := by
  rw [completion_eq]
  exact ((steppedAtCompletion_unheard s).trans (readEsd_unheard _)).trans (beginDue_unheard _)

/-- The link at the completion of a start: its rate, and nothing heard since (R184). -/
theorem completeStart_slu : (completeStart s).slu = { rate := (s.pst.site.live.map Site.linkRate).getD 1 } := by
  have begun : ((missedAtCompletion s).map State.taken).s.slu =
      { rate := (s.pst.site.live.map Site.linkRate).getD 1 } := by
    rw [← missedAtCompletion_pst s]
    rfl
  have empty : ((missedAtCompletion s).map State.taken).s.slu.queue = [] := by rw [begun]
  have quiet := (completion_unheard s).slu empty
  obtain ⟨-, -, -, left⟩ := completeStart_blocks s
  have finished : (completion s).finish.slu = (completion s).s.slu := finish_unheard (by rw [quiet]; exact empty)
  exact left.trans (finished.trans (quiet.trans begun))

theorem tower_completeStart (t : State) (d : Option TrainDef) (w : Tower) : w.completeStart t d = { w with
    inletOpen := if w.state = .adsorbing then true else w.inletOpen
    step := if w.state = .regenerating then (d.map fun k => some (t.after k.regen)).getD w.step
      else if w.state = .cooling then (d.map fun k => some (t.after k.cool)).getD w.step
      else w.step } := by
  obtain ⟨state⟩ := w
  cases state <;> cases d <;> rfl

theorem tower_completeStart_congr {t u : State} (h : t.clock = u.clock) (d : Option TrainDef) (w : Tower) :
    w.completeStart t d = w.completeStart u d := by
  have after (n : Nat) : t.after n = u.after n := congrArg (· + BitVec.ofNat 32 n) h
  simp only [tower_completeStart, after]

theorem taken_train {t : State} {n : Nat} (h : n < t.dtc.trains.length) : t.taken.train n = { t.train n with
    towerA := (t.train n).towerA.completeStart t (t.trainDef n)
    towerB := (t.train n).towerB.completeStart t (t.trainDef n) } := by
  have trains : t.taken.dtc.trains = t.dtc.trains.mapIdx fun n r =>
      { r with
        towerA := r.towerA.completeStart t.startFpl.superviseAll (t.trainDef n)
        towerB := r.towerB.completeStart t.startFpl.superviseAll (t.trainDef n) } := rfl
  have clock : t.startFpl.superviseAll.clock = t.clock := rfl
  simp [State.train, trains, h, tower_completeStart_congr clock]

/-- The trains at the completion of a start: the towers take up their timers (R80). -/
theorem completeStart_train {n : Nat} (h : n < s.dtc.trains.length) :
    let tower (d : Option TrainDef) (w : Tower) : Tower :=
      { w with
        inletOpen := if w.state = .adsorbing then true else w.inletOpen
        step := if w.state = .regenerating then (d.map fun k => some (s.after k.regen)).getD w.step
          else if w.state = .cooling then (d.map fun k => some (s.after k.cool)).getD w.step
          else w.step }
    (completeStart s).train n =
      { s.train n with
        towerA := tower (s.trainDef n) (s.train n).towerA, towerB := tower (s.trainDef n) (s.train n).towerB } := by
  intro tower
  obtain ⟨left, -⟩ := completeStart_blocks s
  have dtc : (completeStart s).dtc = (missedAtCompletion s).s.taken.dtc :=
    left.trans ((completion_frame (G := False) s).dtc id)
  have train : (missedAtCompletion s).s.train = s.train := by
    funext n
    rw [State.train, missedAtCompletion_dtc, State.train]
  have trainDef := trainDef_of_pst (missedAtCompletion_pst s)
  have taken := taken_train (t := (missedAtCompletion s).s) (n := n) (by rw [missedAtCompletion_dtc]; exact h)
  have timed (d : Option TrainDef) (w : Tower) : w.completeStart (missedAtCompletion s).s d = tower d w :=
    (tower_completeStart_congr (missedAtCompletion_clock s) d w).trans (tower_completeStart s d w)
  rw [train, trainDef, timed, timed] at taken
  exact (congrArg (fun x : Dtc => x.trains.getD n {}) dtc).trans taken

theorem completeStart_su : (completeStart s).su = (beginDue (readEsd (steppedAtCompletion s))).s.su := by
  obtain ⟨-, left, -⟩ := completeStart_blocks s
  rw [left, ← completion_eq]
  exact (finish_frame (G := False) (B := False) (completion s)).su id

theorem taken_su (t : State) : t.taken.su = t.su := rfl

theorem taken_acb (t : State) : t.taken.acb = t.acb := rfl

/-- What stands before the first close due begins. -/
theorem readEsd_book : (readEsd (steppedAtCompletion s)).s.su = (missedAtCompletion s).s.su ∧
    (readEsd (steppedAtCompletion s)).s.acb = (missedAtCompletion s).s.acb := by
  have frame := steppedAtCompletion_frame (G := False) (B := False) s
  rw [readEsd_state, frame.su id, frame.acb id, taken_su, taken_acb]
  exact ⟨rfl, rfl⟩

theorem beginDue_su_kept {ev : Ev} (h : ev.s.su.current ≠ none ∨ ev.s.su.due = []) :
    (beginDue ev).s.su = ev.s.su := by
  unfold beginDue
  split
  · rfl
  next idle =>
    split
    · rfl
    next due =>
      rcases h with flight | empty
      · exact absurd (Option.isSome_iff_ne_none.2 flight) idle
      · exact absurd (List.isEmpty_iff.2 empty) due

theorem beginDue_su_begins {ev : Ev} {d : Due} {rest : List Due} (idle : ev.s.su.current = none)
    (due : ev.s.su.due = d :: rest) : (beginDue ev).s.su =
      { ev.s.su with current := some { due := d, slot := ev.s.acb.running }, due := rest } := by
  have begins : beginDue ev = (ev.map State.nextClose).hand true := by
    rw [beginDue, if_neg (by simp [State.inFlight, idle]), if_neg (by simp [due])]
  rw [begins]
  exact congrArg State.su (nextClose_cons due)

/-- With a close in flight, or none due, the settlement is as the missed boundaries leave it (R136). -/
theorem completeStart_su_kept (h : (missedAtCompletion s).s.su.current ≠ none ∨ (missedAtCompletion s).s.su.due = []) :
    (completeStart s).su = (missedAtCompletion s).s.su := by
  obtain ⟨su, -⟩ := readEsd_book s
  rw [completeStart_su, beginDue_su_kept (by rw [su]; exact h), su]

theorem completeStart_su_begins {d : Due} {rest : List Due} (idle : (missedAtCompletion s).s.su.current = none)
    (due : (missedAtCompletion s).s.su.due = d :: rest) : (completeStart s).su =
      { (missedAtCompletion s).s.su with
        current := some { due := d, slot := (missedAtCompletion s).s.acb.running }, due := rest } := by
  obtain ⟨su, acb⟩ := readEsd_book s
  rw [completeStart_su, beginDue_su_begins (by rw [su]; exact idle) (by rw [su]; exact due), su, acb]

theorem completeStartUnit_tru (ev : Ev) (u : Nat) : (completeStartUnit ev u).s.tru = ev.s.tru := by
  have told : (uncommanded u ev).s.tru = ev.s.tru := by
    rw [uncommanded, (raise_told _ _ _ _).state]
    rfl
  unfold completeStartUnit
  dsimp only
  split
  · split <;> rfl
  · split
    · exact told
    · rfl
  all_goals rfl

theorem taken_tru (t : State) : t.taken.tru = t.tru := rfl

theorem foldl_completeStartUnit_tru (l : List Nat) (ev : Ev) : (l.foldl completeStartUnit ev).s.tru = ev.s.tru :=
  foldl_rel (R := fun a b => b.s.tru = a.s.tru) (fun _ => rfl) (fun h k => k.trans h) completeStartUnit_tru l ev

theorem steppedAtCompletion_tru : (steppedAtCompletion s).s.tru = s.tru := by
  rw [steppedAtCompletion, foldl_completeStartUnit_tru, (heldStep_demanded .start _).leaves, Ev.map_s]
  exact (taken_tru _).trans (missedAtCompletion_tru s)

/-- The ESD input, read asserted, trips the station by the end of the completion (R162). -/
theorem completeStart_trips (esd : s.tru.esd = true) (normal : s.tru.tripped = false) :
    (completeStart s).tru.tripped = true := by
  have launched : readEsd (steppedAtCompletion s) = (steppedAtCompletion s).launch { code := 0x010 } :=
    if_pos (by rw [steppedAtCompletion_tru, esd, normal]; rfl)
  have handed : ({ code := 0x010 } : Launch) ∈ (completion s).launches := by
    have kept (ev : Ev) : (beginDue ev).launches = ev.launches := by
      unfold beginDue
      split
      · rfl
      · split <;> rfl
    rw [completion_eq, kept, launched]
    exact List.mem_append_right _ (List.mem_singleton_self _)
  obtain ⟨-, -, left, -⟩ := completeStart_blocks s
  rw [left]
  exact finish_trips handed rfl

end

/-! ### The commit queue at the completion (R173) -/

section
variable (s : State)

/-- The groups of a list that are COMMITTING. -/
def State.committing (l : List Group) : List Group := l.filter fun g => s.groupCommit g == some .committing

variable {s}

theorem reenterCommit_enters {g : Group} (h : s.groupCommit g = some .committing) :
    reenterCommit s g = s.enterCommit g := if_pos h

theorem reenterCommit_passes {g : Group} (h : s.groupCommit g ≠ some .committing) : reenterCommit s g = s := if_neg h

/-- A group that enters the queue again is COMMITTING as before, and so are the others. -/
theorem reenterCommit_groupCommit (g h : Group) : (reenterCommit s g).groupCommit h = s.groupCommit h := by
  by_cases commits : s.groupCommit g = some .committing
  · rw [reenterCommit_enters commits]
    by_cases same : h = g
    · rw [same, groupCommit_enterCommit_self, commits]
    · obtain ⟨w, q, pst⟩ := enterCommit_pst g s
      have standing : (s.enterCommit g).pst.standing h = s.pst.standing h := by
        rw [pst, ← standing_withCommit_other same s.pst (some .committing)]
        cases h <;> rfl
      rw [standing_eq, standing_eq] at standing
      exact congrArg Prod.fst standing
  · rw [reenterCommit_passes commits]

theorem reenterCommit_committing (g : Group) (l : List Group) : (reenterCommit s g).committing l = s.committing l := by
  simp only [State.committing, reenterCommit_groupCommit]

/-- While a group is written, every COMMITTING group queues behind it. -/
theorem foldl_reenterCommit_busy (l : List Group) {h : Group} (busy : s.pst.writing = some h) :
    (l.foldl reenterCommit s).pst.writing = some h ∧
    (l.foldl reenterCommit s).pst.queue = s.pst.queue ++ s.committing l := by
  induction l generalizing s with
  | nil => exact ⟨busy, (List.append_nil _).symm⟩
  | cons g l ih =>
    by_cases commits : s.groupCommit g = some .committing
    · obtain ⟨writing, queue⟩ := enterCommit_busy g busy
      rw [← reenterCommit_enters commits] at writing queue
      obtain ⟨later, queued⟩ := ih writing
      refine ⟨later, queued.trans ?_⟩
      rw [queue, reenterCommit_committing, List.append_assoc]
      simp [State.committing, commits]
    · obtain ⟨later, queued⟩ := ih busy
      rw [List.foldl_cons, reenterCommit_passes commits]
      refine ⟨later, queued.trans ?_⟩
      simp [State.committing, commits]

/-- While none is written, the first COMMITTING group is written and the others queue behind it. -/
theorem foldl_reenterCommit_idle (l : List Group) (idle : s.pst.writing = none) (empty : s.pst.queue = []) :
    (l.foldl reenterCommit s).pst.writing = (s.committing l).head? ∧
    (l.foldl reenterCommit s).pst.queue = (s.committing l).tail := by
  induction l with
  | nil => exact ⟨idle, empty⟩
  | cons g l ih =>
    by_cases commits : s.groupCommit g = some .committing
    · have first : s.committing (g :: l) = g :: s.committing l := by simp [State.committing, commits]
      obtain ⟨writing, queue⟩ := enterCommit_idle g idle empty
      rw [← reenterCommit_enters commits] at writing queue
      obtain ⟨later, queued⟩ := foldl_reenterCommit_busy l writing
      rw [queue, reenterCommit_committing] at queued
      rw [first]
      exact ⟨later, queued⟩
    · have passed : s.committing (g :: l) = s.committing l := by simp [State.committing, commits]
      rw [List.foldl_cons, reenterCommit_passes commits, passed]
      exact ih

variable (s)

theorem completion_pst : (completion s).finish.pst = s.pst :=
  (completion_frame (G := False) s).pst.trans (missedAtCompletion_pst s)

/-- The COMMITTING groups that a start has kept enter the commit queue again. -/
theorem completeStart_commits (empty : s.pst.queue = []) (idle : s.pst.writing = none) :
    let commits := [Group.site, Group.caverns, Group.plant].filter fun g => s.groupCommit g == some .committing
    (completeStart s).pst.writing = commits.head? ∧ (completeStart s).pst.queue = commits.tail := by
  intro commits
  have pst := completion_pst s
  have same : (completion s).finish.committing [.site, .caverns, .plant] = commits := by
    have standing (g : Group) : (completion s).finish.groupCommit g = s.groupCommit g := by
      have standing := congrArg (Pst.standing · g) pst
      rw [standing_eq, standing_eq] at standing
      exact congrArg Prod.fst standing
    simp only [State.committing, standing]
    rfl
  rw [completeStart_eq, ← same]
  exact foldl_reenterCommit_idle _ (by rw [pst]; exact idle) (by rw [pst]; exact empty)

end

end Sys2Proof.Machine
end

section
/-! PROOFS. The beginning and the completion of a start: O53. -/

namespace Sys2Proof.Machine

/-- Settles O53: the supply and the reset input by the phase, the groups by what is loaded, each block from its own
record, the missed boundaries by induction on their number, and the completion by what each step leaves alone. -/
theorem startsBeginAndComplete : Obligations.StartsBeginAndComplete := by
  refine ⟨?supply, ?group, ?groups, ?blocks, fun _ _ _ => unit_at_completion, missed_boundaries, skip_of_book,
    ?completion⟩
  case supply =>
    intro s p
    obtain ⟨up, held, upAlready, lost, backup, backupKept, resets, abandons, whileOff, begins, released, completes,
      nothing⟩ := supply_and_reset s p
    exact ⟨up, held, upAlready, lost, backup, backupKept, resets, abandons, whileOff, begins, released, completes,
      nothing, beginStart_startKind s p, beginStart_phase s p, completeStart_phase s, completeStart_held s⟩
  case group =>
    intro α power r
    exact ⟨fun i loads image checked => (start_loads loads).trans (load_checked image checked),
      fun loads bad => (start_loads loads).trans (load_unchecked bad), start_keeps⟩
  case groups => exact groups_at_start
  case blocks =>
    intro s p valid h
    obtain ⟨begins, booked, ended, pst⟩ := blocks_at_start s p valid h
    refine ⟨begins, booked, ended, pst, ?_⟩
    obtain ⟨q, base⟩ := startPst_eq s p
    clear begins booked ended pst
    rw [base]
    obtain ⟨kept, cold, channels, slu, fpl⟩ := restored_others (s.startingWith p q) valid
    have watches := restored_watches (s.startingWith p q) valid
    refine ⟨restored_mu (s.startingWith p q) valid, fun c _ => restored_caverns (s.startingWith p q) valid,
      restored_merit (s.startingWith p q) valid, fun u six => restored_units (s.startingWith p q) valid six,
      restored_duty (s.startingWith p q) valid, fun n _ => restored_trains (s.startingWith p q) valid, ?_, ?_,
      channels, slu, fpl⟩
    · rintro rfl
      obtain ⟨acb, su, tru⟩ := kept rfl
      exact ⟨acb, su, tru, watches⟩
    · rintro rfl
      obtain ⟨acb, su, tru⟩ := cold rfl
      exact ⟨acb, su, tru, watches⟩
  case completion =>
    intro s
    exact ⟨completeStart_slu s, fun n => completeStart_train s, completeStart_su_kept s,
      fun d rest => completeStart_su_begins s, completeStart_trips s, completeStart_commits s⟩

end Sys2Proof.Machine
end

section
/-! PROOFS. A well-formed request's body: its length, and the request that it reads back as (11.2, 11.5, R178, R185,
R186). -/

namespace Sys2Proof

/-! ### What fits a field reads back from it (R185) -/

@[simp] theorem fits1_zero : fits1 0 = true := decide_eq_true (by decide : 0 < 256)

section
variable {n : Nat}

@[simp] theorem natOfBytes_of_fits1 (h : fits1 n = true) : natOfBytes (bytesOfNat 1 n) = n :=
  (natOfBytes_bytesOfNat 1 n).trans (Nat.mod_eq_of_lt (of_decide_eq_true h))

@[simp] theorem natOfBytes_of_fits2 (h : fits2 n = true) : natOfBytes (bytesOfNat 2 n) = n :=
  (natOfBytes_bytesOfNat 2 n).trans (Nat.mod_eq_of_lt (of_decide_eq_true h))

@[simp] theorem natOfBytes_of_fits3 (h : fits3 n = true) : natOfBytes (bytesOfNat 3 n) = n :=
  (natOfBytes_bytesOfNat 3 n).trans (Nat.mod_eq_of_lt (of_decide_eq_true h))

@[simp] theorem natOfBytes_of_fits4 (h : fits4 n = true) : natOfBytes (bytesOfNat 4 n) = n :=
  (natOfBytes_bytesOfNat 4 n).trans (Nat.mod_eq_of_lt (of_decide_eq_true h))

end

section
variable {v : Int}

@[simp] theorem intOfBytes_of_fitsSigned4 (h : fitsSigned4 v = true) : intOfBytes (bytesOfInt 4 v) = v := by
  simp only [fitsSigned4, Bool.and_eq_true, decide_eq_true_eq] at h
  exact intOfBytes_bytesOfInt 4 v (by omega) (by omega)

@[simp] theorem intOfBytes_of_fitsSigned8 (h : fitsSigned8 v = true) : intOfBytes (bytesOfInt 8 v) = v := by
  simp only [fitsSigned8, Bool.and_eq_true, decide_eq_true_eq] at h
  exact intOfBytes_bytesOfInt 8 v (by omega) (by omega)

end

/-! ### The fields of a body, one behind the other -/

/-- The last field of a body has nothing behind it. -/
@[simp] theorem field_last {a : List Byte} {w : Nat} (h : a.length = w) : field a 0 w = natOfBytes a := by
  rw [← field_here a [] w h, List.append_nil]

@[simp] theorem sfield_last {a : List Byte} {w : Nat} (h : a.length = w) : sfield a 0 w = intOfBytes a := by
  rw [← sfield_here a [] w h, List.append_nil]

/-- What follows some of a body's fields lies beyond each of them. -/
theorem drop_bytesOfNat_append (w n : Nat) (b : List Byte) {k : Nat} (h : w ≤ k) :
    (bytesOfNat w n ++ b).drop k = b.drop (k - w) := by
  rw [List.drop_append, length_bytesOfNat, List.drop_of_length_le (by rwa [length_bytesOfNat]), List.nil_append]

end Sys2Proof

namespace Sys2Proof.Machine

/-- Only lists, optional operands and profile contents make the length of a body vary. -/
theorem bodyLength_statement (c : Instr) : Laws.BodyLength.Statement c := by
  cases c with
  | setMeritOrder t d l => exact Laws.BodyLength.setMeritOrder t d l
  | setDutyOrder t d l => exact Laws.BodyLength.setDutyOrder t d l
  | readPeriod t n p => exact Laws.BodyLength.readPeriod t n p
  | ackNotice t n l => exact Laws.BodyLength.ackNotice t n l
  | readNoticeState t n => exact Laws.BodyLength.readNoticeState t n
  | writeProfile t g n l b => exact Laws.BodyLength.writeProfile t g n l b
  | _ => exact fun _ => rfl

/-- Every request carries its tag beside its other operands; an event has tag 0. -/
theorem fits1_tag {c : Instr} (h : c.wellFormed = true) : fits1 c.tag = true := by
  cases c <;> simp_all [Instr.wellFormed, Instr.tag]

section
variable {c : Instr} {k : Nat} (h : c.wellFormed = true) (kind : c.kind = some k)
include h kind

theorem lengthAllowed_body : lengthAllowed k c.body.length = true := by
  have allowed := bodyLength_statement c h
  rwa [kind] at allowed

/-- A body reads back field by field: each fits its width, and begins where the one before it ends. The cases are those
of a body's form: empty, of fixed widths, with a list behind the fields, with a last field that may be left out. -/
theorem decodeRequest_body : decodeRequest k c.tag c.body = some c := by
  cases c with
  | readDuty | accountsReady | readChanged | dispatchEnable | dispatchHold | readPlan | readOba | readWatches
  | holdNotices | releaseNotices | clearTrip | readTrip | identify | resetController =>
    cases kind
    rfl
  | readChannel | loopCheckBegin | loopCheckEnd | readMeter | setGasQuality | setClock | cavernServiceIn
  | cavernServiceOut | cavernEnable | cavernShut | readMeritOrder | readCavern | unitMaintenance | unitAvailable
  | resetLockout | setDuty | readUnit | trainOnline | trainOffline | forceSwitchover | resetTower | readTrain
  | openAccount | loadInventory | suspendAccount | resumeAccount | closeAccount | setRights | transfer | nominate
  | declareCapacity | readCapacity | readAccount | readBook | obaAdjust | setWatch | clearWatch | readWatch
  | awaitFlags | discardNotice | testNotice | readProfile =>
    cases kind
    simp_all [Instr.wellFormed, decodeRequest, Instr.tag, Instr.body, field_here, field_beyond, sfield_here,
      sfield_beyond]
  | setMeritOrder | setDutyOrder | ackNotice | writeProfile =>
    cases kind
    simp_all [Instr.wellFormed, decodeRequest, Instr.tag, Instr.body, field_here, field_beyond, indices_ofNat,
      drop_bytesOfNat_append]
  | readPeriod _ _ last | readNoticeState _ last =>
    cases kind
    cases last <;>
      simp_all [Instr.wellFormed, decodeRequest, Instr.tag, Instr.body, field_here, field_beyond]
  | _ => nomatch kind

end

end Sys2Proof.Machine
end

section
/-! PROOFS. A request's frame, received byte by byte, puts it into the queue: O55 (R177, R178). -/

namespace Sys2Proof

/-! ### The bytes of a frame (11.1) -/

/-- The bytes of a frame behind its start byte and its length byte. -/
def frameTail (kind tag : Nat) (body : List Byte) : List Byte := (frameBytes kind tag body).drop 2

section
variable {kind tag : Nat} {body : List Byte}

theorem frameBytes_eq :
    frameBytes kind tag body = 0x5A#8 :: BitVec.ofNat 8 body.length :: frameTail kind tag body := rfl

@[simp] theorem length_frameTail : (frameTail kind tag body).length = body.length + 4 := by
  simp [frameTail, frameBytes]

theorem toNat_lengthByte {n : Nat} (h : n ≤ 240) : (BitVec.ofNat 8 n).toNat = n :=
  Nat.mod_eq_of_lt (h.trans_lt (by decide))

/-- The length byte counts the body; kind, tag and CRC are 4 bytes more. -/
theorem frameWhole_cons (b : Byte) (l : List Byte) : frameWhole (b :: l) = true ↔ l.length = b.toNat + 4 := by
  simp [frameWhole]

/-- A frame as it is sent carries the CRC of its own bytes. -/
theorem frameParts_frameTail (hk : kind < 256) (ht : tag < 256) (hb : body.length ≤ 240) :
    frameParts (BitVec.ofNat 8 body.length :: frameTail kind tag body) = some (kind, tag, body) := by
  have crc (c : BitVec 16) : natOfBytes (bytesOfNat 2 c.toNat) = c.toNat :=
    (natOfBytes_bytesOfNat 2 _).trans (Nat.mod_eq_of_lt c.isLt)
  simp [frameTail, frameBytes, frameParts, toNat_lengthByte hb, crc, Nat.mod_eq_of_lt hk, Nat.mod_eq_of_lt ht]

end

end Sys2Proof

namespace Sys2Proof.Machine

/-! ### What the catalogue allows (11.5) -/

theorem catalogued_of_allowed {k n : Nat} (h : lengthAllowed k n = true) : k < 0x5A :=
  not_le.1 (mt kindLengths_of_large (kindLengths_of_allowed h))

/-- No kind allows a body longer than a frame may carry. -/
theorem short_of_allowed {k n : Nat} (h : lengthAllowed k n = true) : n ≤ 240 := by
  have longest : ∀ k < 0x5A, ∀ x ∈ kindLengths k, x.2 ≤ 240 := by decide
  obtain ⟨x, range⟩ := Option.ne_none_iff_exists'.1 (kindLengths_of_allowed h)
  have within := longest k (catalogued_of_allowed h) x range
  rw [lengthAllowed, range, Bool.and_eq_true, decide_eq_true_eq, decide_eq_true_eq] at h
  exact h.2.trans within

/-! ### Runs of the part -/

theorem run_of_step {m : Host.Core} {s t : m.State} (h : m.step s = .next t) (n : Nat) :
    m.run (n + 1) s = m.run n t := by
  rw [Host.Core.run, h]

theorem step_front {s : State} {c : Instr} {cs : List Instr} (front : s.pending = c :: cs) :
    step s = exec c { s with pending := cs } := by
  rw [step, front]

/-- A run takes the front command first. -/
theorem run_front {s t : State} {c : Instr} {cs : List Instr} (front : s.pending = c :: cs)
    (h : exec c { s with pending := cs } = .next t) (n : Nat) : core.run (n + 1) s = core.run n t :=
  run_of_step (m := core) ((step_front front).trans h) n

/-! ### Bytes that join a frame (R177) -/

/-- The receiver has gathered `l` by now, and the commands `cs` are still to come. -/
def State.gathered (s : State) (l : List Byte) (cs : List Instr) : State :=
  { s with pending := cs, slu := { s.slu with receiver := .inFrame l s.mu.ms } }

section
variable {s : State} (run : s.phase = .running)
include run

theorem exec_startByte (hunting : s.slu.receiver = .hunting) (cs : List Instr) :
    exec (.byteReceived 0x5A#8) { s with pending := cs } = .next (s.gathered [] cs) :=
  congrArg Host.Outcome.next ((onLink_running (s := { s with pending := cs }) run).trans
    ((receiveByte_hunting (s := { s with pending := cs }) hunting _).trans (huntByte_start _)))

/-- A byte joins a frame that is not whole. The first, the length byte, is no more than 240. -/
theorem exec_byte_gathered {l : List Byte} {b : Byte} (part : frameWhole l = false) (len : l = [] → b.toNat ≤ 240)
    (cs : List Instr) : exec (.byteReceived b) (s.gathered l cs) = .next (s.gathered (l ++ [b]) cs) :=
  congrArg Host.Outcome.next ((onLink_running (s := s.gathered l cs) run).trans
    ((receiveByte_inFrame (s := s.gathered l cs) (n := s.mu.ms) rfl part (Nat.le_add_right _ _) b).trans
      (if_neg fun long => (len long.1).not_gt long.2)))

/-- The bytes behind the length byte are gathered one after another, up to the end of the frame. -/
theorem run_gathers {len : Byte} (bs : List Byte) {l : List Byte} (short : l.length + bs.length ≤ len.toNat + 4)
    (cs : List Instr) (n : Nat) :
    core.run (bs.length + n) (s.gathered (len :: l) (bs.map Instr.byteReceived ++ cs)) =
      core.run n (s.gathered (len :: (l ++ bs)) cs) := by
  induction bs generalizing l with
  | nil =>
    rw [List.length_nil, Nat.zero_add, List.append_nil]
    rfl
  | cons b bs ih =>
    rw [List.length_cons] at short
    have part : frameWhole (len :: l) = false := by
      rw [Bool.eq_false_iff, Ne, frameWhole_cons]
      omega
    have joins := exec_byte_gathered run part (b := b) nofun (bs.map Instr.byteReceived ++ cs)
    have rest := ih (l := l ++ [b]) (by simpa [Nat.add_assoc, Nat.add_comm 1] using short)
    rw [List.append_assoc] at rest
    rw [List.length_cons, Nat.add_right_comm]
    exact (run_front rfl joins _).trans rest

/-- A hunting receiver gathers the bytes of a frame from its start byte to its end. -/
theorem run_receives (hunting : s.slu.receiver = .hunting) {len : Byte} {rest : List Byte} (short : len.toNat ≤ 240)
    (whole : rest.length = len.toNat + 4) (cs : List Instr) (n : Nat) :
    core.run ((0x5A#8 :: len :: rest).length + n)
        { s with pending := (0x5A#8 :: len :: rest).map Instr.byteReceived ++ cs } =
      core.run n (s.gathered (len :: rest) cs) := by
  rw [List.length_cons, List.length_cons, Nat.add_right_comm, Nat.add_right_comm rest.length]
  calc core.run (rest.length + n + 1 + 1)
        { s with pending := (0x5A#8 :: len :: rest).map Instr.byteReceived ++ cs }
    _ = core.run (rest.length + n + 1) (s.gathered [] (.byteReceived len :: (rest.map Instr.byteReceived ++ cs))) :=
      run_front (s := { s with pending := _ }) rfl (exec_startByte run hunting _) _
    _ = core.run (rest.length + n) (s.gathered [len] (rest.map Instr.byteReceived ++ cs)) :=
      run_front rfl (exec_byte_gathered run rfl (fun _ => short) _) _
    _ = core.run n (s.gathered (len :: rest) cs) :=
      run_gathers run rest (l := []) ((Nat.zero_add _).trans whole).le cs n

end

/-! ### The end of the frame (R178) -/

theorem hunt_gathered {s : State} (h : s.slu.receiver = .hunting) (l : List Byte) (cs : List Instr) :
    (s.gathered l cs).hunt = { s with pending := cs } :=
  hunt_of_hunting (s := { s with pending := cs }) h

section
variable {c : Instr} {k : Nat} (h : c.wellFormed = true) (kind : c.kind = some k)
include h kind

theorem judgeFrame_request (s : State) : s.judgeFrame k c.tag c.body = s.enqueue c k := by
  obtain ⟨x, reads, -, -, arrives⟩ := judgeFrame_allowed (s := s) (tag := c.tag) (lengthAllowed_body h kind)
  rwa [Option.some.inj (reads.symm.trans (decodeRequest_body h kind))] at arrives

/-- The end of the gathered frame of a request is the request's arrival. -/
theorem exec_frameReceived_request {s : State} (run : s.phase = .running) (stays : s.slu.resetPending = false)
    (hunting : s.slu.receiver = .hunting) (cs : List Instr) :
    exec .frameReceived (s.gathered (BitVec.ofNat 8 c.body.length :: frameTail k c.tag c.body) cs) =
      .next ({ s with pending := cs }.enqueue c k) := by
  have allowed := lengthAllowed_body h kind
  have short := short_of_allowed allowed
  have whole : frameWhole (BitVec.ofNat 8 c.body.length :: frameTail k c.tag c.body) = true := by
    rw [frameWhole_cons, length_frameTail, toNat_lengthByte short]
  have parts := frameParts_frameTail ((catalogued_of_allowed allowed).trans (by decide))
    (of_decide_eq_true (fits1_tag h)) short
  refine congrArg Host.Outcome.next ((onLink_running (s := s.gathered _ cs) run).trans ?_)
  rw [receiveFrame_whole rfl whole parts, hunt_gathered hunting, judgeFrame_request h kind]
  exact if_neg (Bool.eq_false_iff.1 stays)

end

/-- Settles O55: the receiver gathers the frame byte by byte, its end is judged, and what it carries reads back as the
request, which finds a place. -/
theorem requestBytesReachTheQueue : Obligations.RequestBytesReachTheQueue := by
  intro c k s h kind run stays hunting free
  rw [frameBytes_eq]
  have short := short_of_allowed (lengthAllowed_body h kind)
  have len := toNat_lengthByte short
  have gathered := run_receives run hunting (len.trans_le short) (rest := frameTail k c.tag c.body)
    (by rw [length_frameTail, len]) [.frameReceived] 1
  have arrives := run_front (s := s.gathered _ [.frameReceived]) rfl
    (exec_frameReceived_request h kind run stays hunting []) 0
  have place := enqueue_place (s := { s with pending := [] }) (c := c) (k := k) free
  exact (gathered.trans arrives).trans (congrArg Host.Outcome.next place)

end Sys2Proof.Machine
end

section
/-! PROOFS. The body of a well-formed request reads back as the request: O54 (11.2, 11.5, R185, R186). -/

namespace Sys2Proof.Machine

/-- Settles O54: `decodeRequest_body` reads the fields back by the form of the body. -/
theorem requestBodyReadsBack : Obligations.RequestBodyReadsBack :=
  fun _ _ valid kind => decodeRequest_body valid kind

end Sys2Proof.Machine
end

section
/-! PROOFS. The step at the front of the queue, and every command's next state: O1 and O2. -/

namespace Sys2Proof.Machine

/-- Settles O1: `step` is defined by the front of the queue. -/
theorem stepRunsFrontCommand : Obligations.StepRunsFrontCommand := fun _ _ _ => rfl

/-- No command stops the part. Three events look at the state before they say which next state it is. -/
theorem exec_next (c : Instr) (s : State) : ∃ t, exec c s = .next t := by
  cases c with
  | closeComplete =>
    change ∃ t, execCloseComplete s = .next t
    unfold execCloseComplete
    split <;> exact ⟨_, rfl⟩
  | resetInputReleased =>
    change ∃ t, execResetInputReleased s = .next t
    unfold execResetInputReleased
    dsimp only
    split <;> exact ⟨_, rfl⟩
  | startComplete =>
    change ∃ t, execStartComplete s = .next t
    unfold execStartComplete
    split <;> exact ⟨_, rfl⟩
  | _ => exact ⟨_, rfl⟩

/-- Settles O2: there is a next state, and every command keeps the waiting commands (`exec_keeps`). -/
theorem everyCommandAnswersNext : Obligations.EveryCommandAnswersNext := by
  intro c s
  obtain ⟨t, h⟩ := exec_next c s
  exact ⟨t, h, (exec_keeps h).pending⟩

end Sys2Proof.Machine
end

section
/-! PROOFS. What the requests and events of each family leave alone: caverns, units, planner and trips; measurement and
trains; the account book (`Frame`, one lemma for each request that changes anything). -/

namespace Sys2Proof.Machine

section
variable {F G B : Prop}

/-! ### Caverns -/

theorem takeCavernServiceIn_frame (c : Nat) (s : State) : Frame True G B s (takeCavernServiceIn c s).1.s :=
  onCavern_frame fun _ => refuseIf_frame (refuseIf_frame (changeCavern_frame _ _ s.ev))

theorem takeCavernServiceOut_frame (c d : Nat) (s : State) : Frame True G B s (takeCavernServiceOut c d s).1.s :=
  onCavern_frame fun _ => refuseIf_frame (changeCavern_frame _ _ s.ev)

theorem takeCavernEnable_frame (c : Nat) (s : State) : Frame True G B s (takeCavernEnable c s).1.s :=
  onCavern_frame fun _ => refuseIf_frame (refuseIf_frame (refuseIf_frame (refuseIf_frame
    (changeCavern_frame _ _ s.ev))))

theorem takeCavernShut_frame (c : Nat) (s : State) : Frame True G B s (takeCavernShut c s).1.s := by
  refine onCavern_frame fun d => ?_
  have closes : Frame True G B s (changeCavern c (·.beginClosing s d .shut) s.ev).s := changeCavern_frame _ _ s.ev
  cases (s.cav c).state with
  | opening | idle | injecting | withdrawing | dwell => exact closes
  | shut | closing | outOfService | tripped | valveFault => exact .refl s

theorem setMerit_frame (dir : Nat) (l : List Nat) (s : State) : Frame True G B s (s.setMerit dir l) :=
  iteState_frame {} {}

theorem takeSetMeritOrder_frame (dir : Nat) (l : List Nat) (s : State) :
    Frame True G B s (takeSetMeritOrder dir l s).1.s := by
  refine judged_frame (refuseIf_frame ?_)
  split
  · exact .refl s
  · exact setMerit_frame dir l s

/-! ### Compressors -/

theorem takeUnitMaintenance_frame (u : Nat) (s : State) : Frame True G B s (takeUnitMaintenance u s).1.s := by
  refine onUnit_frame ?_
  cases (s.unit u).state with
  | off | resting | failed | lockedOut => exact updUnit_frame _ _ _
  | maintenance | starting | running | stopping => exact .refl s

theorem takeUnitAvailable_frame (u : Nat) (s : State) : Frame True G B s (takeUnitAvailable u s).1.s :=
  onUnit_frame (refuseIf_frame (refuseIf_frame (refuseIf_frame (updUnit_frame _ _ _))))

theorem takeResetLockout_frame (u : Nat) (s : State) : Frame True G B s (takeResetLockout u s).1.s :=
  onUnit_frame (refuseIf_frame (refuseIf_frame (updUnit_frame _ _ _)))

theorem moveDuty_frame (s : State) (u : Nat) (d : Duty) : Frame True G B s (s.moveDuty u d) :=
  ((leaveDuty_frame s u).trans (updUnit_frame _ _ _)).trans (updDuty_frame _ _ _)

theorem takeSetDuty_frame (u d : Nat) (s : State) : Frame True G B s (takeSetDuty u d s).1.s := by
  refine onUnit_frame ?_
  split
  case h_4 => exact .refl s
  all_goals exact iteAnswer_frame (.refl s) (moveDuty_frame _ _ _)

theorem takeSetDutyOrder_frame (d : Nat) (l : List Nat) (s : State) :
    Frame True G B s (takeSetDutyOrder d l s).1.s := by
  refine judged_frame (refuseIf_frame ?_)
  split
  · exact .refl s
  · split
    · exact .refl s
    · exact mapDuty_frame s.ev _ _

/-! ### The planner and trips -/

theorem setActive_frame (s : State) (b : Bool) : Frame True G B s (s.setActive b) := {}

theorem takeDispatchEnable_frame (s : State) : Frame True G B s (takeDispatchEnable s).1.s := by
  refine iteAnswer_frame (.refl s) (refuseIf_frame (refuseIf_frame (refuseIf_frame (refuseIf_frame ?_))))
  split
  · exact .refl s
  · exact (setActive_frame s true).trans (activeStep_frame _ (State.ev _))

theorem takeDispatchHold_frame (s : State) : Frame True G B s (takeDispatchHold s).1.s :=
  ite_frame ((setActive_frame s false).trans (heldStep_frame _ (State.ev _))) (.refl s)

theorem clearTrip_frame (s : State) : Frame True G B s s.clearTrip := {}

theorem takeClearTrip_frame (s : State) : Frame True G B s (takeClearTrip s).1.s := by
  refine refuseIf_frame ?_
  split
  · exact .refl s
  · exact clearTrip_frame s

theorem esdChanged_frame (ev : Ev) : Frame F G B ev.s (esdChanged ev).s := ite_frame (.refl _) (.refl _)

/-! ### Measurement -/

theorem checkBegins_frame (ch i h : Nat) (ev : Ev) : Frame True True B ev.s (checkBegins ch i h ev).s :=
  ite_frame ((mapChan_frame _ _ _).trans (qualityChange_frame _ _)) (mapChan_frame _ _ _)

theorem takeLoopCheckBegin_frame (c i : Nat) (s : State) : Frame True True B s (takeLoopCheckBegin c i s).1.s := by
  refine judged_frame ?_
  split
  · exact .refl s
  · refine refuseIf_frame ?_
    split
    · exact .refl s
    · exact checkBegins_frame _ _ _ s.ev

theorem takeLoopCheckEnd_frame (c : Nat) (s : State) : Frame F True B s (takeLoopCheckEnd c s).1.s :=
  judged_frame (refuseIf_frame (mapChan_frame s.ev _ _))

theorem takeSetGasQuality_frame (r cv : Nat) (s : State) : Frame F True B s (takeSetGasQuality r cv s).1.s :=
  judged_frame (ite_frame ((mapRun_frame s.ev _ _).trans (addEnergy_frame _ _ _)) (mapRun_frame s.ev _ _))

theorem mapPass_frame (ev : Ev) (p : Pass) :
    Frame F True B ev.s (ev.map fun s => { s with mu := { s.mu with pass := p } }).s := {}

theorem setSource_frame (s : State) (x : ClockSource) :
    Frame F True B s { s with mu := { s.mu with source := x } } := {}

/-! ### Trains -/

theorem takeTrainOnline_frame (t : Nat) (s : State) : Frame F True B s (takeTrainOnline t s).1.s :=
  onTrain_frame fun _ => refuseIf_frame (refuseIf_frame (refuseIf_frame
    (iteAnswer_frame (.refl s) (intoService_frame _ _ s.ev))))

theorem takeTrainOffline_frame (t : Nat) (s : State) : Frame F True B s (takeTrainOffline t s).1.s :=
  onTrain_frame fun _ => iteAnswer_frame (changeTrain_frame t _ s.ev) (.refl s)

theorem takeForceSwitchover_frame (t : Nat) (s : State) : Frame F True B s (takeForceSwitchover t s).1.s := by
  refine onTrain_frame fun _ => refuseIf_frame ?_
  split
  · exact .refl s
  · exact beginSwitch_frame _ _ _ s.ev

theorem takeResetTower_frame (t w : Nat) (s : State) : Frame F True B s (takeResetTower t w s).1.s := by
  refine onTrain_frame fun _ => ?_
  split
  · exact .refl s
  · exact refuseIf_frame (changeTrain_frame t _ s.ev)

/-! ### The account book -/

theorem disarm_frame (s : State) : Frame F G B s s.disarm := {}

theorem loadBook_frame (s : State) : Frame F G True s s.loadBook := {}

theorem takeAccountsReady_frame (s : State) : Frame F G True s (takeAccountsReady s).1.s :=
  refuseIf_frame (ite_frame (.refl s) ((loadBook_frame s).trans (reconfirm_frame _ (State.ev _))))

/-- A change of one account, and the re-confirmation that it brings. -/
theorem updAccount_reconfirm_frame (s : State) (a h : Nat) (f : Account → Account) :
    Frame F G True s (reconfirm h (s.updAccount a f).ev).s :=
  (updAccount_frame s a f).trans (reconfirm_frame _ (State.ev _))

theorem takeOpenAccount_frame (a code cls sp rin rwd : Nat) (s : State) :
    Frame F G True s (takeOpenAccount a code cls sp rin rwd s).1.s :=
  onAccount_frame (refuseIf_frame (judged_frame (updAccount_frame s a _)))

theorem takeLoadInventory_frame (a i : Nat) (s : State) : Frame F G True s (takeLoadInventory a i s).1.s :=
  onAccount_frame (refuseIf_frame (refuseIf_frame
    (((updAccount_frame s a _).trans (setInventory_frame a i (s.mark a).ev)).trans (reconfirm_frame _ _))))

theorem takeSuspendAccount_frame (a : Nat) (s : State) : Frame F G True s (takeSuspendAccount a s).1.s := by
  refine onAccount_frame ?_
  cases (s.account a).state with
  | opened => exact updAccount_reconfirm_frame _ _ _ _
  | suspended | closed => exact .refl s

theorem takeResumeAccount_frame (a : Nat) (s : State) : Frame F G True s (takeResumeAccount a s).1.s := by
  refine onAccount_frame ?_
  cases (s.account a).state with
  | suspended => exact updAccount_reconfirm_frame _ _ _ _
  | opened | closed => exact .refl s

theorem takeCloseAccount_frame (a : Nat) (s : State) : Frame F G True s (takeCloseAccount a s).1.s := by
  refine onAccount_frame ?_
  split
  · exact .refl s
  · exact (updAccount_frame s a _).trans (disarm_frame _)

theorem takeSetRights_frame (a sp rin rwd : Nat) (s : State) : Frame F G True s (takeSetRights a sp rin rwd s).1.s :=
  onAccount_frame (refuseIf_frame (judged_frame (refuseIf_frame (updAccount_reconfirm_frame _ _ _ _))))

theorem takeTransfer_frame (a b q : Nat) (s : State) : Frame F G True s (takeTransfer a b q s).1.s :=
  judged_frame (refuseIf_frame (refuseIf_frame (refuseIf_frame
    (((setInventory_frame a _ s.ev).trans (setInventory_frame b _ _)).trans (reconfirm_frame _ _)))))

theorem takeNominate_frame (a k : Nat) (n : Int) (s : State) : Frame F G True s (takeNominate a k n s).1.s :=
  refuseIf_frame (judged_frame (refuseIf_frame (refuseIf_frame (updAccount_reconfirm_frame _ _ _ _))))

theorem setCaps_frame (s : State) (l : List CapSlot) : Frame F G True s { s with acb := { s.acb with caps := l } } := {}

theorem takeDeclareCapacity_frame (k i w : Nat) (s : State) : Frame F G True s (takeDeclareCapacity k i w s).1.s :=
  refuseIf_frame (judged_frame (refuseIf_frame ((setCaps_frame s _).trans (reconfirm_frame _ (State.ev _)))))

theorem takeReadChanged_frame (s : State) : Frame F G True s (takeReadChanged s).1.s := {}

theorem takeObaAdjust_frame (a : Nat) (q : Int) (s : State) : Frame F G True s (takeObaAdjust a q s).1.s :=
  onAccount_frame (refuseIf_frame (refuseIf_frame (refuseIf_frame
    ((((setInventory_frame a _ s.ev).trans (setBalance_frame _ _)).trans (reconfirm_frame _ _)).trans
      (raiseObaLimit_frame _)))))

theorem takeReadPeriod_frame (n : Nat) (p : Option Nat) (s : State) : Frame F G B s (takeReadPeriod n p s).1.s := by
  refine judged_frame ?_
  split
  · exact .refl s
  · exact judged_frame (.refl s)

end

/-! ### The whole command, by family -/

/-- What holds of the state a command leaves holds of its next state. -/
theorem of_next {P : State → Prop} {u t : State}
    (h : Host.Outcome.next u = (.next t : Host.Outcome State Fault Refusal)) (k : P u) : P t :=
  Host.Outcome.next.inj h ▸ k

/-- The commands of caverns, units, planner and trips stay with those blocks. -/
theorem exec_flowOnly_frame {c : Instr} {s t : State} (family : c.flowOnly = true) (h : exec c s = .next t) :
    Frame True False False s t := by
  cases c with
  | cavernServiceIn => exact of_next h (serveFlow_frame _ s (takeCavernServiceIn_frame _))
  | cavernServiceOut => exact of_next h (serveFlow_frame _ s (takeCavernServiceOut_frame _ _))
  | cavernEnable => exact of_next h (serveFlow_frame _ s (takeCavernEnable_frame _))
  | cavernShut => exact of_next h (serveFlow_frame _ s (takeCavernShut_frame _))
  | setMeritOrder => exact of_next h (serveFlow_frame _ s (takeSetMeritOrder_frame _ _))
  | readMeritOrder => exact of_next h (serveFlow_frame _ s fun u => judged_frame (.refl u))
  | readCavern => exact of_next h (serveFlow_frame _ s fun u => judged_frame (.refl u))
  | unitMaintenance => exact of_next h (serveFlow_frame _ s (takeUnitMaintenance_frame _))
  | unitAvailable => exact of_next h (serveFlow_frame _ s (takeUnitAvailable_frame _))
  | resetLockout => exact of_next h (serveFlow_frame _ s (takeResetLockout_frame _))
  | setDuty => exact of_next h (serveFlow_frame _ s (takeSetDuty_frame _ _))
  | setDutyOrder => exact of_next h (serveFlow_frame _ s (takeSetDutyOrder_frame _ _))
  | readUnit => exact of_next h (serveFlow_frame _ s fun u => judged_frame (.refl u))
  | readDuty => exact of_next h (serveFlow_frame _ s .refl)
  | dispatchEnable => exact of_next h (serveFlow_frame _ s takeDispatchEnable_frame)
  | dispatchHold => exact of_next h (serveFlow_frame _ s takeDispatchHold_frame)
  | readPlan => exact of_next h (serveFlow_frame _ s .refl)
  | clearTrip => exact of_next h (serveFlow_frame _ s takeClearTrip_frame)
  | readTrip => exact of_next h (serveFlow_frame _ s .refl)
  | valveLimitChange => exact of_next h (inputChange_frame s (updCav_frame _ _ _) (changeCavern_frame _ _))
  | travelDeadlineExpiry => exact of_next h (occurs_frame s (travelExpired_frame _ _))
  | dwellExpiry => exact of_next h (occurs_frame s (changeCavern_frame _ _ _))
  | dispatchIntervalExpiry => exact of_next h (occurs_frame s (intervalStep_frame _))
  | startPendingExpiry => exact of_next h (occurs_frame s (review_frame _ _))
  | stopPendingExpiry => exact of_next h (occurs_frame s (review_frame _ _))
  | minimumRunExpiry => exact of_next h (occurs_frame s ((updUnit_frame s _ _).trans (review_frame _ (State.ev _))))
  | unitRunningInputChange => exact of_next h (inputChange_frame s (updUnit_frame _ _ _) (feedbackChanged_frame _))
  | startDeadlineExpiry => exact of_next h (occurs_frame s (startFailed_frame _ _))
  | stopDeadlineExpiry => exact of_next h (occurs_frame s (stopExpired_frame _ _))
  | restDeadlineExpiry => exact of_next h (occurs_frame s (updUnit_frame _ _ _))
  | startHistoryAgeOut => exact of_next h (occurs_frame s (updUnit_frame _ _ _))
  | esdInputChange => exact of_next h (inputChange_frame s {} esdChanged_frame)
  | _ => nomatch family

theorem execChannelReading_frame (ch i : Nat) {s t : State} (h : execChannelReading ch i s = .next t) :
    Frame True True False s t := by
  refine of_next h (occurs_frame s ?_)
  split
  · exact reading_frame _ _ _ _
  · exact .refl _

theorem execMeterPulse_frame (r : Nat) {s t : State} (h : execMeterPulse r s = .next t) :
    Frame True True False s t := by
  refine of_next h (occurs_frame s ?_)
  split
  · exact pulse_frame _ _ _
  · exact .refl _

theorem execCrystalStop_frame {s t : State} (h : execCrystalStop s = .next t) : Frame True True False s t :=
  of_next h (iteState_frame (.refl s) (iteState_frame
    (((setSource_frame s .internal).trans (raise_frame _ _ (State.ev _))).trans (finish_frame _))
    (setSource_frame s .internal)))

/-- The commands of measurement and trains leave book, settlement and profiles alone; the planner and the trips that
they bring about are those of their event's end. -/
theorem exec_gasOnly_frame {c : Instr} {s t : State} (family : c.gasOnly = true) (h : exec c s = .next t) :
    Frame True True False s t := by
  cases c with
  | readChannel => exact of_next h (serveFlow_frame _ s fun u => judged_frame (.refl u))
  | loopCheckBegin => exact of_next h (serveFlow_frame _ s (takeLoopCheckBegin_frame _ _))
  | loopCheckEnd => exact of_next h (serveFlow_frame _ s (takeLoopCheckEnd_frame _))
  | readMeter => exact of_next h (serveFlow_frame _ s fun u => judged_frame (.refl u))
  | setGasQuality => exact of_next h (serveFlow_frame _ s (takeSetGasQuality_frame _ _))
  | channelReading => exact execChannelReading_frame _ _ h
  | holdExpiry => exact of_next h (occurs_frame s (holdExpired_frame _ _))
  | recalibrationBegin =>
    exact of_next h (occurs_frame s ((mapPass_frame s.ev .running).trans (foldl_frame _ passBegins_frame _ _)))
  | recalibrationComplete =>
    exact of_next h (occurs_frame s ((mapPass_frame s.ev .none).trans (foldl_frame _ passEnds_frame _ _)))
  | meterPulse => exact execMeterPulse_frame _ h
  | zeroFlowExpiry => exact of_next h (occurs_frame s ((mapRun_frame s.ev _ _).trans (setRate_frame _ _ _)))
  | crystalStop => exact execCrystalStop_frame h
  | crystalResume => exact of_next h (setSource_frame s .crystal)
  | trainOnline => exact of_next h (serveFlow_frame _ s (takeTrainOnline_frame _))
  | trainOffline => exact of_next h (serveFlow_frame _ s (takeTrainOffline_frame _))
  | forceSwitchover => exact of_next h (serveFlow_frame _ s (takeForceSwitchover_frame _))
  | resetTower => exact of_next h (serveFlow_frame _ s (takeResetTower_frame _ _))
  | readTrain => exact of_next h (serveFlow_frame _ s fun u => judged_frame (.refl u))
  | towerFeedbackChange => exact of_next h (inputChange_frame s (updTrain_frame _ _ _) (towerFeedback_frame _ _))
  | switchDeadlineExpiry => exact of_next h (occurs_frame s (changeTrain_frame _ _ _))
  | towerStepExpiry => exact of_next h (occurs_frame s (stepExpired_frame _ _ _))
  | offSpecExpiry => exact of_next h (occurs_frame s (offSpecExpired_frame _ _))
  | _ => nomatch family

/-- The requests on the account book and its settlement leave measurement, trains and profiles alone. -/
theorem exec_bookOnly_frame {c : Instr} {s t : State} (family : c.bookOnly = true) (h : exec c s = .next t) :
    Frame True False True s t := by
  cases c with
  | accountsReady => exact of_next h (serveFlow_frame _ s takeAccountsReady_frame)
  | openAccount => exact of_next h (serveFlow_frame _ s (takeOpenAccount_frame _ _ _ _ _ _))
  | loadInventory => exact of_next h (serveFlow_frame _ s (takeLoadInventory_frame _ _))
  | suspendAccount => exact of_next h (serveFlow_frame _ s (takeSuspendAccount_frame _))
  | resumeAccount => exact of_next h (serveFlow_frame _ s (takeResumeAccount_frame _))
  | closeAccount => exact of_next h (serveFlow_frame _ s (takeCloseAccount_frame _))
  | setRights => exact of_next h (serveFlow_frame _ s (takeSetRights_frame _ _ _ _))
  | transfer => exact of_next h (serveFlow_frame _ s (takeTransfer_frame _ _ _))
  | nominate => exact of_next h (serveFlow_frame _ s (takeNominate_frame _ _ _))
  | declareCapacity => exact of_next h (serveFlow_frame _ s (takeDeclareCapacity_frame _ _ _))
  | readCapacity => exact of_next h (serveFlow_frame _ s fun u => judged_frame (.refl u))
  | readChanged => exact of_next h (serveFlow_frame _ s takeReadChanged_frame)
  | readAccount => exact of_next h (serveFlow_frame _ s fun u => onAccount_frame (.refl u))
  | readBook => exact of_next h (serveFlow_frame _ s fun u => onAccount_frame (.refl u))
  | obaAdjust => exact of_next h (serveFlow_frame _ s (takeObaAdjust_frame _ _))
  | readOba => exact of_next h (serveFlow_frame _ s .refl)
  | readPeriod => exact of_next h (serveFlow_frame _ s (takeReadPeriod_frame _ _))
  | _ => nomatch family

end Sys2Proof.Machine
end

section
/-! PROOFS. What the requests on watches and notices and what happens on the line leave alone, and the families
together: O60. -/

namespace Sys2Proof.Machine

/-! ### Watches and notices -/

/-- An event that hands nothing on, as those of the requests on watches and notices do: it ends where it is, with no
launch and no re-step to follow. -/
structure Quiet (F G B : Prop) (s : State) (ev : Ev) : Prop where
  frame : Frame F G B s ev.s
  launches : ev.launches = []
  restep : ev.restep = false

section
variable {F G B : Prop}

theorem Quiet.finish {s : State} {ev : Ev} (h : Quiet F G B s ev) : Frame F G B s ev.finish :=
  finish_of_quiet h.launches h.restep ▸ h.frame

/-- An event in which nothing is done. -/
theorem Quiet.refl (s : State) : Quiet F G B s s.ev := ⟨.refl s, rfl, rfl⟩

theorem judged_quiet {s : State} {l : List (Nat × Bool)} {go : Ev × Answer} (h : Quiet F G B s go.1) :
    Quiet F G B s (judged s l go).1 := by
  unfold judged
  split
  · exact .refl s
  · exact h

theorem refuseIf_quiet {s : State} {b : Bool} {a : Answer} {go : Ev × Answer} (h : Quiet F G B s go.1) :
    Quiet F G B s (refuseIf s b a go).1 := by
  cases b
  · exact h
  · exact .refl s

theorem clearFlags_frame (s : State) : Frame F G B s s.clearFlags := {}

theorem holdAll_frame (s : State) (b : Bool) : Frame F G B s (s.holdAll b) := {}

theorem takeSetWatch_quiet (i : Nat) (w : WatchFields) (s : State) : Quiet F G B s (takeSetWatch i w s).1 :=
  judged_quiet (refuseIf_quiet (refuseIf_quiet ⟨updWatch_frame s i _, rfl, rfl⟩))

theorem takeClearWatch_quiet (i : Nat) (s : State) : Quiet F G B s (takeClearWatch i s).1 :=
  judged_quiet ⟨updWatch_frame s i _, rfl, rfl⟩

theorem takeAwaitFlags_quiet (mask timeout : Nat) (s : State) : Quiet F G B s (takeAwaitFlags mask timeout s).1 := by
  refine judged_quiet ?_
  split
  · exact ⟨clearFlags_frame s, rfl, rfl⟩
  · exact .refl s

theorem takeAckNotice_quiet (n : Nat) (l : List Nat) (s : State) : Quiet F G B s (takeAckNotice n l s).1 := by
  refine judged_quiet ?_
  split
  · exact .refl s
  · exact refuseIf_quiet ⟨(updNotice_frame s n _).trans
      (foldlState_frame _ (fun t w => updWatch_frame t w _) _ _), rfl, rfl⟩

theorem takeDiscardNotice_quiet (n : Nat) (s : State) : Quiet F G B s (takeDiscardNotice n s).1 := by
  refine judged_quiet ?_
  cases (s.notice n).state with
  | pending => exact ⟨updNotice_frame s n _, rfl, rfl⟩
  | idle | outstanding => exact .refl s

theorem takeTestNotice_quiet (n : Nat) (s : State) : Quiet F G B s (takeTestNotice n s).1 :=
  judged_quiet ⟨joinNotice_frame s n _ _, rfl, rfl⟩

/-- A wait for flags that times out is answered, and nothing else (R148). -/
theorem awaitTimeout_frame (s : State) (a : Nat) : Frame F G B s (s.awaitTimeout a) := by
  unfold State.awaitTimeout
  split
  · split
    · exact iteState_frame (formReply_frame _ _ _ _ _) (.refl s)
    all_goals exact .refl s
  · exact .refl s

/-- A request whose event ends at once, served. -/
theorem serveQuiet_frame (c : Instr) {take : State → Ev × Answer} (s : State) (h : ∀ t, Quiet F G B t (take t).1) :
    Frame F G B s (serve c take s) :=
  serve_frame c s fun t => (h t).finish

end

/-- The requests on watches and notices leave every block but their own and the link alone. -/
theorem exec_watchOnly_frame {c : Instr} {s t : State} (family : c.watchOnly = true) (h : exec c s = .next t) :
    Frame False False False s t := by
  cases c with
  | setWatch => exact of_next h (serveQuiet_frame _ s (takeSetWatch_quiet _ _))
  | clearWatch => exact of_next h (serveQuiet_frame _ s (takeClearWatch_quiet _))
  | readWatches => exact of_next h (serveQuiet_frame _ s fun u => ⟨clearFlags_frame u, rfl, rfl⟩)
  | readWatch => exact of_next h (serveQuiet_frame _ s fun u => judged_quiet (.refl u))
  | awaitFlags => exact of_next h (serveQuiet_frame _ s (takeAwaitFlags_quiet _ _))
  | ackNotice => exact of_next h (serveQuiet_frame _ s (takeAckNotice_quiet _ _))
  | holdNotices => exact of_next h (serveQuiet_frame _ s fun u => ⟨holdAll_frame u true, rfl, rfl⟩)
  | releaseNotices => exact of_next h (serveQuiet_frame _ s fun u => ⟨holdAll_frame u false, rfl, rfl⟩)
  | discardNotice => exact of_next h (serveQuiet_frame _ s (takeDiscardNotice_quiet _))
  | testNotice => exact of_next h (serveQuiet_frame _ s (takeTestNotice_quiet _))
  | readNoticeState => exact of_next h (serveQuiet_frame _ s fun u => judged_quiet (.refl u))
  | awaitFlagsTimeout => exact of_next h (iteState_frame (awaitTimeout_frame s _) (.refl s))
  | _ => nomatch family

/-! ### The line -/

/-- Only the link's record changes. -/
def LinkOnly (s t : State) : Prop := t = { s with slu := t.slu }

theorem LinkOnly.refl (s : State) : LinkOnly s s := rfl

theorem LinkOnly.trans {s t u : State} (h : LinkOnly s t) (k : LinkOnly t u) : LinkOnly s u := by
  unfold LinkOnly at h k ⊢
  rw [k, h]

/-- A record of the link put in place of another. -/
theorem linkOnly_set (s : State) (q : Slu) : LinkOnly s { s with slu := q } := rfl

theorem iteState_linkOnly {p : Prop} [Decidable p] {s x y : State} (h : LinkOnly s x) (k : LinkOnly s y) :
    LinkOnly s (if p then x else y) := by
  split
  · exact h
  · exact k

theorem refuseFrame_linkOnly (s : State) (k t : Nat) (st : Status) (d : Detail) :
    LinkOnly s (s.refuseFrame k t st d) := iteState_linkOnly (.refl s) (linkOnly_set s _)

theorem enqueue_linkOnly (s : State) (c : Instr) (k : Nat) : LinkOnly s (s.enqueue c k) :=
  iteState_linkOnly (refuseFrame_linkOnly _ _ _ _ _) (linkOnly_set s _)

theorem judgeFrame_linkOnly (s : State) (k t : Nat) (b : List Byte) : LinkOnly s (s.judgeFrame k t b) := by
  unfold State.judgeFrame
  split
  · exact refuseFrame_linkOnly _ _ _ _ _
  · split
    · split
      · exact enqueue_linkOnly _ _ _
      · exact .refl s
    · exact refuseFrame_linkOnly _ _ _ _ _

theorem hunt_linkOnly (s : State) : LinkOnly s s.hunt := linkOnly_set s _

theorem receiveFrame_linkOnly (s : State) : LinkOnly s s.receiveFrame := by
  unfold State.receiveFrame
  split
  · exact .refl s
  · refine iteState_linkOnly ?_ (.refl s)
    split
    · exact iteState_linkOnly (hunt_linkOnly s) ((hunt_linkOnly s).trans (judgeFrame_linkOnly _ _ _ _))
    · exact hunt_linkOnly s

theorem huntByte_linkOnly (s : State) (b : Byte) : LinkOnly s (s.huntByte b) :=
  iteState_linkOnly (linkOnly_set s _) (hunt_linkOnly s)

theorem receiveByte_linkOnly (b : Byte) (s : State) : LinkOnly s (s.receiveByte b) := by
  unfold State.receiveByte
  split
  · exact huntByte_linkOnly s b
  · exact iteState_linkOnly ((receiveFrame_linkOnly s).trans (huntByte_linkOnly _ b))
      (iteState_linkOnly (huntByte_linkOnly s b) (iteState_linkOnly (hunt_linkOnly s) (linkOnly_set s _)))

theorem gapTimeout_linkOnly (s : State) : LinkOnly s s.gapTimeout := by
  unfold State.gapTimeout
  split
  · exact iteState_linkOnly (hunt_linkOnly s) (.refl s)
  · exact .refl s

theorem grantReply_linkOnly (s : State) : LinkOnly s s.grantReply := by
  unfold State.grantReply
  split
  · exact iteState_linkOnly (.refl s) (linkOnly_set s _)
  · exact .refl s

/-- Judging, taking and answering of a request are the link's own; the rest is its event. -/
theorem serve_linkOnly (c : Instr) {take : State → Ev × Answer} (s : State)
    (h : ∀ t, LinkOnly t (take t).1.finish) : LinkOnly s (serve c take s) := by
  have arrives (k : Nat) : LinkOnly s (if (s.findEntry c).isSome then s
      else if lengthAllowed k c.body.length then s.enqueue c k
      else s.refuseFrame (k + 0x80) c.tag .badLength {}) :=
    iteState_linkOnly (.refl s) (iteState_linkOnly (enqueue_linkOnly _ _ _) (refuseFrame_linkOnly _ _ _ _ _))
  have taken (e : QEntry) (t : State) : LinkOnly t (takeEntry take e t) := by
    have noted : LinkOnly t (t.noteTaking (take t).1.finish e.arrival) := (h t).trans (linkOnly_set _ _)
    unfold takeEntry
    dsimp only
    split <;> exact noted.trans (linkOnly_set _ _)
  unfold serve
  refine iteState_linkOnly (.refl s) ?_
  dsimp only
  split
  · exact (arrives _).trans
      (iteState_linkOnly (.refl _) (iteState_linkOnly (linkOnly_set _ _) (taken _ _)))
  · exact arrives _

/-- What happens on the line changes the link's record alone. -/
theorem exec_lineOnly {c : Instr} {s t : State} (family : c.lineOnly = true) (h : exec c s = .next t) :
    LinkOnly s t := by
  cases c with
  | byteReceived => exact of_next h (iteState_linkOnly (receiveByte_linkOnly _ s) (.refl s))
  | frameReceived => exact of_next h (iteState_linkOnly (receiveFrame_linkOnly s) (.refl s))
  | frameGapTimeout => exact of_next h (iteState_linkOnly (gapTimeout_linkOnly s) (.refl s))
  | framingError =>
    exact of_next h (iteState_linkOnly ((receiveFrame_linkOnly s).trans (hunt_linkOnly _)) (.refl s))
  | replyGrant => exact of_next h (iteState_linkOnly (grantReply_linkOnly s) (.refl s))
  | identify => exact of_next h (serve_linkOnly _ s .refl)
  | resetController => exact of_next h (serve_linkOnly _ s fun u => linkOnly_set u _)
  | _ => nomatch family

/-! ### The families together -/

/-- Settles O60: each family has its frame, and the line's commands change the link's record alone. -/
theorem familiesLeaveOtherBlocksAlone : Obligations.FamiliesLeaveOtherBlocksAlone := by
  intro c s t h
  refine ⟨fun family => ?flow, fun family => ?gas, fun family => ?book, fun family => ?watch, fun family => ?line⟩
  case flow =>
    have k := exec_flowOnly_frame family h
    exact ⟨k.mu id, k.dtc id, k.acb id, k.su id, k.pst, k.phase, k.input⟩
  case gas =>
    have k := exec_gasOnly_frame family h
    exact ⟨k.acb id, k.su id, k.pst, k.phase, k.input⟩
  case book =>
    have k := exec_bookOnly_frame family h
    exact ⟨k.mu id, k.dtc id, k.pst, k.phase, k.input⟩
  case watch =>
    have k := exec_watchOnly_frame family h
    exact ⟨k.mu id, k.cvc id, k.cdm id, k.dtc id, k.acb id, k.fpl id, k.su id, k.tru id, k.pst, k.phase, k.input⟩
  case line => exact exec_lineOnly family h

end Sys2Proof.Machine
end
